-- ==== Sys2Proof/Word.lean ====
section
/-! DEFINITION. The word types of the LA-7128 model and their plainest arithmetic. -/

namespace Sys2Proof

/-- A byte of any byte-addressed store. -/
abbrev Byte := BitVec 8

/-- A 32-bit word: a management register (R11), a Camol general register (R251). -/
abbrev Word := BitVec 32

/-- A 64-bit word: a counter value (R207), a flash word (R346), a WMA word (R157). -/
abbrev Dword := BitVec 64

/-- A 384-bit digest or curve coordinate, as a vector of bits. -/
abbrev Digest := BitVec 384

end Sys2Proof
end

