-- ==== Sys2Proof/Machine/Types.lean ====
section
/-! DEFINITION. The operand types of the commands: who sends one, what the outside world answers, and the
fields of the Camol instruction formats. Plain data, no meaning. -/

namespace Sys2Proof

/-- A logical core (R250): core `c` of logical truss `t`, or the warden core. In Pavane `c` is the lockstep pair. -/
inductive CoreId where
  | truss (t : Fin 32) (c : Fin 4)
  | warden
deriving DecidableEq, Repr

/-- The initiator of a management-space access (R328): physical function BAR0, management SPI, the warden core, or
a truss core, whose access every gate of a management block refuses (R332). `vf n` is a read or a mirror write
through virtual function n's BAR0, whose offsets are those of R70. -/
inductive Who where
  | pf
  | vf (n : Nat)
  | spi
  | warden
  | core (t : Fin 32) (c : Fin 4)
deriving DecidableEq, Repr

/-- What a host read brings back (R94, R95, R97). -/
inductive HostData where
  | ok (bytes : List Byte)
  | poison
  | ecrc
  | ur
  | ca
deriving DecidableEq, Repr

/-- A command in flight: function, ring and position (R77, R323). -/
structure CmdRef where
  fn   : Nat
  ring : Nat
  pos  : Word
deriving DecidableEq, Repr

/-- Which outstanding host read a return or a timeout names (R94, R97). -/
inductive ReadId where
  | cmd (r : CmdRef)
  | fetch (r : CmdRef)
  | port (core : Nat)
  | stage
  | restore
  | recovery
deriving DecidableEq, Repr

/-- The endpoint resets of R100. -/
inductive EndpointReset where
  | perst
  | hotReset
  | linkDown
  | pfFlr
deriving DecidableEq, Repr

/-- The features of R68 that a received request may ask for. -/
inductive Unsupported where
  | ats | pasid | pri | msi | msix | intx | tph | atomicOp | peerToPeer
deriving DecidableEq, Repr

/-- A PCIe configuration write that the spec gives an effect (R67, R98, R100). -/
inductive ConfigField where
  | vfEnable (on : Bool)
  | numVfs (n : Nat)
  | timeoutRange (code : BitVec 4)
  | timeoutDisable (on : Bool)
  | ecrcEnable (on : Bool)
  | tenBitTags (on : Bool)
  | maxPayload (bytes : Nat)
  | maxReadRequest (bytes : Nat)
deriving DecidableEq, Repr

/-- What happens outside the module at one boot (R457): inputs that no register holds. -/
structure BootEnv where
  /-- The calibration row as the flash die returns it (R366). -/
  calRow      : List Byte
  /-- Physical trusses that pass self-test (R462). -/
  selfTest    : BitVec 34
  /-- Entropy sources that pass the start-up tests (R467). -/
  entropyPass : BitVec 4
  /-- The regulator acknowledges the SET of step 4 (R486). -/
  vidAck      : Bool
  /-- The Eave die's state marker reads valid (R385). -/
  eaveMarker  : Bool
  /-- The hottest main-die sensor, in sixteenths of a degree. -/
  temp        : Int
  /-- 64-byte flash lines, by logical number, whose read ends with INTEGRITY or SUSPENDED for the boot ROM (R459). -/
  badLines    : List Nat := []
  /-- Words of the remap copies (0 and 1) whose read fails so: copy and word. -/
  badRemap    : List (Nat × Nat) := []
deriving DecidableEq, Repr

/-- How a tenant program ends (R154, R155), or that it has been entered and still runs. -/
inductive TenantOutcome where
  | started
  | completes (status : BitVec 16) (result : Dword) (inl : List Byte)
  | exception
  | gateRefused
  /-- The program issues a native sub-command, laid out as an entry (R155). -/
  | subCommand (entry : List Byte)
  /-- The program issues the sub-command BLOCK (R155, R199). -/
  | block (key : Dword) (decipher : Bool) (data : List Byte)
deriving DecidableEq, Repr

/-- Format R of R262 without MAJ and FN. -/
structure FmtR where
  rd : BitVec 4
  ra : BitVec 4
  rb : BitVec 4
  s  : BitVec 6
deriving DecidableEq, Repr

/-- Format I of R262 without MAJ. -/
structure FmtI where
  rd  : BitVec 4
  ra  : BitVec 4
  imm : BitVec 18
deriving DecidableEq, Repr

/-- Format M of R262 without MAJ; `low` is bits 12:0, read as AM says. -/
structure FmtM where
  rd  : BitVec 4
  rb  : BitVec 4
  am  : BitVec 3
  sz  : BitVec 2
  low : BitVec 13
deriving DecidableEq, Repr

/-- Format A of R262 without MAJ and FN; `z` is bits 8:4. -/
structure FmtA where
  rg : BitVec 4
  rb : BitVec 4
  ad : BitVec 2
  as : BitVec 2
  f  : BitVec 5
  z  : BitVec 5
deriving DecidableEq, Repr

/-- Format B of R262 without MAJ. -/
structure FmtB where
  cond : BitVec 4
  disp : BitVec 22
deriving DecidableEq, Repr

/-- Format J of R262 without MAJ; `z` is bits 16:0. -/
structure FmtJ where
  rd : BitVec 4
  ra : BitVec 4
  l  : BitVec 1
  z  : BitVec 17
deriving DecidableEq, Repr

/-- Format X1 of R262 without MAJ and FN; `z` is bits 3:0. -/
structure FmtX1 where
  sp  : BitVec 1
  bn  : BitVec 12
  ind : BitVec 1
  ra  : BitVec 4
  z   : BitVec 4
deriving DecidableEq, Repr

/-- Format X2 of R262 without MAJ and FN. -/
structure FmtX2 where
  rd : BitVec 4
  sp : BitVec 1
  bn : BitVec 12
  p  : BitVec 5
deriving DecidableEq, Repr

/-- Format X3 of R262 without MAJ. -/
structure FmtX3 where
  spd : BitVec 1
  sps : BitVec 1
  bd  : BitVec 12
  bs  : BitVec 12
deriving DecidableEq, Repr

/-- Format X4 of R262 without MAJ. -/
structure FmtX4 where
  sp   : BitVec 1
  pol  : BitVec 1
  bn   : BitVec 12
  disp : BitVec 12
deriving DecidableEq, Repr

/-- Format T of R262 without MAJ. -/
structure FmtT where
  rd  : BitVec 4
  ra  : BitVec 4
  rb  : BitVec 4
  s   : BitVec 5
  sgn : BitVec 1
  n   : BitVec 8
deriving DecidableEq, Repr

/-- Format C of R262 without MAJ; `z` is bits 15:0, `cmd` the extension word. -/
structure FmtC where
  rd   : BitVec 4
  ra   : BitVec 4
  unit : BitVec 2
  z    : BitVec 16
  cmd  : Word
deriving DecidableEq, Repr

/-- Format G of R262 without MAJ; `z` is bits 25:14. -/
structure FmtG where
  z     : BitVec 12
  index : BitVec 14
deriving DecidableEq, Repr

/-- Format E of R262 without MAJ; `z` is bits 21:0, `imm` the extension word. -/
structure FmtE where
  rd  : BitVec 4
  z   : BitVec 22
  imm : Word
deriving DecidableEq, Repr

/-- The fields of a WMA command word without OP (R163), the argument word, and the COPI's RD. -/
structure WmaOp where
  rd  : BitVec 4
  irq : BitVec 1
  z   : BitVec 2
  d   : BitVec 8
  a   : BitVec 8
  b   : BitVec 8
  arg : Word
deriving DecidableEq, Repr

/-- The fields of a Reed COPI without OP (R310): RD, the RA register number, the zero field and IMM. -/
structure ReedOp where
  rd  : BitVec 4
  ra  : BitVec 4
  z   : BitVec 11
  imm : BitVec 16
deriving DecidableEq, Repr

/-- The data of a write as they arrive, and whether their TLP is poisoned or fails its ECRC (R85, R101). -/
structure BusData where
  value : Dword
  bad   : Bool
deriving DecidableEq, Repr

/-- The width of a write in bytes, and whether its TLP is poisoned or fails its ECRC (R85, R101). -/
structure BusWidth where
  bytes : Nat
  bad   : Bool
deriving DecidableEq, Repr

/-- How the array operation of a PROG or an ERASE went (R354, R355, R360): pulses that the slowest word or the
sector needed (none: it did not verify), corrected bits of the read-back, and for a retirement the spares that
turned out bad before a good one was found (R361). -/
structure FlashOutcome where
  pulses    : Option Nat
  cbc       : Nat
  badSpares : Nat
deriving DecidableEq, Repr

/-- What the array returned for one line read (R348): for each of the eight words, the bits in error of its 64 data
bits (bits 63:0) and 8 check bits (bits 71:64). Words beyond the list are free of errors. -/
structure LineRead where
  errs : List (BitVec 72)
deriving DecidableEq, Repr

/-- A frame received from a slate on CMD (R401). -/
structure SlateFrame where
  bytes : List Byte
deriving DecidableEq, Repr

/-- A data block received from a slate (R404): its bytes and, per data line in use, whether its CRC-16 and framing held. -/
structure SlateBlock where
  bytes : List Byte
  crcs  : List (BitVec 16)
deriving DecidableEq, Repr

/-- The limits of R406 that may pass. -/
inductive SlateLimit where
  | noResponse | noBlock | noToken | busy | authorisation
deriving DecidableEq, Repr

/-- What a card answers to reset (R413): mute, or the protocols and parameters its ATR offers. -/
inductive AtrResult where
  | mute
  | parity
  | ok (t1 : Bool) (lrc : Bool) (bwi : Nat) (ifsc : Nat)
deriving DecidableEq, Repr

/-- A T=1 block from a card (R413, R414). -/
inductive T1Block where
  | iBlock (data : List Byte) (more : Bool)
  | rBlock (err : Bool)
  | sWtx (bwtMult : Byte)
  | sAbort
  | sResyncResponse
  | sIfsResponse (ifs : Byte)
  | bad
deriving DecidableEq, Repr

/-- A peer's HELLO (R432, R433), with the outcome of the signature and chain checks that need the peer's secrets. -/
structure Hello where
  serial      : BitVec 128
  chainOk     : Bool
  sigOk       : Bool
  lcOwned     : Bool
  lcDev       : Bool
  ownerDigest : List Byte
  ksrkId      : BitVec 128
  epoch       : Dword
  member      : Nat
  inTheirTable : Bool
  soloEmpty   : Bool
  ephemeral   : BitVec 768
deriving DecidableEq, Repr

/-- A Batten flit as received (R430): kind, header fields, payload, and whether its tag verifies. -/
structure Flit where
  kind    : Byte
  credits : Byte
  fseq    : BitVec 16
  ack     : BitVec 16
  payload : List Byte
  tagOk   : Bool
deriving DecidableEq, Repr

/-- A key-store change as it travels in a cascade (R440). -/
structure KsChange where
  member   : Nat
  resident : Bool
  index    : Nat
  store    : Bool
  gable    : Nat
  spanLog2 : Nat
  gen      : BitVec 16
  seq      : Nat
  contents : List Byte
deriving DecidableEq, Repr

/-- The cascade table's fields (R434). -/
structure CascadeTable where
  n         : Nat
  ridge     : Nat
  epoch     : Dword
  succ      : Nat
  leaseLog2 : Nat
  hold      : Nat
  fwdMask   : Dword
  ksrkId    : BitVec 128
  members   : List (BitVec 128)
deriving DecidableEq, Repr

/-- The fields that Novquin's final test writes (R390). -/
inductive FuseTest where
  | serial (v : BitVec 128)
  | trussEn (v : Byte)
  | dev
  | shipped
deriving DecidableEq, Repr

/-- A word of the structural latches whose halves disagree (R371): a gate entry, a range of a gable (0 key slots,
1 counters, 2 queues, 3 sealed window, 4 flash, 5 resident keys, 6 host windows), or a source's level; and a level of the retained
response table on the Eave die. -/
inductive LatchWord where
  | gate (target entry : Nat)
  | range (gable kind : Nat)
  | level (src : Nat)
  | retained (src : Nat)
deriving DecidableEq, Repr

/-- A JTAG instruction (R498). -/
inductive JtagInstr where
  | bypass | idcode | samplePreload | pinControl
deriving DecidableEq, Repr

end Sys2Proof
end

