-- ==== Sys2Proof/Syntax.lean ====
section
/-! DEFINITION. The commands of the block: one constructor per row of spec/opcode_table.json, in the table's
order, with the operands that the row's rule gives it. The docstring names the row and its rule. -/

namespace Sys2Proof

/-- A command that the block takes from outside, or an event inside it that the spec gives a row. -/
inductive Instr where
  /-- REGISTER_WRITE, R10: A write to a management register that has no row of its own, carried out by its access code
  (RW, W1C, RWL, WO, RO). -/
  | registerWrite (who : Who) (off : Nat) (width : Nat) (value : BusData)
  /-- SHADOW_PENDING_WRITE, R12: A write to offset X of a shadowed pair is held pending until the matching complement
  write arrives. -/
  | shadowPendingWrite (who : Who) (off : Nat) (value : Word)
  /-- POWER_UP, R488: The main supplies come into range after VAON, main-die reset is released and the boot begins. -/
  | powerUp (env : BootEnv)
  /-- SYS_RST_CTL, R479: The value 0x5 taking effect in SYS_RST_CTL resets the device within 1 us. -/
  | sysRstCtl (who : Who) (env : BootEnv)
  /-- WATCHDOG_EXPIRY, R456: The warden has not written KICK for 2^30 core clocks, so the watchdog resets the device. -/
  | watchdogExpiry (env : BootEnv)
  /-- MSU_INIT_DONE, R226: MSU initialisation ends, with sealed memory written with enciphered zeros and verified, and
  INIT_DONE set. -/
  | msuInitDone (lines : List (Nat × Bool))
  /-- IMAGE_LOAD, R60: After the warden is released, the image slots are verified, a record is selected, and the
  latches are written and locked. -/
  | imageLoad
  /-- KEY_STORE_POWER_UP, R247: The slot log buffer is flushed, the root record is selected and the key-store STATE is
  set. -/
  | keyStorePowerUp
  /-- LOG_REPLAY_END, R246: The slot-log replay for a root record with BACKUP_GEN 0 ends, and the key store becomes
  OPEN. -/
  | logReplayEnd
  /-- PAVANE_FRAME_BOUNDARY, R26: A Pavane pipeline frame of 16 slots ends; pending slot reassignments and closures of
  chains take effect. -/
  | pavaneFrameBoundary
  /-- PAVANE_SLOT_START, R197: A 4,000-clock slot of a Pavane pipeline starts, and at most one key load of the owning
  gable begins. -/
  | pavaneSlotStart
  /-- REEL_FRAME_BOUNDARY, R88: A 256-cycle Reel frame ends; changes to the Pavane deal list take effect. -/
  | reelFrameBoundary
  /-- GRANT_CYCLE, R86: A grant cycle of the Reel arbiter grants at most one eligible entry by the weighted round-
  robin. -/
  | grantCycle
  /-- ENTRY_COMMIT, R86: 90 core clocks after its grant, the HQI commits the entry packet to the ring's Reed queue. -/
  | entryCommit (fn ring : Nat)
  /-- OPEN, R73: The OPEN command of HQI_RSETUP_CMD checks and opens a ring context. -/
  | ringOpen (who : Who)
  /-- OPEN_COMPLETE, R73: OPEN ends, writes STATUS, clears BUSY and sets SETUP_DONE. -/
  | openComplete
  /-- TAIL_DOORBELL, R82: A 4-byte write to offset 0 of a doorbell window is accepted or discarded by the range check. -/
  | tailDoorbell (fn ring : Nat) (value : Word) (bad : Bool)
  /-- INLINE_WRITE, R83: A 64-byte write fills an inline slot, or is discarded when the slot is bound. -/
  | inlineWrite (fn ring slot : Nat) (data : List Byte) (bad : Bool)
  /-- DOORBELL_WINDOW_DISCARD, R85: Any other write to a doorbell window is discarded, counted in DROP, and sets
  WIN_WIDTH. -/
  | doorbellWindowDiscard (fn ring off : Nat) (width : BusWidth)
  /-- POSTED_ENTRIES_KNOWN, R86: 52 clocks after an accepted doorbell, the posted entries become known to the arbiter
  and their entry fetches are issued. -/
  | postedEntriesKnown (fn ring : Nat)
  /-- ENTRY_FETCH_RETURN, R86: An entry fetch returns, so the entry is held, or the fetch fails and the ring is
  stopped under R95. -/
  | entryFetchReturn (fn ring : Nat) (pos : Word) (res : HostData)
  /-- COMPLETION_TIMEOUT, R67: A host read reaches the completion timeout of its programmed range. -/
  | completionTimeout (rd : ReadId)
  /-- HOST_READ_RETURN, R94: A host read completion for a command arrives with data, poison, ECRC failure, UR or CA. -/
  | hostReadReturn (rd : ReadId) (res : HostData)
  /-- UNSUPPORTED_REQUEST_RECEIVED, R68: A received request that asks for an unsupported feature is handled as an
  Unsupported Request. -/
  | unsupportedRequestReceived (kind : Unsupported)
  /-- FUNCTION_LEVEL_RESET, R98: An FLR of a virtual function aborts its commands and clears its rings over 3 us. -/
  | functionLevelReset (fn : Nat)
  /-- CONVENTIONAL_RESET, R100: PERST#, hot reset, link down or an FLR of the physical function resets every function
  without a device reset. -/
  | conventionalReset (kind : EndpointReset)
  /-- LINK_UP, R101: The PCIe link reaches L0 and LINK_UP is set. -/
  | linkUp
  /-- SINK_HOST_WRITE, R324: The HQI sink issues a host-write packet's write to host memory, or refuses it outside the
  windows. -/
  | sinkHostWrite
  /-- SINK_COMPLETION_WRITE, R324: The HQI sink writes a 64-byte completion to the ring slot, or drops it when the
  ring is not open. -/
  | sinkCompletionWrite
  /-- NOP, R150: The native NOP completes with OK. -/
  | nop (r : CmdRef)
  /-- PIN_TRANSLATE, R120: Deciphers a PIN block under KEY and re-enciphers it under OUT_KEY. -/
  | pinTranslate (r : CmdRef)
  /-- PIN_VERIFY, R122: Verifies a PIN against a reference block or a decimalised offset. -/
  | pinVerify (r : CmdRef)
  /-- DUKPT_PIN_TRANSLATE, R123: Translates a DUKPT-enciphered PIN block to OUT_KEY. -/
  | dukptPinTranslate (r : CmdRef)
  /-- DUKPT_MAC_VERIFY, R125: Verifies a MAC under a derived DUKPT MAC key. -/
  | dukptMacVerify (r : CmdRef)
  /-- EMV_AC_VERIFY, R126: Verifies an EMV application cryptogram and optionally returns an ARPC. -/
  | emvAcVerify (r : CmdRef)
  /-- CCV_GENERATE, R128: Computes a card check value. -/
  | ccvGenerate (r : CmdRef)
  /-- CCV_VERIFY, R128: Compares a card check value with the value in PARAM. -/
  | ccvVerify (r : CmdRef)
  /-- MAC_GENERATE, R129: Computes a MAC over SRC. -/
  | macGenerate (r : CmdRef)
  /-- MAC_VERIFY, R129: Verifies a MAC over SRC in constant time. -/
  | macVerify (r : CmdRef)
  /-- KEY_IMPORT, R131: Unwraps an ISO 20038 key block and stores the key. -/
  | keyImport (r : CmdRef)
  /-- KEY_EXPORT, R133: Wraps a key into a version D key block. -/
  | keyExport (r : CmdRef)
  /-- KEY_GENERATE, R134: Generates and stores a new key from the DRBG. -/
  | keyGenerate (r : CmdRef)
  /-- KEY_IMPORT_PUBLIC, R135: Stores a public EC point after curve checks. -/
  | keyImportPublic (r : CmdRef)
  /-- KEY_DELETE, R136: Zeroises a key and empties its slots. -/
  | keyDelete (r : CmdRef)
  /-- KEY_INFO, R136: Returns a key's policy, generation and check value. -/
  | keyInfo (r : CmdRef)
  /-- ECDSA_SIGN, R138: Signs a message or digest with a private EC key. -/
  | ecdsaSign (r : CmdRef)
  /-- ECDSA_VERIFY, R138: Verifies an ECDSA signature. -/
  | ecdsaVerify (r : CmdRef)
  /-- METER_SEAL, R141: Seals a meter record with a counter value, trusted time and signature. -/
  | meterSeal (r : CmdRef)
  /-- METER_VERIFY, R142: Verifies a sealed meter record. -/
  | meterVerify (r : CmdRef)
  /-- TARIFF_LOAD, R144: Verifies a tariff and stores it in a tariff slot. -/
  | tariffLoad (r : CmdRef)
  /-- TARIFF_PRICE, R146: Prices interval records against a stored tariff. -/
  | tariffPrice (r : CmdRef)
  /-- HASH, R147: Computes a SHA-2 digest over SRC. -/
  | hash (r : CmdRef)
  /-- RANDOM, R148: Returns bytes from the truss DRBG. -/
  | random (r : CmdRef)
  /-- COUNTER_NEXT, R149: Advances a counter and returns the new value. -/
  | counterNext (r : CmdRef)
  /-- COUNTER_READ, R149: Returns the last value issued by a counter. -/
  | counterRead (r : CmdRef)
  /-- SERVICE_LOAD, R153: Verifies a service package, writes it to flash and installs it. -/
  | serviceLoad (r : CmdRef)
  /-- SERVICE_UNLOAD, R153: Erases the service package and removes its opcodes. -/
  | serviceUnload (r : CmdRef)
  /-- SERVICE_INSTALL, R156: Once no tenant command is in flight, the service image is replaced or removed and held
  commands are dispatched. -/
  | serviceInstall (gable : Nat)
  /-- TENANT_COMMAND, R154: A tenant-opcode entry runs the service program at User level on a worker. -/
  | tenantCommand (r : CmdRef) (core : CoreId) (res : TenantOutcome)
  /-- TENANT_BUDGET_EXCEEDED, R154: A tenant program exceeds its BUDGET, and the command ends with ABORTED. -/
  | tenantBudgetExceeded (r : CmdRef)
  /-- GABLE_SUSPEND, R114: The physical-function command sets a gable's HOST suspension reason. -/
  | gableSuspend (r : CmdRef)
  /-- GABLE_SUSPEND_DRAINED, R117: GABLE_SUSPEND completes once the class K commands granted before it have completed. -/
  | gableSuspendDrained (r : CmdRef)
  /-- GABLE_RESUME, R114: The physical-function command clears a gable's HOST reason. -/
  | gableResume (r : CmdRef)
  /-- GABLE_INFO, R116: The physical-function command returns a gable's state. -/
  | gableInfo (r : CmdRef)
  /-- PF_NOP, R114: NOP on a physical-function ring completes with OK. -/
  | pfNop (r : CmdRef)
  /-- STAGE, R53: Fetches an Aqley element into the staging buffer and runs acceptance checks 1 to 16. -/
  | stage (who : Who)
  /-- STAGE_FETCH_DONE, R53: The host fetch of a staged element ends, and its acceptance checks run. -/
  | stageFetchDone
  /-- COMMIT, R62: Writes an approved full element to both slots, or appends a partial element and re-forms its gable. -/
  | commit (who : Who)
  /-- COMMIT_SLOT_WRITTEN, R62: The flash write of an image slot during COMMIT ends, and the next phase of the commit
  proceeds. -/
  | commitSlotWritten
  /-- DISCARD, R55: Clears the staging buffer and approval and returns STATE to IDLE. -/
  | discard (who : Who)
  /-- MODSET, R164: The WMA instruction sets the modulus and width of a context. -/
  | modset (c : CoreId) (o : WmaOp)
  /-- MMUL, R164: Montgomery multiplication. -/
  | mmul (c : CoreId) (o : WmaOp)
  /-- MMAC, R164: Montgomery multiply-accumulate. -/
  | mmac (c : CoreId) (o : WmaOp)
  /-- MADD, R164: Modular addition. -/
  | madd (c : CoreId) (o : WmaOp)
  /-- MSUB, R164: Modular subtraction. -/
  | msub (c : CoreId) (o : WmaOp)
  /-- IADD, R164: Plain integer addition of L words. -/
  | iadd (c : CoreId) (o : WmaOp)
  /-- MCSWAP, R165: Conditional exchange of two operands by a scalar bit. -/
  | mcswap (c : CoreId) (o : WmaOp)
  /-- MSEL, R164: Selects one of 2^n table operands by a digit, reading all of them. -/
  | msel (c : CoreId) (o : WmaOp)
  /-- MMOV, R164: Copies an operand with its tags. -/
  | mmov (c : CoreId) (o : WmaOp)
  /-- MCLR, R164: Clears an operand and its tags. -/
  | mclr (c : CoreId) (o : WmaOp)
  /-- MCMP, R164: Compares two operands and sets Z. -/
  | mcmp (c : CoreId) (o : WmaOp)
  /-- MLD, R173: Loads an operand from truss SRAM through the gate. -/
  | mld (c : CoreId) (o : WmaOp)
  /-- MST, R173: Stores an operand to truss SRAM unless it holds a KEY word. -/
  | mst (c : CoreId) (o : WmaOp)
  /-- MRAND, R168: Draws a uniform value in [1, m - 1] from the truss DRBG. -/
  | mrand (c : CoreId) (o : WmaOp)
  /-- MKEY, R164: Waits until a key loader installs a key into the destination. -/
  | mkey (c : CoreId) (o : WmaOp)
  /-- MRELEASE, R171: Clears the KEY tags of an operand at Monitor level. -/
  | mrelease (c : CoreId) (o : WmaOp)
  /-- MSTAT, R170: Returns the context status word and optionally clears sticky bits. -/
  | mstat (c : CoreId) (o : WmaOp)
  /-- MABORT, R179: Aborts a WMA context at once. -/
  | mabort (c : CoreId) (o : WmaOp)
  /-- WMA_INSTRUCTION_END, R174: A WMA instruction's datapath occupancy ends, and its result, status and IRQ take
  effect. -/
  | wmaInstructionEnd (truss : Fin 32) (ctx : Fin 4) (mismatch : Bool)
  /-- GALLIARD_LOAD, R184: Fetches and verifies a microprogram package into a sequencer. -/
  | galliardLoad (who : Who) (n : Fin 4)
  /-- GALLIARD_LOAD_COMPLETE, R184: Microprogram verification ends, and the store is written or stays invalid. -/
  | galliardLoadComplete (n : Fin 4)
  /-- GAL_ECDSA_VERIFY_ROM, R185: RUN of loader-ROM service 0x0000, ECDSA brainpoolP384r1 verify. -/
  | galEcdsaVerifyRom (who : Who) (n : Fin 4)
  /-- GAL_RSA_PRIVATE, R185: RUN of service 0x0001, RSA private operation with CRT. -/
  | galRsaPrivate (who : Who) (n : Fin 4)
  /-- GAL_RSA_PUBLIC, R185: RUN of service 0x0002, RSA public operation. -/
  | galRsaPublic (who : Who) (n : Fin 4)
  /-- GAL_ECDSA_VERIFY, R185: RUN of microprogram service 0x0003, ECDSA verify. -/
  | galEcdsaVerify (who : Who) (n : Fin 4)
  /-- GAL_ECDSA_SIGN, R185: RUN of microprogram service 0x0004, ECDSA sign. -/
  | galEcdsaSign (who : Who) (n : Fin 4)
  /-- GAL_ECDSA_SIGN_ROM, R185: RUN of loader-ROM service 0xFF00, ECDSA sign without a microprogram. -/
  | galEcdsaSignRom (who : Who) (n : Fin 4)
  /-- GALLIARD_RUN_DONE, R182: A sequencer service ends, writes STATUS and sets GALn_DONE. -/
  | galliardRunDone (n : Fin 4)
  /-- GALLIARD_ABORT, R186: Stops a running service and clears operand memory. -/
  | galliardAbort (who : Who) (n : Fin 4)
  /-- CHAIN_OPEN, R195: The port request binds one or two chains on a permitted pipeline, waiting until they are free. -/
  | chainOpen (c : CoreId)
  /-- CHAIN_CLOSE, R191: Clears and unbinds the core's chains. -/
  | chainClose (c : CoreId)
  /-- KEY_LOAD, R198: A key loader resolves, authenticates, checks and installs a key. -/
  | keyLoad (c : CoreId)
  /-- DERIVE, R198: Computes a derived key under one chain and installs it in the other. -/
  | derive (c : CoreId)
  /-- BLOCK, R199: Single-block encipherment or decipherment. -/
  | block (c : CoreId)
  /-- MAC, R200: Hardware keyed check value over a source. -/
  | mac (c : CoreId)
  /-- SHA_INIT, R203: Starts a hash or HMAC in the core's compressor context. -/
  | shaInit (c : CoreId)
  /-- SHA_BLOCKS, R203: Compresses whole blocks. -/
  | shaBlocks (c : CoreId)
  /-- SHA_FINAL, R203: Pads, completes the hash and returns the digest. -/
  | shaFinal (c : CoreId)
  /-- DRBG, R205: Returns up to 64 bytes from the truss DRBG, reseeding when due. -/
  | drbg (c : CoreId)
  /-- CTR_NEXT, R207: Advances a counter within its reservation. -/
  | ctrNext (c : CoreId)
  /-- CTR_NEXT_TIME, R209: Draws a counter value and the trusted time in one step. -/
  | ctrNextTime (c : CoreId)
  /-- CTR_READ, R207: Returns a counter's issued value. -/
  | ctrRead (c : CoreId)
  /-- PORT_REQUEST_COMPLETE, R190: A symmetric-port request ends, writing DATA and PSTAT and clearing BUSY. -/
  | portRequestComplete (c : CoreId) (src : HostData) (mismatch : Bool)
  /-- RESERVE_RECORD_VERIFIED, R208: A RESERVE record's program-verify ends, raising B, and waiting requests proceed. -/
  | reserveRecordVerified (index : Nat)
  /-- TIME_RECORD_VERIFIED, R210: A TIME record's program-verify ends, and the time ceiling C is raised. -/
  | timeRecordVerified
  /-- PAGE_REWRITE, R213: After P log records, the next counter-journal page is rewritten to the free pool sector. -/
  | pageRewrite
  /-- JOURNAL_STALL_TIMEOUT, R215: A request that waits for a reservation while the log is stalled ends after 1 ms
  with SUSPENDED. -/
  | journalStallTimeout (index : Nat)
  /-- DRBG_RESEED_RETRY, R206: Every 2^16 core clocks the truss Monitor attempts to reseed a DRBG in its error state. -/
  | drbgReseedRetry (truss : Fin 32)
  /-- ENTROPY_BLOCK, R466: A conditioned 384-bit entropy block enters the pool. -/
  | entropyBlock (source : Fin 4) (healthy : Bool)
  /-- MSU_READ, R222: Reads a sealed line with counter-tree and MAC verification, then deciphers it. -/
  | msuRead (off : Nat) (len : Nat) (first second : Bool)
  /-- MSU_WRITE, R222: Writes a sealed line, incrementing its minor counter. -/
  | msuWrite (off : Nat) (data : List Byte) (first second : Bool)
  /-- INIT, R242: Draws the KSRK and writes root record generation 1. -/
  | ksInit (who : Who)
  /-- BACKUP, R242: Writes a fuzzy backup of the slot table to host memory. -/
  | backup (who : Who)
  /-- RESTORE, R243: Checks and loads a backup and replays the slot log. -/
  | restore (who : Who)
  /-- CONFIRM, R242: Writes a new root record naming the pending backup, which frees slot-log sectors. -/
  | confirm (who : Who)
  /-- KS_DONE, R242: A key-store command ends, writing STATUS and setting KS_DONE. -/
  | ksDone
  /-- SLOT_LOG_RECORD_VERIFIED, R239: A buffered slot-log record's program-verify ends, and its buffer place is freed. -/
  | slotLogRecordVerified
  /-- RESIDENT_LOG_RECLAIM, R238: The warden copies live resident records forward and erases the oldest sector. -/
  | residentLogReclaim
  /-- ADD, R264: RD := RA + RB. -/
  | add (c : CoreId) (f : FmtR)
  /-- SUB, R264: RD := RA - RB. -/
  | sub (c : CoreId) (f : FmtR)
  /-- ADDS, R264: Addition that sets NZCV. -/
  | adds (c : CoreId) (f : FmtR)
  /-- SUBS, R264: Subtraction that sets NZCV. -/
  | subs (c : CoreId) (f : FmtR)
  /-- CMP, R264: Sets flags from RA - RB. -/
  | cmp (c : CoreId) (f : FmtR)
  /-- AND, R264: Bitwise AND. -/
  | and (c : CoreId) (f : FmtR)
  /-- OR, R264: Bitwise OR. -/
  | or (c : CoreId) (f : FmtR)
  /-- XOR, R264: Bitwise XOR. -/
  | xor (c : CoreId) (f : FmtR)
  /-- ANDN, R264: RA and not RB. -/
  | andn (c : CoreId) (f : FmtR)
  /-- TST, R264: Sets N and Z from RA and RB. -/
  | tst (c : CoreId) (f : FmtR)
  /-- SHL, R264: Shift left by register. -/
  | shl (c : CoreId) (f : FmtR)
  /-- SHR, R264: Logical shift right by register. -/
  | shr (c : CoreId) (f : FmtR)
  /-- SAR, R264: Arithmetic shift right by register. -/
  | sar (c : CoreId) (f : FmtR)
  /-- SHLI, R264: Shift left by S. -/
  | shli (c : CoreId) (f : FmtR)
  /-- SHRI, R264: Logical shift right by S. -/
  | shri (c : CoreId) (f : FmtR)
  /-- SARI, R264: Arithmetic shift right by S. -/
  | sari (c : CoreId) (f : FmtR)
  /-- ROLI, R264: Rotate left by S. -/
  | roli (c : CoreId) (f : FmtR)
  /-- MIN, R264: Signed minimum. -/
  | min (c : CoreId) (f : FmtR)
  /-- MAX, R264: Signed maximum. -/
  | max (c : CoreId) (f : FmtR)
  /-- MINU, R264: Unsigned minimum. -/
  | minu (c : CoreId) (f : FmtR)
  /-- MAXU, R264: Unsigned maximum. -/
  | maxu (c : CoreId) (f : FmtR)
  /-- MUL, R264: Low 32 bits of the product. -/
  | mul (c : CoreId) (f : FmtR)
  /-- MULH, R264: High 32 bits of the signed product. -/
  | mulh (c : CoreId) (f : FmtR)
  /-- MULHU, R264: High 32 bits of the unsigned product. -/
  | mulhu (c : CoreId) (f : FmtR)
  /-- MULL, R264: 64-bit signed product into a pair. -/
  | mull (c : CoreId) (f : FmtR)
  /-- MULLU, R264: 64-bit unsigned product into a pair. -/
  | mullu (c : CoreId) (f : FmtR)
  /-- DIVR, R269: Signed rounded division of a pair. -/
  | divr (c : CoreId) (f : FmtR)
  /-- DIVRU, R269: Unsigned rounded division of a pair. -/
  | divru (c : CoreId) (f : FmtR)
  /-- CLZ, R264: Counts leading zeros. -/
  | clz (c : CoreId) (f : FmtR)
  /-- POPC, R264: Counts set bits. -/
  | popc (c : CoreId) (f : FmtR)
  /-- MOV, R264: RD := RA. -/
  | mov (c : CoreId) (f : FmtR)
  /-- ADC, R264: Add with carry. -/
  | adc (c : CoreId) (f : FmtR)
  /-- SBC, R264: Subtract with borrow. -/
  | sbc (c : CoreId) (f : FmtR)
  /-- ADDI, R264: Add a sign-extended immediate. -/
  | addi (c : CoreId) (f : FmtI)
  /-- ANDI, R264: AND with a zero-extended immediate. -/
  | andi (c : CoreId) (f : FmtI)
  /-- ORI, R264: OR with a zero-extended immediate. -/
  | ori (c : CoreId) (f : FmtI)
  /-- XORI, R264: XOR with a zero-extended immediate. -/
  | xori (c : CoreId) (f : FmtI)
  /-- CMPI, R264: Compare with a sign-extended immediate. -/
  | cmpi (c : CoreId) (f : FmtI)
  /-- MOVI, R264: RD := IMM32 from the extension word. -/
  | movi (c : CoreId) (f : FmtE)
  /-- LD, R263: Zero-extending load in the selected addressing mode. -/
  | ld (c : CoreId) (f : FmtM)
  /-- LDS, R263: Sign-extending load of a byte or half. -/
  | lds (c : CoreId) (f : FmtM)
  /-- ST, R263: Store in the selected addressing mode. -/
  | st (c : CoreId) (f : FmtM)
  /-- B_COND, R265: Conditional branch. -/
  | bCond (c : CoreId) (f : FmtB)
  /-- BL, R265: Branch and link. -/
  | bl (c : CoreId) (f : FmtB)
  /-- JR, R265: Jump to a register, optionally with link. -/
  | jr (c : CoreId) (f : FmtJ)
  /-- MFS, R254: Reads a special register. -/
  | mfs (c : CoreId) (f : FmtR)
  /-- MTS, R254: Writes a special register. -/
  | mts (c : CoreId) (f : FmtR)
  /-- FENCE, R260: Waits until earlier stores are visible and earlier loads have returned. -/
  | fence (c : CoreId) (f : FmtR)
  /-- IFENCE, R283: Invalidates the core's instruction cache. -/
  | ifence (c : CoreId) (f : FmtR)
  /-- RETX, R294: Returns from an exception or gate after checking the shadow-stack witness. -/
  | retx (c : CoreId) (f : FmtR)
  /-- WAIT, R304: Stalls until an interrupt input is pending. -/
  | wait (c : CoreId) (f : FmtR)
  /-- NOP_INSTRUCTION, R265: The system NOP instruction does nothing. -/
  | nopInstruction (c : CoreId) (f : FmtR)
  /-- GATE, R300: Calls through a call gate after its checks. -/
  | gate (c : CoreId) (f : FmtG)
  /-- MULF, R268: Fixed-point multiply into an accumulator. -/
  | mulf (c : CoreId) (f : FmtA)
  /-- MACF, R268: Fixed-point multiply-accumulate. -/
  | macf (c : CoreId) (f : FmtA)
  /-- MSUF, R268: Fixed-point multiply-subtract. -/
  | msuf (c : CoreId) (f : FmtA)
  /-- LDA, R268: Loads an accumulator from a scaled register. -/
  | lda (c : CoreId) (f : FmtA)
  /-- STA, R268: Rounds and saturates an accumulator into a register. -/
  | sta (c : CoreId) (f : FmtA)
  /-- AADD, R268: Accumulator addition. -/
  | aadd (c : CoreId) (f : FmtA)
  /-- ASUB, R268: Accumulator subtraction. -/
  | asub (c : CoreId) (f : FmtA)
  /-- MFA, R268: Moves accumulator bits to a register. -/
  | mfa (c : CoreId) (f : FmtA)
  /-- MTA, R268: Moves registers into an accumulator. -/
  | mta (c : CoreId) (f : FmtA)
  /-- BSET, R274: Sets a bit variable. -/
  | bset (c : CoreId) (f : FmtX1)
  /-- BCLR, R274: Clears a bit variable. -/
  | bclr (c : CoreId) (f : FmtX1)
  /-- BNOT, R274: Inverts a bit variable. -/
  | bnot (c : CoreId) (f : FmtX1)
  /-- BTST, R274: Tests a bit into Z. -/
  | btst (c : CoreId) (f : FmtX1)
  /-- BTAS, R274: Tests and sets a bit indivisibly. -/
  | btas (c : CoreId) (f : FmtX1)
  /-- BTAC, R274: Tests and clears a bit indivisibly. -/
  | btac (c : CoreId) (f : FmtX1)
  /-- BLD, R274: Loads a bit into a register bit. -/
  | bld (c : CoreId) (f : FmtX2)
  /-- BST, R274: Stores a register bit into a bit variable. -/
  | bst (c : CoreId) (f : FmtX2)
  /-- BFLD, R274: Loads a bit field. -/
  | bfld (c : CoreId) (f : FmtX2)
  /-- BFST, R274: Stores a bit field. -/
  | bfst (c : CoreId) (f : FmtX2)
  /-- BMOV, R274: Copies a bit. -/
  | bmov (c : CoreId) (f : FmtX3)
  /-- BAND, R274: ANDs two bits. -/
  | band (c : CoreId) (f : FmtX3)
  /-- BOR, R274: ORs two bits. -/
  | bor (c : CoreId) (f : FmtX3)
  /-- BXOR, R274: XORs two bits. -/
  | bxor (c : CoreId) (f : FmtX3)
  /-- BANDN, R274: ANDs a bit with the inverse of another. -/
  | bandn (c : CoreId) (f : FmtX3)
  /-- BB, R274: Branches on a bit value. -/
  | bb (c : CoreId) (f : FmtX4)
  /-- TLI, R275: Table look-up with interpolation at one point. -/
  | tli (c : CoreId) (f : FmtT)
  /-- TVI, R276: Resumable vector interpolation over IDX to CNT. -/
  | tvi (c : CoreId) (f : FmtT)
  /-- BCOPY, R276: Resumable word copy. -/
  | bcopy (c : CoreId) (f : FmtR)
  /-- BSCAN, R276: Resumable scan for a matching bit. -/
  | bscan (c : CoreId) (f : FmtR)
  /-- COPI, R278: Hands a command word to the WMA unit or the Reed fabric, stalling when it cannot be accepted. -/
  | copi (c : CoreId) (f : FmtC)
  /-- COPI_STALL_END, R279: The unit accepts a stalled COPI and writes RD in the same step. -/
  | copiStallEnd (c : CoreId)
  /-- IMPRECISE_EXCEPTION, R302: An arithmetic exception detected with PRECISE clear is taken at the first boundary
  after its latency. -/
  | impreciseException (c : CoreId)
  /-- QUARANTINE, R295: The forging core's handler WAIT or its 65,536-clock limit ends, and the truss is quarantined. -/
  | quarantine (c : CoreId)
  /-- TICK, R303: Bits 15:0 of the core clock count become zero, and the TICK input latches. -/
  | tick (c : CoreId)
  /-- INTERRUPT_TAKEN, R292: A pending interrupt with GIE set is taken at an instruction boundary. -/
  | interruptTaken (c : CoreId)
  /-- REED_OPEN, R311: Starts a packet of a type to a queue or sink. -/
  | reedOpen (c : CoreId) (o : ReedOp)
  /-- PUTW, R311: Appends a word to the open packet. -/
  | putw (c : CoreId) (o : ReedOp)
  /-- PUTB, R311: Appends n bytes from memory to the open packet. -/
  | putb (c : CoreId) (o : ReedOp)
  /-- REED_COMMIT, R312: Ends the packet and makes it visible, or reports its first error. -/
  | reedCommit (c : CoreId) (o : ReedOp)
  /-- REED_ABORT, R311: Discards the open packet. -/
  | reedAbort (c : CoreId) (o : ReedOp)
  /-- TAKE, R313: Removes the head packet of a queue into the consumer context, or stalls. -/
  | take (c : CoreId) (o : ReedOp)
  /-- TAKE_RESUME, R315: A packet committed to a queue ends a core's stalled TAKE. -/
  | takeResume (c : CoreId)
  /-- GETW, R314: Reads the next word of the taken packet. -/
  | getw (c : CoreId) (o : ReedOp)
  /-- GETB, R314: Copies n bytes of the taken packet to memory. -/
  | getb (c : CoreId) (o : ReedOp)
  /-- RELEASE, R314: Frees the taken packet. -/
  | release (c : CoreId) (o : ReedOp)
  /-- INFO, R313: Returns the source word of the taken packet. -/
  | info (c : CoreId) (o : ReedOp)
  /-- COUNT, R310: Returns a queue's packet and cell counts. -/
  | count (c : CoreId) (o : ReedOp)
  /-- FAULT_POP, R344: A write to GTE_FAULT_POP removes the head fault record. -/
  | faultPop (who : Who) (value : Word)
  /-- DEBUG_ACCESS, R338: In DEV, a JTAG load or store with the selected core's tag is gated. -/
  | debugAccess (c : CoreId) (write : Bool) (addr : Word) (len : Nat) (value : Dword)
  /-- FLASH_READ, R353: The READ command reads one line into FLC_DATA with its read status word. -/
  | flashRead (who : Who) (array : LineRead)
  /-- PROG, R354: The PROG command programs up to eight erased words of one line. -/
  | prog (who : Who) (count : BitVec 4)
  /-- PROG_COMPLETE, R354: A PROG's words verify, or fail after 8 pulses and the sector is retired. -/
  | progComplete (out : FlashOutcome)
  /-- ERASE, R355: The ERASE command erases a logical sector in 1 ms pulses. -/
  | erase (who : Who)
  /-- ERASE_COMPLETE, R355: An erase verifies, or fails after 12 pulses and the sector is retired. -/
  | eraseComplete (out : FlashOutcome)
  /-- FLASH_SUSPEND, R356: The SUSPEND command stops the running erase at a resumable point. -/
  | flashSuspend (who : Who)
  /-- FLASH_RESUME, R356: The RESUME command continues a suspended erase. -/
  | flashResume (who : Who)
  /-- RETIRE, R361: The RETIRE command moves a sector to a spare and remaps it. -/
  | retire (who : Who) (out : FlashOutcome)
  /-- AUTO_RESUME, R357: After 50 us without array demand, an automatically suspended erase resumes. -/
  | autoResume
  /-- JOURNAL_PORT_PROG, R350: The counter vault's journal port issues a PROG into the counter journal ahead of warden
  commands. -/
  | journalPortProg
  /-- CACHE_FILL, R365: An instruction-cache fill is served from the prefetch buffer, the branch cache or the array. -/
  | cacheFill (addr : Nat) (array : LineRead)
  /-- PREFETCH_READ, R365: When the array is idle, the prefetch buffer reads the next missing line. -/
  | prefetchRead (array : LineRead)
  /-- SOURCE_DETECTION, R369: A tamper source's filter is satisfied, or an event detection occurs, and the source
  raises an event. -/
  | sourceDetection (src : Fin 22) (detail : List Byte)
  /-- SOURCE_INACTIVE, R369: A condition source's filter sees the condition absent and the source becomes inactive. -/
  | sourceInactive (src : Fin 22)
  /-- ARBITRATION_STEP, R380: At the end of an arbitration step the events form one group, which is recorded and
  notified and whose level's actions run. -/
  | arbitrationStep (env : BootEnv)
  /-- HOLD_RELEASE, R379: 32,768 AON ticks after its last source, a held THROTTLE or SUSPEND is released. -/
  | holdRelease
  /-- ACK, R379: The value 1 taking effect in EAV_ACK acknowledges PURGE, or is refused while a source at PURGE is
  active. -/
  | ack (who : Who)
  /-- RING_ACK, R387: A warden write to EAV_RING_ACK archives the n oldest event-ring entries. -/
  | ringAck (who : Who) (n : BitVec 7)
  /-- SHADOW_SCRUB, R371: The main-die or Eave-die scrubber compares the halves of every working pair. -/
  | shadowScrub (offs : List Nat) (latches : List LatchWord)
  /-- VBAT_SWAP, R385: A VBAT land falls below 1.0 V and later rises above 1.7 V. -/
  | vbatSwap (land : Fin 2) (mv : BitVec 12)
  /-- VAULT_ENTRY, R454: VAON falls below 1.6 V for 1 us and the Eave die runs from VBAT. -/
  | vaultEntry
  /-- VAULT_EXIT, R454: VAON stands at or above 1.7 V for 32 AON ticks and the module enters Standby. -/
  | vaultExit (eaveMarker : Bool)
  /-- MAIN_POWER_LOSS, R490: A main supply leaves its range, or is removed without READY_OFF, and the main die is held
  in reset. -/
  | mainPowerLoss
  /-- SLOT_PRESENT, R398: DETECT reads low on 32 consecutive AON ticks and the slot becomes present. -/
  | slotPresent (n : Fin 2)
  /-- SLOT_ABSENT, R398: DETECT reads high, so the slot is powered off and its session ends. -/
  | slotAbsent (n : Fin 2)
  /-- SLATE_RESPONSE, R401: A response frame arrives from the slate and is checked. -/
  | slateResponse (n : Fin 2) (frame : SlateFrame)
  /-- DATA_BLOCK_RECEIVED, R404: A read data block arrives with its CRC-16 values. -/
  | dataBlockReceived (n : Fin 2) (blk : SlateBlock)
  /-- CRC_TOKEN, R405: The slate's CRC token for a write block arrives. -/
  | crcToken (n : Fin 2) (token : BitVec 3)
  /-- BUSY_RELEASE, R405: The slate releases DAT0 after committing a write. -/
  | busyRelease (n : Fin 2)
  /-- SLATE_TIMEOUT, R406: A response, read-block, token or busy limit expires. -/
  | slateTimeout (n : Fin 2) (limit : SlateLimit)
  /-- REPLY_POLL, R406: Every 50 ms a REPLY is polled while the holder has not yet authorised it. -/
  | replyPoll (n : Fin 2)
  /-- ATR, R413: A 7816 card answers to reset, or is found mute. -/
  | atr (n : Fin 2) (res : AtrResult)
  /-- T1_BLOCK_RECEIVED, R413: A T=1 block arrives from the card. -/
  | t1BlockReceived (n : Fin 2) (blk : T1Block)
  /-- CEREMONY_OPEN, R418: OPEN copies the ceremony registers and checks them. -/
  | ceremonyOpen (who : Who)
  /-- CEREMONY_STEP, R419: STEP serves the slate in the named slot for an approval, share write or share read. -/
  | ceremonyStep (who : Who)
  /-- CEREMONY_ABORT, R426: ABORT ends any running STEP and the ceremony. -/
  | ceremonyAbort (who : Who)
  /-- CEREMONY_CLOSE, R427: CLOSE closes the ceremony or its outward window. -/
  | ceremonyClose (who : Who)
  /-- CEREMONY_EXPIRY, R426: 3,600 s after OPEN, counted in AON ticks, the ceremony expires. -/
  | ceremonyExpiry
  /-- EXPORT_WINDOW_EXPIRY, R427: The 600 s outward window of a KEY_EXPORT ceremony ends. -/
  | exportWindowExpiry
  /-- PORT_TRAIN, R432: The sideband shows presence for 1 ms and a Batten port trains and deskews. -/
  | portTrain (n : Fin 2) (lanes : BitVec 4)
  /-- HELLO, R432: The peer's HELLO arrives and the port becomes UP, CANDIDATE or REFUSED. -/
  | hello (n : Fin 2) (h : Hello)
  /-- FLIT_RECEIVED, R431: A flit arrives and is authenticated, or discarded with a replay request. -/
  | flitReceived (n : Fin 2) (f : Flit)
  /-- IDLE_FLIT, R431: After 1 us with nothing to send, a port sends an idle flit. -/
  | idleFlit (n : Fin 2)
  /-- PORT_TIMEOUT, R431: No intact flit for 100 us, or 16 tag failures in 1 ms, takes the port down and recomputes
  routes. -/
  | portTimeout (n : Fin 2)
  /-- REKEY, R431: After 2^32 flits in one direction, that direction's key is replaced. -/
  | rekey (n : Fin 2) (tx : Bool)
  /-- REPLICATION_CHANGE, R440: A key-store change from a member or the ridge is received, checked, sequenced and
  applied. -/
  | replicationChange (ch : KsChange)
  /-- RESYNC, R440: A member whose gap is too large receives the ridge's slot table and records. -/
  | resync (member : Nat) (table : List KsChange) (seq : Nat)
  /-- LEASE_GRANT, R442: The ridge grants a member a block of counter values. -/
  | leaseGrant (index : Nat) (member : Nat) (first : Dword) (count : Nat)
  /-- VOTE_REQUEST, R443: The successor's request for votes is answered. -/
  | voteRequest (voters : List Nat)
  /-- RIDGE_LOSS_TIMEOUT, R443: 100 ms without a route to the ridge starts an election or isolation. -/
  | ridgeLossTimeout
  /-- SUCCESSOR_LOSS_TIMEOUT, R443: 100 ms without a route to the successor makes the ridge name a new successor. -/
  | successorLossTimeout
  /-- HOLD_EXPIRY, R444: The HOLD seconds of an ISOLATED member end, and class K commands complete with LINK_LOST. -/
  | holdExpiry
  /-- TIME_SYNC, R445: Every 1 ms a rafter measures its offset from the ridge and steers its time. -/
  | timeSync (offset : Int) (ridgeSync : Bool)
  /-- LOAD_REPORT, R447: Every 100 us a member reports its per-core load to its peers. -/
  | loadReport (member : Nat) (loads : List (Nat × Nat))
  /-- FORWARD, R448: A FORWARD packet arriving at a member is delivered to the gable, or answered with a RETURN. -/
  | forward (src : Nat) (gable : Nat) (words : List Word)
  /-- RETURN, R448: A RETURN packet arrives at the origin, which writes the completion. -/
  | returnWork (src : Nat) (gable : Nat) (words : List Word)
  /-- CANCEL, R449: A CANCEL makes the peer abort a forwarded command it still holds. -/
  | cancel (src : Nat) (gable : Nat) (fwdId : Word)
  /-- FORWARD_TIMEOUT, R449: No RETURN arrives within 10 ms after a route loss, and the command ends with LINK_LOST. -/
  | forwardTimeout (r : CmdRef)
  /-- EVENT_FWD, R446: An Eave event forwarded from a member is presented at the ridge. -/
  | eventFwd (member : Nat) (event : List Byte)
  /-- IDLE, R453: Stops tenant granting and moves the trusses into Idle. -/
  | idle (who : Who)
  /-- ACTIVE, R453: Wakes the module from Idle. -/
  | active (who : Who)
  /-- STANDBY_PREP, R453: Stops granting, flushes state, and sets READY_OFF. -/
  | standbyPrep (who : Who)
  /-- POWER_DRAIN_COMPLETE, R453: The commands in flight under IDLE or STANDBY_PREP have completed, and the rest of
  the sequence proceeds. -/
  | powerDrainComplete
  /-- KICK, R456: KICK in SYS_BOOT_CTL restarts the watchdog. -/
  | kick (who : Who)
  /-- BOOT_CONFIRM, R460: CONFIRM in SYS_BOOT_CTL sets TRIES to 0. -/
  | bootConfirm (who : Who)
  /-- SET_PREF, R460: SET_PREF in SYS_BOOT_CTL writes the preferred firmware slot. -/
  | setPref (who : Who) (slot : BitVec 1)
  /-- RB_REQ, R461: The warden requests a raise of the rollback floor for the next power-up. -/
  | rbReq (who : Who) (svn : BitVec 7)
  /-- RECOVERY_LOAD, R461: In recovery, LOAD fetches, checks and programs a firmware image, then resets the device. -/
  | recoveryLoad (who : Who)
  /-- QUOTE, R465: Builds and signs an attestation quote into SYS_QUOTE_BUF. -/
  | quote (who : Who)
  /-- TIME_NONCE, R469: Draws a time nonce and records N0. -/
  | timeNonce (who : Who)
  /-- TIME_SET, R470: Checks a time token and steps or slews trusted time. -/
  | timeSet (who : Who)
  /-- TIME_BASE_WRITE, R468: Every second the Eave die rewrites the time base. -/
  | timeBaseWrite
  /-- TIME_HOLDOVER, R468: 3,600 s after the last SET, trusted time enters HOLDOVER. -/
  | timeHoldover
  /-- SNAPSHOT, R474: The warden writes a tagged lifetime snapshot at each snapshot moment. -/
  | snapshot (outs : List FlashOutcome)
  /-- LIFETIME_MINUTE, R473: Each minute the hottest sensor's bin and EQ85 are counted. -/
  | lifetimeMinute (temp : Int)
  /-- EVENT_ARCHIVE, R474: The warden copies event-ring entries to the archive and acknowledges them. -/
  | eventArchive
  /-- VID_SET, R485: A SET frame requests a new VCORE code from the regulator. -/
  | vidSet (ack : Bool)
  /-- VID_RETRY, R486: A missing ACK, or VID_ALERT low for 100 us, resends the frame or fails. -/
  | vidRetry (ack : Bool)
  /-- VCORE_RECOMPUTE, R486: The hottest sensor moves by 5 degrees C, and the warden recomputes the operating code. -/
  | vcoreRecompute (temp : Int)
  /-- SPI_READ, R477: A management SPI READ frame returns words at ascending addresses. -/
  | spiRead (addr : BitVec 24) (words : Nat)
  /-- SPI_WRITE, R477: A management SPI WRITE frame performs each word as its fourth byte arrives. -/
  | spiWrite (addr : BitVec 24) (words : List Word)
  /-- SPI_STATUS, R477: Returns the write status byte of the last WRITE frame. -/
  | spiStatus
  /-- JTAG_INSTRUCTION, R498: A JTAG instruction is loaded; pin control holds the main die in reset, and its
  replacement resets the device. -/
  | jtagInstruction (op : JtagInstr) (env : BootEnv)
  /-- REGISTER_READ, R11: A management-space read through BAR0 that has behaviour of its own: an unaligned read
  returning zero, a gate refusal with a fault record and Completer Abort, or a latching read such as EAV_AON_LO or
  SYS_TIME_LO. -/
  | registerRead (who : Who) (off : Nat) (width : Nat)
  /-- CONFIG_WRITE, R67: A PCIe configuration-space write that sets VF Enable, the completion-timeout range, ECRC
  enable, tag width or payload limits. -/
  | configWrite (f : ConfigField)
  /-- POWER_DOWN, R489: After READY_OFF the board removes VCORE and then the other main supplies in order, and the
  module enters Standby, or Vault if VAON also goes. -/
  | powerDown (vaonToo : Bool)
  /-- FUSE_TEST_ACCESS, R390: In FACTORY, Novquin final-test equipment blows SERIAL, TRUSS_EN and DEV, or moves LC to
  SHIPPED, through the fuse controller's test access. -/
  | fuseTestAccess (f : FuseTest)
  /-- STARTUP_TEST_RETRY, R467: With fewer than two entropy sources passing at power-up, the boot ROM retries the
  start-up tests once a minute. -/
  | startupTestRetry (env : BootEnv)
  /-- TIME_SLEW_END, R470: Trusted time that is advancing at half rate after a SET meets the authority's time and
  returns to full rate. -/
  | timeSlewEnd
  /-- SIDEBAND_ABSENCE, R432: BTNn_SB_RX stops showing presence, so the port is down and a REFUSED port becomes able
  to retrain. -/
  | sidebandAbsence (n : Fin 2)
  /-- JOIN_TRANSFER, R438: At the joiner, the KSRK, roster, quorum table and cascade table from the ridge arrive; the
  joiner writes the KSRK and opens an empty key store. -/
  | joinTransfer (ksrk : List Byte) (roster : List (List Byte)) (quorum : List (Nat × Nat × Nat)) (table : CascadeTable)
  /-- CASCADE_TABLE_UPDATE, R443: A member receives a new cascade table or EPOCH from the ridge, and updates roles,
  membership, settings and range conflicts; a removed member zeroises its KSRK and becomes solo. -/
  | cascadeTableUpdate (table : CascadeTable) (removed : Bool)
  /-- RIDGE_WAIT_TIMEOUT, R442: A counter request without a lease and with no route to the ridge, or a ridge-owned
  change waiting for an EPOCH commit, ends with LINK_LOST after 100 ms. -/
  | ridgeWaitTimeout
  /-- SLOT_OVERCURRENT, R494: A slate draws more than 150 mA for 10 us, so VCC_SLT is removed and the step ends as at
  removal. -/
  | slotOvercurrent (n : Fin 2)
deriving DecidableEq, Repr

end Sys2Proof
end

