-- ==== Sys2Proof/Machine/Bytes.lean ====
section
/-! DEFINITION. Bit fields, byte orders and small list helpers, said once. -/

namespace Sys2Proof.Machine

/-- `len` bits of `w` from bit `lo` upwards, as a number. -/
def fld {n : Nat} (w : BitVec n) (lo len : Nat) : Nat := (w.toNat >>> lo) % 2 ^ len

/-- Bit `i` of a number. -/
def bitOf (x i : Nat) : Bool := x.testBit i

/-- Number of set bits. -/
def popCount {n : Nat} (v : BitVec n) : Nat := ((List.range n).filter fun i => v.getLsbD i).length

/-- 1 for true, 0 for false. -/
def b2n (b : Bool) : Nat := if b then 1 else 0

/-- A 32-bit word from (lowest bit, value) fields that do not overlap. -/
def mkWord (fs : List (Nat × Nat)) : Word := BitVec.ofNat 32 (fs.foldl (fun a p => a ||| (p.2 <<< p.1)) 0)

/-- Little-endian bytes of a number (R8). -/
def leBytes : Nat → Nat → List Byte
  | 0, _ => []
  | n + 1, v => BitVec.ofNat 8 v :: leBytes n (v / 256)

/-- The number that little-endian bytes spell (R8). -/
def leNat : List Byte → Nat
  | [] => 0
  | b :: bs => b.toNat + 256 * leNat bs

/-- The number that big-endian bytes spell. -/
def beNat (bs : List Byte) : Nat := bs.foldl (fun a b => a * 256 + b.toNat) 0

/-- Big-endian bytes of a number. -/
def beBytes (n v : Nat) : List Byte := (leBytes n v).reverse

/-- `len` bytes from offset `off`; bytes past the end read as zero. -/
def slice (bs : List Byte) (off len : Nat) : List Byte :=
  let p := (bs.drop off).take len
  p ++ List.replicate (len - p.length) 0

/-- Little-endian number at an offset. -/
def leAt (bs : List Byte) (off len : Nat) : Nat := leNat (slice bs off len)

/-- Bytes cut or filled with zeros to exactly `n`. -/
def padTo (n : Nat) (bs : List Byte) : List Byte := slice bs 0 n

/-- Replace the bytes from `off` on. -/
def patch (bs : List Byte) (off : Nat) (new : List Byte) : List Byte :=
  bs.take off ++ new ++ bs.drop (off + new.length)

/-- Byte-wise exclusive or, to the length of the shorter. -/
def xorBytes (a b : List Byte) : List Byte := List.zipWith (· ^^^ ·) a b

/-- The words of a byte string, little-endian, the last one filled with zeros. -/
def wordsOf (bs : List Byte) : List Word :=
  (List.range ((bs.length + 3) / 4)).map fun i => BitVec.ofNat 32 (leAt bs (4 * i) 4)

/-- The bytes of words, little-endian. -/
def bytesOf (ws : List Word) : List Byte := ws.flatMap fun w => leBytes 4 w.toNat

/-- All bytes zero. -/
def allZero (bs : List Byte) : Bool := bs.all fun b => decide (b = 0)

/-- All of the list's numbers distinct. -/
def distinct : List Nat → Bool
  | [] => true
  | x :: xs => !xs.contains x && distinct xs

/-- Cut a list into pieces of `n` elements (the last may be shorter), at most `fuel` of them. -/
def chunksF {α : Type} (n : Nat) : Nat → List α → List (List α)
  | 0, _ => []
  | _ + 1, [] => []
  | f + 1, x :: xs => (x :: xs).take n :: chunksF n f ((x :: xs).drop n)

/-- Cut a list into pieces of `n` elements. -/
def chunks {α : Type} (n : Nat) (xs : List α) : List (List α) := chunksF n xs.length xs

/-- Add one, stopping at `top`. -/
def satInc (top x : Nat) : Nat := if x < top then x + 1 else top

/-- Signed value of the low `n` bits. -/
def signedOf (n x : Nat) : Int :=
  let y := x % 2 ^ n
  if y < 2 ^ (n - 1) then (y : Int) else (y : Int) - (2 ^ n : Nat)

/-- Round up to a multiple of `m`. -/
def roundUp (m x : Nat) : Nat := (x + m - 1) / m * m

/-- Is the half-open range [a, a + n) inside [b, b + m)? -/
def inside (a n b m : Nat) : Bool := decide (b ≤ a) && decide (a + n ≤ b + m)

/-- Do two half-open ranges, given by base and count, share a number? -/
def overlaps (a n b m : Nat) : Bool := decide (0 < n) && decide (0 < m) && decide (a < b + m) && decide (b < a + n)

end Sys2Proof.Machine
end

