-- ==== Sys2Proof/Machine/Aes.lean ====
section
/-! DEFINITION. AES (FIPS 197), the block modes and check values over it and over any block cipher: CBC, CMAC
(SP 800-38B), GCM (SP 800-38D). Published standards that the spec names by reference. -/

namespace Sys2Proof.Machine

/-! ### The field GF(2^8) -/

/-- Multiply by x in the field of AES. -/
def xtime (a : Byte) : Byte := if a.msb then (a <<< 1) ^^^ 0x1B else a <<< 1

/-- Product in the field of AES. -/
def gfMul (a b : Byte) : Byte :=
  ((List.range 8).foldl (fun (p : Byte × Byte) i => (if b.getLsbD i then p.1 ^^^ p.2 else p.1, xtime p.2)) (0, a)).1

/-- Inverse in the field of AES, 0 for 0: a^254. -/
def gfInv (a : Byte) : Byte :=
  let a2 := gfMul a a
  let a4 := gfMul a2 a2
  let a8 := gfMul a4 a4
  let a16 := gfMul a8 a8
  let a32 := gfMul a16 a16
  let a64 := gfMul a32 a32
  let a128 := gfMul a64 a64
  gfMul a128 (gfMul a64 (gfMul a32 (gfMul a16 (gfMul a8 (gfMul a4 a2)))))

/-- Rows of the S-box of FIPS 197: row r as the sixteen bytes of entries 16 r to 16 r + 15, the first uppermost. -/
def aesSboxRows : List Nat :=
  [0x637C777BF26B6FC53001672BFED7AB76, 0xCA82C97DFA5947F0ADD4A2AF9CA472C0] ++
  [0xB7FD9326363FF7CC34A5E5F171D83115, 0x04C723C31896059A071280E2EB27B275] ++
  [0x09832C1A1B6E5AA0523BD6B329E32F84, 0x53D100ED20FCB15B6ACBBE394A4C58CF] ++
  [0xD0EFAAFB434D338545F9027F503C9FA8, 0x51A3408F929D38F5BCB6DA2110FFF3D2] ++
  [0xCD0C13EC5F974417C4A77E3D645D1973, 0x60814FDC222A908846EEB814DE5E0BDB] ++
  [0xE0323A0A4906245CC2D3AC629195E479, 0xE7C8376D8DD54EA96C56F4EA657AAE08] ++
  [0xBA78252E1CA6B4C6E8DD741F4BBD8B8A, 0x703EB5664803F60E613557B986C11D9E] ++
  [0xE1F8981169D98E949B1E87E9CE5528DF, 0x8CA1890DBFE6426841992D0FB054BB16]

/-- Rows of the inverse S-box. -/
def aesInvSboxRows : List Nat :=
  [0x52096AD53036A538BF40A39E81F3D7FB, 0x7CE339829B2FFF87348E4344C4DEE9CB] ++
  [0x547B9432A6C2233DEE4C950B42FAC34E, 0x082EA16628D924B2765BA2496D8BD125] ++
  [0x72F8F66486689816D4A45CCC5D65B692, 0x6C704850FDEDB9DA5E154657A78D9D84] ++
  [0x90D8AB008CBCD30AF7E45805B8B34506, 0xD02C1E8FCA3F0F02C1AFBD0301138A6B] ++
  [0x3A9111414F67DCEA97F2CFCEF0B4E673, 0x96AC7422E7AD3585E2F937E81C75DF6E] ++
  [0x47F11A711D29C5896FB7620EAA18BE1B, 0xFC563E4BC6D279209ADBC0FE78CD5AF4] ++
  [0x1FDDA8338807C731B11210592780EC5F, 0x60517FA919B54A0D2DE57A9F93C99CEF] ++
  [0xA0E03B4DAE2AF5B0C8EBBB3C83539961, 0x172B047EBA77D626E169146355210C7D]

/-- The entry of `a` in a table of sixteen rows. -/
def sboxEntry (rows : List Nat) (a : Byte) : Byte := BitVec.ofNat 8 ((rows.getD (a.toNat / 16) 0) >>> (8 * (15 - a.toNat % 16)))

/-- The S-box. -/
def aesSbox (a : Byte) : Byte := sboxEntry aesSboxRows a

/-- The inverse S-box. -/
def aesInvSbox (a : Byte) : Byte := sboxEntry aesInvSboxRows a

/-- Product of `a` and a coefficient below 16. -/
def gfTimes (k : Nat) (a : Byte) : Byte :=
  let a2 := xtime a
  let a4 := xtime a2
  (if k.testBit 0 then a else 0) ^^^ (if k.testBit 1 then a2 else 0) ^^^ (if k.testBit 2 then a4 else 0)
    ^^^ (if k.testBit 3 then xtime a4 else 0)

/-! ### Key expansion -/

/-- One word of the key schedule from the words so far. -/
def aesNextWord (nk : Nat) (ws : List (List Byte)) (i : Nat) : List Byte :=
  let prev := ws.getD (i - 1) []
  let back := ws.getD (i - nk) []
  let rot := prev.drop 1 ++ prev.take 1
  let rcon := (List.range (i / nk - 1)).foldl (fun c _ => xtime c) (1 : Byte)
  if i % nk = 0 then xorBytes back (xorBytes (rot.map aesSbox) [rcon, 0, 0, 0])
  else if 6 < nk ∧ i % nk = 4 then xorBytes back (prev.map aesSbox)
  else xorBytes back prev

/-- Round keys of 16 bytes for a key of 16, 24 or 32 bytes. -/
def aesKeys (key : List Byte) : List (List Byte) :=
  let nk := key.length / 4
  let ws := (List.range (4 * (nk + 7) - nk)).foldl (fun ws k => ws ++ [aesNextWord nk ws (nk + k)]) (chunks 4 key)
  (chunks 4 ws).map fun q => q.flatten

/-! ### Rounds -/

/-- ShiftRows by `k` times the row, on a column-major block. -/
def shiftRows (k : Nat) (b : List Byte) : List Byte :=
  (List.range 16).map fun i => b.getD ((i + 4 * (k * (i % 4))) % 16) 0

/-- MixColumns with the coefficients of one row. -/
def mixColumns (m : List Nat) (b : List Byte) : List Byte :=
  (List.range 16).map fun i =>
    (List.range 4).foldl (fun x j => x ^^^ gfTimes (m.getD ((j + 4 - i % 4) % 4) 0) (b.getD (i / 4 * 4 + j) 0)) 0

/-- Encipher one block under round keys. -/
def aesEncWith (rks : List (List Byte)) (b : List Byte) : List Byte :=
  let n := rks.length - 1
  let s := (List.range (n - 1)).foldl (fun s r =>
    xorBytes (mixColumns [2, 3, 1, 1] (shiftRows 1 (s.map aesSbox))) (rks.getD (r + 1) [])) (xorBytes b (rks.getD 0 []))
  xorBytes (shiftRows 1 (s.map aesSbox)) (rks.getD n [])

/-- Decipher one block under round keys. -/
def aesDecWith (rks : List (List Byte)) (b : List Byte) : List Byte :=
  let n := rks.length - 1
  let s := (List.range (n - 1)).foldl (fun s r =>
    mixColumns [14, 11, 13, 9] (xorBytes ((shiftRows 3 s).map aesInvSbox) (rks.getD (n - 1 - r) [])))
    (xorBytes b (rks.getD n []))
  xorBytes ((shiftRows 3 s).map aesInvSbox) (rks.getD 0 [])

/-- Encipher one 16-byte block. -/
def aesEnc (key b : List Byte) : List Byte := aesEncWith (aesKeys key) b

/-- Decipher one 16-byte block. -/
def aesDec (key b : List Byte) : List Byte := aesDecWith (aesKeys key) b

/-! ### Modes over any block function -/

/-- ECB over whole blocks of `n` bytes. -/
def ecb (n : Nat) (f : List Byte → List Byte) (d : List Byte) : List Byte := (chunks n d).flatMap f

/-- CBC encipherment. -/
def cbcEnc (n : Nat) (f : List Byte → List Byte) (iv d : List Byte) : List Byte :=
  ((chunks n d).foldl (fun (p : List Byte × List Byte) b => let c := f (xorBytes p.1 b); (c, p.2 ++ c)) (iv, [])).2

/-- CBC decipherment. -/
def cbcDec (n : Nat) (f : List Byte → List Byte) (iv d : List Byte) : List Byte :=
  ((chunks n d).foldl (fun (p : List Byte × List Byte) c => (c, p.2 ++ xorBytes p.1 (f c))) (iv, [])).2

/-- The last block of a CBC chain from zero. -/
def cbcLast (n : Nat) (f : List Byte → List Byte) (d : List Byte) : List Byte :=
  (chunks n d).foldl (fun c b => f (xorBytes c b)) (List.replicate n 0)

/-! ### CMAC -/

/-- Double a block in GF(2^(8n)): the constant is 0x87 for 16 bytes and 0x1B for 8. -/
def cmacDbl (b : List Byte) : List Byte :=
  let v := beNat b
  let n := b.length
  let w := v * 2 % 2 ^ (8 * n)
  beBytes n (if v < 2 ^ (8 * n - 1) then w else Nat.xor w (if n = 16 then 0x87 else 0x1B))

/-- CMAC over a block cipher with `n`-byte blocks. -/
def cmacOf (n : Nat) (f : List Byte → List Byte) (m : List Byte) : List Byte :=
  let k1 := cmacDbl (f (List.replicate n 0))
  let last := if m.isEmpty then 0 else (m.length - 1) / n * n
  let tail := m.drop last
  let fin := if tail.length = n then xorBytes tail k1
    else xorBytes (padTo n (tail ++ [0x80])) (cmacDbl k1)
  f (xorBytes ((chunks n (m.take last)).foldl (fun c b => f (xorBytes c b)) (List.replicate n 0)) fin)

/-- AES-CMAC. -/
def aesCmac (key m : List Byte) : List Byte :=
  let rks := aesKeys key
  cmacOf 16 (aesEncWith rks) m

/-! ### GCM -/

/-- Product in the GCM field of 128-bit blocks, bit 127 of the number being the first bit. -/
def ghashMul (x y : Nat) : Nat :=
  ((List.range 128).foldl (fun (p : Nat × Nat) i =>
    (if x.testBit (127 - i) then Nat.xor p.1 p.2 else p.1,
     if p.2 % 2 = 1 then Nat.xor (p.2 / 2) (0xE1 * 2 ^ 120) else p.2 / 2)) (0, y)).1

/-- GHASH of whole blocks under H. -/
def ghash (h : Nat) (d : List Byte) : Nat := (chunks 16 d).foldl (fun y b => ghashMul (Nat.xor y (beNat b)) h) 0

/-- Bytes filled with zeros to whole blocks. -/
def fill16 (d : List Byte) : List Byte := d ++ List.replicate ((16 - d.length % 16) % 16) 0

/-- Counter-mode key stream exclusive or over data, from a 16-byte counter block, with a 32-bit counter. -/
def gctr (f : List Byte → List Byte) (icb : List Byte) (d : List Byte) : List Byte :=
  ((chunks 16 d).zipIdx).flatMap fun p =>
    xorBytes p.1 (f (icb.take 12 ++ beBytes 4 ((beNat (icb.drop 12) + p.2) % 2 ^ 32)))

/-- The 16-byte tag of GCM over associated data and ciphertext, with a 96-bit nonce. -/
def gcmTag (key iv aad ct : List Byte) : List Byte :=
  let f := aesEncWith (aesKeys key)
  let h := beNat (f (List.replicate 16 0))
  let s := ghash h (fill16 aad ++ fill16 ct ++ beBytes 8 (8 * aad.length) ++ beBytes 8 (8 * ct.length))
  xorBytes (beBytes 16 s) (f (iv ++ [0, 0, 0, 1]))

/-- AES-GCM encipherment: ciphertext and tag. -/
def gcmEnc (key iv aad pt : List Byte) : List Byte × List Byte :=
  let ct := gctr (aesEncWith (aesKeys key)) (iv ++ [0, 0, 0, 2]) pt
  (ct, gcmTag key iv aad ct)

/-- AES-GCM decipherment: none where the tag does not verify. -/
def gcmDec (key iv aad ct tag : List Byte) : Option (List Byte) :=
  if gcmTag key iv aad ct = tag then some (gctr (aesEncWith (aesKeys key)) (iv ++ [0, 0, 0, 2]) ct) else none

end Sys2Proof.Machine
end

