-- ==== Sys2Proof/Config.lean ====
section
/-! DEFINITION. What an implementation fixes, and the free values: constants without a body, so that no statement can
rest on what they are. -/

namespace Sys2Proof.Config

/-- The free value number `k`: a byte that the spec leaves open (entropy, DRBG output, unspecified results). Every use
takes the numbers from the state's own counter, so no two uses share one. -/
opaque freeByte : Nat → Byte

/-- SHA-384 digest of the Novquin image key, held in the boot ROM (R50). -/
opaque novquinImageDigest : List Byte

/-- SHA-384 digest of the Novquin firmware key, held in the boot ROM (R460). -/
opaque novquinFirmwareDigest : List Byte

/-- SHA-384 digest of the Novquin microprogram key, held in the boot ROM (R184). -/
opaque novquinMicroprogramDigest : List Byte

/-- The GDDR7 device and row that hold a data line. The mapping is internal to the MSU (R219). -/
opaque rowOfLine : Nat → Nat × Nat

/-- Queue of gable 0 into which the HQI commits the entries of a physical-function ring: R309 gives the HQI the QUEUE
of a RING section only, and the physical function has none. -/
opaque pfQueue : Nat → Nat

/-- The 8 check bits that the flash die's code gives 64 data bits: R348 names the code by what it corrects, no more. -/
opaque flashCheck : BitVec 64 → BitVec 8

/-- VIO in millivolts, which the board fixes (R413, R494). -/
opaque vioMillivolts : Nat

end Sys2Proof.Config
end

