-- ==== Sys2Proof/Machine/Store.lean ====
section
/-! DEFINITION. Sparse stores in one canonical form: a list of (key, value) pairs with strictly rising keys and no
entry equal to what an unlisted key reads as. Every addressed store and every numbered family of registers of
the block is held in one, so that equal stores are equal data. -/

namespace Sys2Proof.Machine

/-- A sparse store over natural keys. What an unlisted key reads as is given by the operations' first argument. -/
abbrev SMap (α : Type) := List (Nat × α)

/-- The value under key `k`; `d` where the store lists none. -/
def SMap.get {α : Type} (d : α) : SMap α → Nat → α
  | [], _ => d
  | (k', v) :: m, k => if k' = k then v else SMap.get d m k

/-- The store without an entry for `k`. -/
def SMap.erase {α : Type} : SMap α → Nat → SMap α
  | [], _ => []
  | (k', v) :: m, k => if k' = k then SMap.erase m k else (k', v) :: SMap.erase m k

/-- Put an entry before the first larger key. -/
def SMap.insert {α : Type} (k : Nat) (v : α) : SMap α → SMap α
  | [] => [(k, v)]
  | (k', v') :: m => if k < k' then (k, v) :: (k', v') :: m else (k', v') :: SMap.insert k v m

/-- Write `v` under `k`. Writing what an unlisted key reads as removes the entry. -/
def SMap.set {α : Type} [DecidableEq α] (d : α) (m : SMap α) (k : Nat) (v : α) : SMap α :=
  if v = d then SMap.erase m k else SMap.insert k v (SMap.erase m k)

/-- Apply `f` to the value under `k`. -/
def SMap.upd {α : Type} [DecidableEq α] (d : α) (m : SMap α) (k : Nat) (f : α → α) : SMap α :=
  SMap.set d m k (f (SMap.get d m k))

/-- Every key from `m`'s first one on is above `lo` and they rise strictly. -/
def SMap.rising {α : Type} : Option Nat → SMap α → Bool
  | _, [] => true
  | none, (k, _) :: m => SMap.rising (some k) m
  | some lo, (k, _) :: m => decide (lo < k) && SMap.rising (some k) m

/-- The canonical form: keys strictly rising, no entry equal to the default. -/
def SMap.wf {α : Type} [DecidableEq α] (d : α) (m : SMap α) : Bool :=
  SMap.rising none m && m.all fun p => decide (p.2 ≠ d)

/-- A byte store: a list of (address, byte) cells. -/
abbrev Memory := SMap Byte

/-- The memory's canonical form over a reset byte `d`. -/
abbrev Memory.wf (d : Byte) (m : Memory) : Bool := SMap.wf d m

/-- `n` bytes from address `a`, lowest address first. -/
def Memory.read (d : Byte) (m : Memory) (a : Nat) : Nat → List Byte
  | 0 => []
  | n + 1 => SMap.get d m a :: Memory.read d m (a + 1) n

/-- Write bytes from address `a` upwards. -/
def Memory.write (d : Byte) (m : Memory) (a : Nat) : List Byte → Memory
  | [] => m
  | b :: bs => Memory.write d (SMap.set d m a b) (a + 1) bs

end Sys2Proof.Machine
end

