-- ==== Sys2Proof/Machine/BattenState.lean ====
section
/-! DEFINITION. State of the Batten link and the cascade (15_batten_cascade.md). -/

namespace Sys2Proof.Machine

/-- STATE of BTN_PORTn_STAT (R450). -/
inductive PortPhase where
  | down | training | handshake | up | refused | candidate
deriving DecidableEq, Repr

/-- One Batten port (R429 to R433). -/
structure Port where
  phase    : PortPhase := .down
  peer     : Option Nat := none
  peerSer  : Nat := 0
  lanes    : Nat := 0
  replays  : Nat := 0
  tagFail  : Nat := 0
  /-- AON counts of the last tag failures, newest first, at most 16 (R431). -/
  tagTimes : List Nat := []
  txKey    : List Byte := []
  rxKey    : List Byte := []
  txCtr    : Nat := 0
  rxCtr    : Nat := 0
  txSeq    : Nat := 0
  rxSeq    : Nat := 0
  credits  : Nat := 64
  freed    : Nat := 0
  /-- How often each direction's key has been replaced (R431). -/
  txRekeys : Nat := 0
  rxRekeys : Nat := 0
  /-- Payloads that wait for a credit, oldest first. -/
  waiting  : List (List Byte) := []
  /-- The replay buffer: FSEQ, kind and payload of flits not acknowledged, oldest first. -/
  replay   : List (Nat × Byte × List Byte) := []
  ephem    : Nat := 0
  /-- The sideband must show absence before the port retrains (R432). -/
  needGap  : Bool := false
deriving DecidableEq, Repr

/-- A lease that this member holds (R442): first value, count, next to issue. -/
structure Lease where
  first : Nat
  count : Nat
  next  : Nat
deriving DecidableEq, Repr

/-- The ranges of a gable as first formed in the cascade, in the ridge's record (R436). -/
structure RangeRec where
  keyBase  : Nat
  keyCount : Nat
  ctrBase  : Nat
  ctrCount : Nat
  resBase  : Nat
  resCount : Nat
deriving DecidableEq, Repr

/-- ROLE of BTN_CLUSTER (R450). -/
inductive Role where
  | solo | ridge | rafter | isolated
deriving DecidableEq, Repr

/-- The Batten link and the member's cascade state. -/
structure BtnState where
  cause     : Word := 0
  mask      : Word := 0
  ports     : SMap Port := []
  /-- The cascade table (R434); none when solo. -/
  table     : Option CascadeTable := none
  member    : Nat := 0
  role      : Role := .solo
  candidate : Bool := false
  reach     : Word := 0
  /-- A HOLD time has run out (R444). -/
  holdOut   : Bool := false
  /-- AON count at which the HOLD time ends (R444). -/
  holdEnd   : Nat := 0
  evtSrc    : Nat := 0
  evt       : List Byte := List.replicate 32 0
  leases    : SMap (List Lease) := []
  /-- Blocks of the ridge whose RESERVE record has still to verify before the grant is sent: counter, member, first value
  and count (R442). -/
  grants    : List (Nat × Nat × Nat × Nat) := []
  /-- Ridge: the record of gable ranges (R436), and per counter the highest value leased out. -/
  ranges    : SMap (Option RangeRec) := []
  /-- Per counter the highest value that the ridge has issued or leased out, as known here (R442, R443). -/
  ridgeV    : SMap Nat := []
  /-- An election or a successor change is in progress: ridge-owned changes wait (R443). -/
  electing  : Bool := false
  votes     : List Nat := []
  /-- Last load report of a peer: (gable, commands per core in flight) (R447). -/
  loads     : SMap (List (Nat × Nat)) := []
  fwdNext   : Nat := 0
deriving DecidableEq, Repr

end Sys2Proof.Machine
end

