-- ==== Sys2Proof/Machine/CoreState.lean ====
section
/-! DEFINITION. State of the Camol cores and trusses (08_camol_isa.md, 09_privilege_exceptions.md). -/

namespace Sys2Proof.Machine

/-- A frame of the shadow stack (R290): the privilege witness, and g15 and SLIM when SWITCHED is set. -/
structure Frame where
  witness : Nat
  saved   : Option (Word × Word)
deriving DecidableEq, Repr

/-- What a logical core is doing. -/
inductive RunPhase where
  | stopped                              -- never released, or stopped (R63, R296, R297)
  | running
  | waiting                              -- WAIT (R265)
  | stalledTake (queue : Nat) (rd : Nat) -- TAKE on an empty queue (R315)
  | stalledCopi (op : Nat) (o : WmaOp)   -- a full WMA queue (R279)
deriving DecidableEq, Repr

/-- One logical core (R250): registers (R251 to R255), special registers (R286), private bit space (R272), local
data (R257), shadow stack (R290) and interrupt latches (R303). -/
structure Core where
  g       : SMap Word := []
  a       : SMap (BitVec 40) := []
  pc      : Word := 0
  st      : Word := 0
  xpc     : Word := 0
  xst     : Word := 0
  vbase   : Word := 0
  gtbase  : Word := 0
  gtlim   : Word := 0
  slim    : Word := 0
  fxctl   : Word := 4
  idx     : Word := 0
  cnt     : Word := 0
  /-- Core clocks since release, and CYCLE_HI as latched (R254). -/
  clock   : Dword := 0
  cycHi   : Word := 0
  /-- The shadow stack, top frame first. -/
  frames  : List Frame := []
  bits    : SMap Bool := []
  loc     : Memory := []
  /-- Lines held by the instruction cache (R283), by core address / 64. -/
  icache  : SMap Bool := []
  phase   : RunPhase := .stopped
  /-- Between steps 1 and 6 of R295. -/
  forging : Bool := false
  /-- An entry whose read of the vector table waits for the flash array or for sealed memory: its cause and XPC (R225, R357). -/
  parked  : Option (Nat × Word) := none
  intWma  : Bool := false
  intTick : Bool := false
  /-- An imprecise arithmetic exception detected and not yet taken: its cause (R302). -/
  imprec  : Option Nat := none
  /-- FX_OVERFLOW exceptions of instructions whose latency has not ended, in order: how many further instructions can issue
  before each is detected (R280, R302). -/
  late    : List Nat := []
deriving DecidableEq, Repr

/-- What a truss shares: SRAM (R257) and the truss bit space (R272). -/
structure Truss where
  sram : Memory := []
  bits : SMap Bool := []
deriving DecidableEq, Repr

end Sys2Proof.Machine
end

