-- ==== Sys2Proof/Machine/StructureTypes.lean ====
section
/-! DEFINITION. What an Aqley image describes (02_aqley_image.md): the parsed sections, elements and the structural
latches. -/

namespace Sys2Proof.Machine

/-- The PARTITION payload in sectors (R42); the values are its defaults. -/
structure Partition where
  keys : Nat := 2048
  ctrj : Nat := 256
  cerj : Nat := 256
  life : Nat := 512
deriving DecidableEq, Repr

/-- A GABLE payload (R43). -/
structure GableCfg where
  mode         : Nat := 0
  dispatch     : Nat := 0
  ringCount    : Nat := 0
  pipeWeight   : Nat := 0
  trussMask    : Nat := 0
  keyBase      : Nat := 0
  keyCount     : Nat := 0
  ctrBase      : Nat := 0
  ctrCount     : Nat := 0
  queueBase    : Nat := 0
  queueCount   : Nat := 0
  cellQuota    : Nat := 0
  sealedBase   : Nat := 0
  sealedLen    : Nat := 0
  flashBase    : Nat := 0
  flashSectors : Nat := 0
  resBase      : Nat := 0
  resCount     : Nat := 0
deriving DecidableEq, Repr

/-- A RING entry (R44). -/
structure RingCfg where
  ring    : Nat
  weight  : Nat
  burst   : Nat
  flags   : Nat
  queue   : Nat
  maxLog2 : Nat
deriving DecidableEq, Repr

/-- A WINDOW entry (R45). -/
structure WindowCfg where
  base   : Nat
  length : Nat
  access : Nat
deriving DecidableEq, Repr

/-- A GATE entry with its section's gable (R46, R330). -/
structure GateEntry where
  gable  : Nat
  target : Nat
  entry  : Nat
  perm   : Nat
  priv   : Nat
  cls    : Nat
  base   : Nat
  limit  : Nat
  valid  : Bool := true
deriving DecidableEq, Repr

/-- A PIPE payload (R48): KIND and the sixteen slots. -/
structure PipeCfg where
  kind  : Nat := 0
  slots : List Nat := List.replicate 16 0
deriving DecidableEq, Repr

/-- One ALARM entry (R49). -/
structure AlarmEntry where
  level  : Nat
  notify : Nat
deriving DecidableEq, Repr

/-- What the structural latches hold (R38): the structure that a record describes. -/
structure Latches where
  partition : Partition := {}
  gables    : SMap GableCfg := []
  rings     : SMap (List RingCfg) := []
  windows   : SMap (List WindowCfg) := []
  gates     : List GateEntry := []
  pipes     : List PipeCfg := List.replicate 4 {}
  alarm     : List AlarmEntry := []
deriving DecidableEq, Repr

/-- One section of an element: TYPE, INSTANCE and payload (R40). -/
structure ImgSection where
  typ  : Nat
  inst : Nat
  data : List Byte
deriving DecidableEq, Repr

/-- An element's header fields, sections and raw bytes (R36, R39). -/
structure Element where
  magic     : Nat
  version   : Nat
  kind      : Nat
  target    : Nat
  gen       : Nat
  parent    : List Byte
  serial    : Nat
  signer    : Nat
  sectCount : Nat
  bodyLen   : Nat
  label     : Nat
  reserved  : Bool
  sections  : List ImgSection
  raw       : List Byte
deriving DecidableEq, Repr

end Sys2Proof.Machine
end

