-- ==== Sys2Proof/Machine/EaveState.lean ====
section
/-! DEFINITION. State of the Eave die and the fuse bank (13_eave_supervisor.md), and the battery-kept fields that
16_system_control.md puts on it. -/

namespace Sys2Proof.Machine

/-- The fuse bank: the two physical halves of the 1,024 logical fuses (R390). -/
structure FuseBank where
  halfA : BitVec 1024 := 0
  halfB : BitVec 1024 := 0
deriving DecidableEq, Repr

/-- What the Eave die keeps while its supply holds (R385). -/
structure EaveState where
  /-- The vault's 64 KiB (R386). -/
  vault     : Memory := []
  /-- The event ring's 64 slots of 32 bytes, the next slot, unarchived count, entries lost (R387). -/
  ring      : SMap (List Byte) := []
  ringNext  : Nat := 0
  ringCount : Nat := 0
  ringLost  : Nat := 0
  /-- SEQ of the next group (R380). -/
  seq       : Word := 0
  /-- The AON tick count (48 bits) and the latch of EAV_AON_HI. -/
  aon       : Nat := 0
  aonLatch  : Nat := 0
  /-- The retained response table (R382). -/
  retained  : Option (List AlarmEntry) := none
  pend      : BitVec 4 := 0
  /-- Bit n: source n is active (R369). -/
  active    : BitVec 22 := 0
  evCount   : SMap Nat := []
  /-- Events recorded while main power was away, by CODE: the lifetime record counts them at the next power-up. -/
  owed      : SMap Nat := []
  /-- Detections of the arbitration step in progress, oldest first: CODE and DETAIL (R380). -/
  detected  : List (Nat × List Byte) := []
  /-- AON tick count at the first detection of that step (R388). -/
  detAon    : Nat := 0
  /-- An acknowledgment taken in the step in progress, handled after its group (R395). -/
  ackTaken  : Bool := false
  /-- THROTTLE, SUSPEND (until released, R379) and PURGE held. -/
  holdThr   : Bool := false
  holdSus   : Bool := false
  holdPurge : Bool := false
  lastLevel : Nat := 0
  vaultZero : Bool := false
  /-- The state was lost since the last power-up: that power-up sets EAVE_COLD of EAV_ICAUSE (R385). -/
  cold      : Bool := false
  rootLock  : Bool := false
  ackRef    : Bool := false
  vbat0     : Nat := 0
  vbat1     : Nat := 0
  /-- Lands that fell below 1.0 V and have not risen above 1.7 V since (R385). -/
  vbatLow   : BitVec 2 := 0
  /-- AON count of the last write-mismatch event recorded (R371). -/
  shadowAt  : Option Nat := none
  cause     : Word := 0
  mask      : Word := 0
  isrc      : BitVec 23 := 0
  /-- The values of the EAV_ACK and EAV_RING_ACK pairs. -/
  ackCtl    : Nat := 0
  ringCtl   : Nat := 0
  fuses     : FuseBank := {}
deriving DecidableEq, Repr

end Sys2Proof.Machine
end

