-- ==== Sys2Proof/Machine/MsuState.lean ====
section
/-! DEFINITION. State of the Memory Seal Unit, sealed memory and the key store (07_key_store_sealed_memory.md). -/

namespace Sys2Proof.Machine

/-- STATE of MSU_KS_STAT (R246, R249). -/
inductive KsPhase where
  | empty | closed | isOpen | isSealed | noRoot | starting
deriving DecidableEq, Repr

/-- The root record's fields that the key store works with (R244). -/
structure RootRec where
  gen     : Nat
  parent  : List Byte
  ksrkId  : List Byte
  bGen    : Nat
  bSeq    : Nat
  bDigest : List Byte
  raw     : List Byte
deriving DecidableEq, Repr

/-- A pending backup (R242): generation, sequence and digest. -/
structure Backup where
  gen    : Nat
  seq    : Nat
  digest : List Byte
deriving DecidableEq, Repr

/-- The command that MSU_KS_CTL runs (R242). -/
inductive KsRun where
  | none
  | init
  | backup (addr seq : Nat)
  | restore (addr : Nat) (got : Option HostData)
  | confirm
deriving DecidableEq, Repr

/-- The next place of a log in flash: sector and byte offset, and the use count of the sector (R240). -/
structure LogPos where
  sector : Nat := 0
  off    : Nat := 0
  valid  : Bool := false
deriving DecidableEq, Repr

/-- An access of the MSU's clients that waits for INIT_DONE (R225): a write where it carries data, with the outcome of its
reads of DRAM. -/
structure MsuAccess where
  off    : Nat
  len    : Nat
  data   : Option (List Byte)
  first  : Bool
  second : Bool
deriving DecidableEq, Repr

/-- The Memory Seal Unit: registers, plaintext view of sealed memory, counters, failing lines, row sparing. -/
structure MsuState where
  cause    : Word := 0
  mask     : Word := 0
  fail     : Nat := 0
  authFail : Nat := 0
  reread   : Nat := 0
  unspared : Nat := 0
  /-- Initialisation has ended (R226). -/
  inited   : Bool := false
  /-- The MSU root is in the vault and its derived keys are in force (R221, R377). -/
  rootOk   : Bool := false
  /-- Plaintext of the sealed lines, by sealed offset (R217). -/
  mem      : Memory := []
  /-- MAJOR of counter line `j` of level `l` under key l × 2^26 + j; MINOR that a line of level `l` holds for child `i`
  under key l × 2^26 + i (R220). Level 3 is the on-die one. -/
  major    : SMap Nat := []
  minor    : SMap Nat := []
  /-- Data lines that keep failing verification (R224), and counter line `j` of level `l` that does, under key
  l × 2^26 + j. -/
  failing  : SMap Bool := []
  badCtr   : SMap Bool := []
  /-- Accesses that came before INIT_DONE, first come first (R225). -/
  waiting  : List MsuAccess := []
  /-- The on-die table of rows with one re-read event, newest first (R228). -/
  rowEvent : List Nat := []
  /-- Remap words in force: device × 1024 + k, with the row and the reason (R229). -/
  remap    : SMap (Nat × Nat) := []
  /-- Spare rows used or torn, per device. -/
  used     : SMap Nat := []
  /-- Row-remap words handed to the warden before it runs, by word number, first handed first (R229). -/
  rowWords : List (Nat × Dword) := []
deriving DecidableEq, Repr

/-- The key store's registers, logs and resident directory. -/
structure KsState where
  ctl      : Nat := 0
  status   : Nat := 0
  phase    : KsPhase := .empty
  run      : KsRun := .none
  addr     : Dword := 0
  arg      : Dword := 0
  /-- Last key-store sequence assigned or applied (R239). -/
  seq      : Nat := 0
  root     : Option RootRec := none
  pending  : Option Backup := none
  /-- Backup digest that a restore ceremony approved (R243). -/
  approved : Option (List Byte) := none
  slotLog  : LogPos := {}
  resLog   : LogPos := {}
  /-- The resident directory: one R233 entry per resident index (R238). -/
  resDir   : SMap Word := []
deriving DecidableEq, Repr

end Sys2Proof.Machine
end

