-- ==== Sys2Proof/Machine/EngineState.lean ====
section
/-! DEFINITION. State of the WMA units and Galliard sequencers (05_public_key_engines.md), of the symmetric subsystem
and the counter vault (06_symmetric_hash_counters.md), and of the native services (04_transaction_services.md). -/

namespace Sys2Proof.Machine

/-- A word of WMA operand memory with its tags (R157, R158). -/
structure WmaWord where
  val : Dword := 0
  key : Bool := false
  rep : Bool := false
deriving DecidableEq, Repr

/-- A queued WMA instruction: OP, its fields and the level it was issued at (R163). -/
structure WmaEntry where
  op : Nat
  o  : WmaOp
  pl : Nat
deriving DecidableEq, Repr

/-- An issue context (R160, R165, R169, R170). `sticky` holds bits 16, 14:8, 7 and 5 of the status word in place. -/
structure WmaCtx where
  m      : Nat := 0
  w      : Nat := 0
  sw     : Bool := false
  last   : Bool := false
  sticky : Word := 0
  queue  : List WmaEntry := []
  /-- What the MLD at the head read when it started (R173): words, or that the gate refused it. -/
  latch  : Option (Option (List Byte)) := none
deriving DecidableEq, Repr

/-- A truss's WMA unit: operand memory, contexts, the context last served, keys that loaders hold for MKEY. -/
structure Wma where
  mem    : SMap WmaWord := []
  ctx    : SMap WmaCtx := []
  /-- The context last served, and the one whose head instruction holds the datapath (R169). -/
  served : Nat := 3
  dp     : Option Nat := none
  tags   : SMap (List Byte) := []
  next   : Nat := 0
deriving DecidableEq, Repr

/-- What a Galliard sequencer runs (R182, R184, R185). -/
inductive GalRun where
  | none | load | run (service : Nat)
deriving DecidableEq, Repr

/-- A Galliard sequencer (R180 to R186): operand memory with KEY tags, microcode store, registers. -/
structure Galliard where
  mem     : SMap (Dword × Bool) := []
  code    : List Byte := []
  entries : List (Nat × Nat) := []
  loaded  : Bool := false
  mpId    : Nat := 0
  mpVer   : Nat := 0
  ctl     : Nat := 0
  status  : Nat := 0
  run     : GalRun := .none
  addr    : Dword := 0
  len     : Word := 0
  service : Nat := 0
  arg     : Word := 0
  cycles  : Word := 0
deriving DecidableEq, Repr

/-- The PKE block (R187). -/
structure PkeState where
  cause    : Word := 0
  mask     : Word := 0
  mismatch : Word := 0
  wma      : SMap Wma := []
  gal      : SMap Galliard := []
deriving DecidableEq, Repr

/-- Key material in a key register: policy word and secret part (R107, R194). -/
structure KeyMat where
  policy : Word
  secret : List Byte
deriving DecidableEq, Repr

/-- A chain of a service pipeline (R194, R195): the core it is bound to, and as which of its chains. -/
structure ChainReg where
  core  : Option (Nat × Nat) := none
  key   : Option KeyMat := none
  state : List Byte := []
deriving DecidableEq, Repr

/-- The order in which a work-conserving pipeline's key loaders serve gables and chains (R197): the gable from which the
next choice goes, the loads that each gable may still take in this round, and the chain last served of each gable. -/
structure RoundRobin where
  pos    : Nat := 0
  tokens : SMap Nat := []
  last   : SMap Nat := []
deriving DecidableEq, Repr

/-- A service pipeline (R26, R197): assignment in force, assignment due at the next frame boundary, frame slot, and the
order of its loaders. Which loads are in progress stands with the requests and commands that wait for them. -/
structure Pipe where
  kind    : Nat := 0
  slots   : List Nat := List.replicate 16 0
  nextCfg : Option (Nat × List Nat) := none
  slot    : Nat := 0
  served  : RoundRobin := {}
deriving DecidableEq, Repr

/-- A request that a symmetric port carries out, as it stood when GO was written (R190). -/
structure PortReq where
  op    : Nat
  ch    : Nat
  flags : Nat
  resv  : Bool
  argA  : Nat
  argB  : Nat
  len   : Nat
  use   : Nat
  data  : List Byte
  /-- Level of the core as GO was written (R328). -/
  pl    : Nat := 0
  /-- The pipeline whose loaders have begun the request's key load (R16, R197). -/
  begun : Option Nat := none
deriving DecidableEq, Repr

/-- A symmetric port (R189): its bytes 0x00 to 0x7F, STATUS and the request in progress. -/
structure SymPort where
  mem    : Memory := []
  status : Nat := 0
  req    : Option PortReq := none
  /-- A change of the pipelines closed this core's chains: its next request ends with ABORTED (R196). -/
  closed : Bool := false
deriving DecidableEq, Repr

/-- A SHA-2 context (R203). -/
structure ShaCtx where
  active : Bool := false
  alg    : Nat := 0
  state  : List Dword := []
  count  : Nat := 0
  /-- The outer padded key of an HMAC. -/
  outer  : Option (List Byte) := none
deriving DecidableEq, Repr

/-- A DRBG (R205, R206), a CTR_DRBG of SP 800-90A: instantiated, requests since the last reseed, error state, Key and V,
and the last block of its output, for the continuous self-test. -/
structure Drbg where
  inst  : Bool := false
  since : Nat := 0
  err   : Bool := false
  key   : List Byte := List.replicate 32 0
  v     : List Byte := List.replicate 16 0
  last  : List Byte := []
deriving DecidableEq, Repr

/-- Who waits for a unit that serves in turn, a key loader or the counter vault: a core's port or a native command. -/
inductive Asker where
  | port (n : Nat)
  | cmd (r : CmdRef)
deriving DecidableEq, Repr

/-- A page's place in the counter journal: pool sector and snapshot sequence (R212). -/
structure PageMap where
  sector : Nat := 0
  snap   : Nat := 0
  valid  : Bool := false
deriving DecidableEq, Repr

/-- What a page rewrite waits for (R213): the PAGE record of page `p`, whose bounds pool sector `dst` holds from snapshot
`snap`; or the copy of the TIME record that stands before an erase. -/
inductive PageRun where
  | none
  | record (p dst snap : Nat)
  | time
deriving DecidableEq, Repr

/-- The counter vault and its journal (R207 to R215). -/
structure CtrState where
  v        : SMap Nat := []
  b        : SMap Nat := []
  /-- Requests for a counter's next value, with the counter, in the order in which they reached the vault (R209). -/
  arrivals : List (Asker × Nat) := []
  /-- B_new of the RESERVE record in flight for a counter. -/
  flight   : SMap (Option Nat) := []
  ceiling  : Nat := 0
  floor    : Nat := 0
  timeFly  : Option Nat := none
  pages    : SMap PageMap := []
  freeSect : Nat := 128
  nextPage : Nat := 0
  since    : Nat := 0
  seq      : Nat := 0
  log      : LogPos := {}
  uses     : Nat := 0
  stalled  : Bool := false
  /-- The page rewrite under way (R213). -/
  rewrite  : PageRun := .none
deriving DecidableEq, Repr

/-- The SYM block. -/
structure SymState where
  cause    : Word := 0
  mask     : Word := 0
  drbgFail : Word := 0
  ctrExh   : Nat := 0
  ports    : SMap SymPort := []
  chains   : SMap ChainReg := []
  pipes    : SMap Pipe := []
  sha      : SMap ShaCtx := []
  /-- DRBGs by truss; 32 to 35 the Galliard sequencers', 36 the warden's. -/
  drbg     : SMap Drbg := []
  ctr      : CtrState := {}
deriving DecidableEq, Repr

/-- An installed service package (R152): GENERATION, image and its opcodes, each with FLAGS, ENTRY and BUDGET. -/
structure Package where
  generation : Nat
  image      : List Byte
  opcodes    : List (Nat × Nat × Nat × Nat)
deriving DecidableEq, Repr

/-- State of the native services that belongs to gables. -/
structure SvcState where
  /-- Installed packages and packages whose install waits (R156). -/
  pkgs    : SMap (Option Package) := []
  waiting : SMap (Option CmdRef) := []
  /-- Reasons HOST (bit 0), KEYSTORE (bit 1), RANGE (bit 2) of a gable (R115). -/
  reasons : SMap Nat := []
  /-- GABLE_SUSPEND commands that wait, each with its gable and the class K commands that it waits for (R117). -/
  drains  : List (CmdRef × Nat × List CmdRef) := []
  /-- Class K commands of a gable that were granted before its HOST reason was set, and commands granted before the
  GABLE_RESUME that cleared it completed, which still find the gable suspended (R117). -/
  early   : SMap (List CmdRef) := []
  stale   : SMap (List CmdRef) := []
  /-- Gables whose runtime has raised their integrity event (R153). -/
  alarms  : List Nat := []
  /-- SEALED by DIVERGENT (R112). -/
  diverg  : Bool := false
deriving DecidableEq, Repr

end Sys2Proof.Machine
end

