-- ==== Sys2Proof/Machine/FlashState.lean ====
section
/-! DEFINITION. State of the flash die and the flash controller (12_flash_store.md). -/

namespace Sys2Proof.Machine

/-- What a word that holds nothing reads as: erased (R346). -/
abbrev erasedWord : Dword := 0xFFFF_FFFF_FFFF_FFFF

/-- A word of the array that is not erased (R346): the 64 data bits it was programmed with, which of its 72 bits (data in
bits 63:0, check bits in 71:64) have come out otherwise, and whether a PROG that found no spare failed at it, so that
it reads unspecified values (R362). -/
structure FlashCell where
  data : Dword
  err  : BitVec 72 := 0
  lost : Bool := false
deriving DecidableEq, Repr

/-- The flash die: kept without power (R346). -/
structure FlashDie where
  /-- The words of the physical sectors 0 to 16,383 and of the spares 16,386 to 16,713, by physical sector × 512 + word;
  an unlisted word is erased. -/
  cells    : SMap (Option FlashCell) := []
  /-- The spare that serves a logical sector, and worn sectors, as the remap records say (R361 to R363). -/
  spareOf  : SMap (Option Nat) := []
  worn     : SMap Bool := []
  /-- Spares that a remap record names, and those of them marked bad (R361, R363). -/
  named    : SMap Bool := []
  bad      : SMap Bool := []
  /-- The words of remap copies A and B, physical sectors 16,384 and 16,385, that are not erased, in order (R363). -/
  copyA    : List Dword := []
  copyB    : List Dword := []
  /-- The calibration row (R366): what the array held at the last boot that read it. -/
  calRow   : List Byte := List.replicate 256 0
  /-- Per gable the public key under which its stored service package was verified: the runtime needs it again at each
  start (R153), and the spec names no place for it (DESIGN CHOICE, log 401). -/
  pkgKeys  : SMap (List Byte) := []
  /-- Uses of resident-log sectors that stand erased, which the headers of R240 count on (DESIGN CHOICE, log 712). -/
  logUses  : SMap Nat := []
deriving DecidableEq, Repr

/-- How the running or suspended erase stands: ERASE of FLC_STAT (R356, R357). -/
inductive ErasePhase where
  | none | running | suspended | auto
deriving DecidableEq, Repr

/-- The operation that holds BUSY besides an erase (R351, R361): one that the journal port runs ahead of is queued (R350). -/
inductive FlcRun where
  | none
  /-- A PROG, once it has started. -/
  | prog (addr : Nat) (words : List Dword) (started : Bool)
  /-- A queued ERASE, and a queued RETIRE with its outcome. -/
  | erase (sect : Nat)
  | retire (sect badSpares : Nat)
  /-- A READ of a line that waits for the journal port's PROG in it, with what the array will return (R353). -/
  | read (line : Nat) (arr : LineRead)
deriving DecidableEq, Repr

/-- The flash controller's registers (R367) and buffers (R365). -/
structure FlcState where
  cause       : Word := 0
  mask        : Word := 0
  ctl         : Nat := 0
  addr        : Nat := 0
  status      : Nat := 0
  pulses      : Nat := 0
  retired     : Bool := false
  erase       : ErasePhase := .none
  eraseSect   : Nat := 0
  lastOp      : Nat := 0
  rstat       : Word := 0
  rstatAny    : Word := 0
  pulseThresh : Nat := 5
  readThresh  : Nat := 1
  autosus     : Bool := true
  warn        : Word := 0
  retireReg   : Word := 0
  uncorr      : Nat := 0
  corr        : Nat := 0
  critEnd     : Nat := 0x3FFF
  data        : SMap Word := []
  cal         : List Byte := List.replicate 256 0
  run         : FlcRun := .none
  /-- Words that the journal port waits to program (R350): address and word. -/
  jport       : List (Nat × Dword) := []
  /-- A PROG of the journal port holds the array: its address and word. -/
  jrun        : Option (Nat × Dword) := none
  /-- PULSE_WARNs of a sector since its last erase (R360). -/
  warnings    : SMap Nat := []
  /-- Sectors treated as worn until device reset without a record (R363). -/
  wornNow     : SMap Bool := []
  /-- Line addresses in the prefetch buffer, and per set of the branch cache, most recent first (R365). -/
  prefetch    : List Nat := []
  /-- Line of the last fill, after which the prefetch buffer reads on (R365). -/
  lastFill    : Option Nat := none
  branch      : SMap (List Nat) := []
  /-- Lines whose reads fail for the boot ROM at this boot (R459); none once it has ended. -/
  bootBad     : List Nat := []
deriving DecidableEq, Repr

end Sys2Proof.Machine
end

