-- ==== Sys2Proof/Machine/HqiState.lean ====
section
/-! DEFINITION. State of the host queue interface (03_host_queues.md) and of the commands in flight (R29, R89). -/

namespace Sys2Proof.Machine

/-- An inline slot (R83): a written slot holds 64 bytes; a bound one also names the entry position. -/
inductive InlineSlot where
  | empty
  | written (bytes : List Byte)
  | bound (pos : Word) (bytes : List Byte)
deriving DecidableEq, Repr

/-- A chain being carried out (R90 to R92). -/
structure Chain where
  first    : Word
  granted  : Nat := 0
  closed   : Bool := false
  last     : Word := 0
  /-- The 256th entry had LAST clear: it closes the chain and is not carried out (R92). -/
  tooLong  : Bool := false
  /-- The first entry that failed: status and position in the chain. -/
  failed   : Option (Nat × Nat) := none
  /-- Completions of the entries that have finished, by position in the chain. -/
  done     : List (Nat × List Byte) := []
  /-- Completions already committed to the HQI sink. -/
  sent     : Nat := 0
deriving DecidableEq, Repr

/-- A ring context (R75), its inline slots (R83), fetched entries (R86) and Reel state (R87). -/
structure RingCtx where
  base       : Dword := 0
  sizeLog2   : Nat := 0
  isOpen     : Bool := false
  stopped    : Bool := false
  tail       : Word := 0
  head       : Word := 0
  cpl        : Word := 0
  fetchErr   : Bool := false
  winWidth   : Bool := false
  inlOverrun : Bool := false
  dbRange    : Bool := false
  slots      : List InlineSlot := List.replicate 4 .empty
  /-- The posted count that the arbiter knows (R86). -/
  known      : Word := 0
  /-- Positions whose fetch is outstanding, and fetched entries held. -/
  fetching   : List Word := []
  held       : List (Word × List Byte) := []
  /-- Granted entries that await their commit, oldest first (R86). -/
  granted    : List (Word × List Byte) := []
  tokens     : Nat := 0
  hadTokens  : Bool := false
  visit      : Nat := 0
  /-- The chains granted and not yet completed, oldest first. -/
  chains     : List Chain := []
  /-- The position from which a failed fetch stops the ring (R95). -/
  stopAt     : Option Word := none
  /-- Posted positions whose entry was written while the slot's last command was in flight (R81). -/
  reused     : List Word := []
deriving DecidableEq, Repr

/-- A function's HQI_FN registers that are stored (R76). -/
structure FnState where
  flrActive : Bool := false
  refuse    : Nat := 0
  drop      : Nat := 0
deriving DecidableEq, Repr

/-- The source data of a command in flight (R94). -/
inductive SrcState where
  | none
  | waiting
  | got (bytes : List Byte)
  | failed (status : Nat)
deriving DecidableEq, Repr

/-- A key-store change that awaits the ridge (R440): where, what kind, and what the command completes with. -/
structure Plan where
  resident : Bool
  index    : Nat
  store    : Bool
  inline   : List Byte
  dest     : List Byte
  /-- Its place among the changes sent to the ridge. -/
  order    : Nat := 0
  /-- The generation that the ridge assigned, once the change has come back and is committed here. -/
  agreed   : Option Nat := none
deriving DecidableEq, Repr

/-- A key as a loader opens it: policy word, secret, public point (R235). -/
structure LoadedKey where
  policy : Word
  secret : List Byte
  pub    : List Byte
deriving DecidableEq, Repr

/-- A command in flight (R29), from its grant until its completion is written or it is abandoned. -/
structure Cmd where
  ref       : CmdRef
  entry     : List Byte
  /-- Its chain flags, FENCE or reserved bits depart from chapter 3 (R96). -/
  bad       : Bool := false
  committed : Bool := false
  src       : SrcState := .none
  /-- A completion has been committed to the HQI sink or deferred by its chain. -/
  finished  : Bool := false
  /-- The truss on which its work runs, where one is known (R116). -/
  truss     : Option Nat := none
  /-- The core on which a tenant program runs (R154). -/
  worker    : Option Nat := none
  /-- The logical core that works on a native command (R504). -/
  core      : Option Nat := none
  /-- The keys that it has resolved so far (R111). -/
  keys      : List LoadedKey := []
  /-- The pipeline whose loaders it has asked for its next key, and whether they have begun (R16, R197). -/
  load      : Option Nat := none
  begun     : Bool := false
  /-- Its tenant program has called the runtime and not been returned to, and what its last sub-command answered (R155). -/
  calling   : Bool := false
  answer    : List Byte := []
  /-- The public point under which a package that waits for its install step verified (R153). -/
  pkgKey    : List Byte := []
  /-- Forwarded to a cascade member: member and FWD_ID (R448). -/
  fwd       : Option (Nat × Nat) := none
  /-- A peer answered SUSPENDED, so it is carried out here (R448). -/
  here      : Bool := false
  /-- Its key-store change awaits the ridge (R440). -/
  plan      : Option Plan := none
  /-- It has asked the ridge for the latest changes, or has them (R441). -/
  asked     : Bool := false
  synced    : Bool := false
  /-- The counter value and the time that it has drawn for its record (R141). -/
  drawn     : Option (Nat × Nat) := none
  /-- The counter for whose next value it waits (R208, R442). -/
  waits     : Option Nat := none
  /-- Of a command served for a peer: REPLY_QUEUE word of its FORWARD, and the result bytes for its RETURN (R448). -/
  reply     : Word := 0
  outBytes  : List Byte := []
deriving DecidableEq, Repr

/-- Attributes of a request that the module issues (R67, R68): Relaxed Ordering, ID-Based Ordering, and whether it carries
an ECRC. -/
structure ReqAttr where
  relaxed : Bool := false
  idBased : Bool := false
  ecrc    : Bool := false
deriving DecidableEq, Repr

/-- Something that leaves the block: host reads and writes, register data returned, frames and flits sent. -/
inductive Output where
  | hostWrite (fn addr : Nat) (bytes : List Byte) (attr : ReqAttr := {})
  | hostRead (rd : ReadId) (fn addr len : Nat) (attr : ReqAttr := {})
  | unsupportedRequest (kind : Unsupported)
  | regData (who : Who) (off : Nat) (value : Dword)
  | regAbort (who : Who) (off : Nat)
  | spiData (words : List (Word × Byte))
  | spiStatus (status : Byte)
  | linkCommand (slot : Nat) (frame : List Byte)
  | linkData (slot : Nat) (bytes : List Byte)
  | cardBlock (slot : Nat) (bytes : List Byte)
  | flit (port : Nat) (bytes : List Byte)
  | hello (port : Nat) (body : List Byte)
  | vidSet (code : Byte)
  | jtagData (value : Dword)
deriving DecidableEq, Repr

/-- The host queue interface and the PCIe endpoint. -/
structure HqiState where
  cause        : Word := 0
  mask         : Word := 0
  flrFn        : Dword := 0
  stopFn       : Dword := 0
  /-- HQI_RSETUP_CTX, BASE, SIZE_LOG2, CMD, STATUS, BUSY (R72). -/
  setupCtx     : Nat := 0
  setupBase    : Dword := 0
  setupSize    : Nat := 0
  setupCmd     : Nat := 0
  setupStatus  : Nat := 0
  /-- A running OPEN: context, base and size as they stood when it was written; BUSY while there is one. -/
  setupReq     : Option (Nat × Nat × Nat) := none
  rings        : SMap RingCtx := []
  fns          : SMap FnState := []
  /-- PCIe configuration (R67): VF Enable with the number of virtual functions, timeouts, ECRC, tags and sizes. -/
  vfEnable     : Bool := false
  numVfs       : Nat := 63
  toRange      : BitVec 4 := 0
  toDisable    : Bool := false
  ecrc         : Bool := false
  tenBit       : Bool := false
  maxPayload   : Nat := 128
  maxRead      : Nat := 512
  linkUp       : Bool := false
  /-- Reel (R87, R88): `pos` per scope (0 for non-Pavane, else the Pavane gable), cycle in the frame, deal list. -/
  pos          : SMap Nat := []
  cycle        : Nat := 0
  deal         : List Nat := []
  nextDeal     : Option (List Nat) := none
  cmds         : List Cmd := []
  reads        : List ReadId := []
  /-- Read requests issued and not returned, one entry each, and those that wait for a tag, with function, address and
  length (R67). -/
  tags         : List ReadId := []
  unsent       : List (ReadId × Nat × Nat × Nat) := []
deriving DecidableEq, Repr

end Sys2Proof.Machine
end

