-- ==== Sys2Proof/Machine/ImgState.lean ====
section
/-! DEFINITION. State of the image registers, the staging buffer, the structural latches (02_aqley_image.md) and of
the gates' fault reporting (11_target_gates.md). -/

namespace Sys2Proof.Machine

/-- STATE of GTE_IMG_STAT (R51). -/
inductive ImgPhase where
  | idle | staging | staged | approved | committing | pendingReset
deriving DecidableEq, Repr

/-- Image registers and latches. -/
structure ImgState where
  cmd       : Nat := 0
  status    : Nat := 0
  source    : Nat := 0
  divergent : Bool := false
  degraded  : Bool := false
  locked    : Bool := false
  busy      : Bool := false
  phase     : ImgPhase := .idle
  src       : Dword := 0
  len       : Word := 0
  gen       : Nat := 0
  digest    : List Byte := List.replicate 48 0
  sdig      : List Byte := List.replicate 48 0
  refSect   : Nat := 0
  refCheck  : Nat := 0
  /-- The staging buffer (R53): the element's bytes. -/
  staging   : List Byte := []
  staged    : Option Element := none
  /-- What the fetch of a running STAGE has brought (R53, R97), and whether STATE was IDLE when it began. -/
  fetched   : Option HostData := none
  wasIdle   : Bool := true
  /-- Slots that a running COMMIT has written, 0 to 2 (R62, R63). -/
  slotsDone : Nat := 0
  /-- The structural latches, and per gable the trusses and dispatch core in force after R61. -/
  latched   : Latches := {}
  trusses   : SMap Nat := []
  dispatch  : SMap Nat := []
  /-- Latch words found mismatched, read as their most restrictive values (R371). -/
  latchBad  : List LatchWord := []
deriving DecidableEq, Repr

/-- A refusal record (R343, R344). -/
structure FaultRec where
  tag    : Word
  info   : Word
  offset : Word
  len    : Word
deriving DecidableEq, Repr

/-- The GTE block's cause, mask and refusal reporting (R343, R344). -/
structure GteState where
  cause     : Word := 0
  mask      : Word := 0
  fifo      : List FaultRec := []
  seq       : Nat := 0
  dbgCnt    : Nat := 0
  gcnt      : SMap Nat := []
  /-- AON count of the last DEBUG_REFUSED event raised (R340). -/
  dbgEvent  : Option Nat := none
deriving DecidableEq, Repr

end Sys2Proof.Machine
end

