-- ==== Sys2Proof/Machine/ReedState.lean ====
section
/-! DEFINITION. State of the Reed fabric (10_reed_fabric.md): packets, contexts, queues, sinks and cell counts. -/

namespace Sys2Proof.Machine

/-- A committed packet (R307 to R313). `ctx` is the producer context it came from. -/
structure Packet where
  typ   : Nat
  words : List Word
  /-- The source word that INFO returns (R313). -/
  src   : Word := 0
  /-- The producing gable, whose quota its cells count against (R316). -/
  prod  : Nat := 0
  /-- FN when FN_VALID is set (R318). -/
  fn    : Option Nat := none
  ctx   : Nat := 0
deriving DecidableEq, Repr

/-- A producer context (R307, R311, R312). -/
structure ProdCtx where
  isOpen    : Bool := false
  typ       : Nat := 0
  dest      : Nat := 0
  sink      : Bool := false
  fn        : Option Nat := none
  words     : List Word := []
  err       : Option Nat := none
  discarded : Bool := false
deriving DecidableEq, Repr

/-- A consumer context (R307, R314). -/
structure ConsCtx where
  pkt       : Option Packet := none
  pos       : Nat := 0
  discarded : Bool := false
deriving DecidableEq, Repr

/-- The Reed fabric. Contexts are numbered 2 × core + 1 at Supervisor level, 2 × core at Monitor level. -/
structure ReedState where
  cause   : Word := 0
  mask    : Word := 0
  prod    : SMap ProdCtx := []
  cons    : SMap ConsCtx := []
  queues  : SMap (List Packet) := []
  /-- Cores stalled in TAKE on a queue, in the order in which they began to stall (R315). -/
  waiters : SMap (List Nat) := []
  /-- Cells that each gable holds (R316). -/
  used    : SMap Nat := []
  sink0   : List Packet := []
  sink1   : List Packet := []
  /-- Refused host writes awaiting their completion: context, function and POSITION (R324). -/
  refused : List (Nat × Nat × Word) := []
deriving DecidableEq, Repr

end Sys2Proof.Machine
end

