-- ==== Sys2Proof/Machine/SlateState.lean ====
section
/-! DEFINITION. State of the slate port and the ceremony engine (14_slate_port_ceremonies.md). -/

namespace Sys2Proof.Machine

/-- Keys and counters of an open slate session (R411). -/
structure SlateSession where
  km2s  : List Byte
  ks2m  : List Byte
  txCtr : Nat := 1
  rxCtr : Nat := 1
deriving DecidableEq, Repr

/-- Where a STEP or an identification stands on a slot (R399, R419). -/
inductive SlotStage where
  | off
  | ident | identBlock
  | setRate | tune (tap : Nat) | tuneBlock (tap : Nat)
  | auth | authToken | poll | reply | replyBlock
  | readCmd (block : Nat) | readBlock (block : Nat)
  | preStatus (block : Nat) | writeCmd (block : Nat) | writeToken (block : Nat) | busy (block : Nat)
  | postStatus (block : Nat)
  | atr (warm : Bool) | ifs
deriving DecidableEq, Repr

/-- A share read from a slate (R422). -/
structure Share where
  cerNo  : Nat
  serial : List Byte
  ksrkId : List Byte
  t      : Nat
  x      : Nat
  data   : List Byte
deriving DecidableEq, Repr

/-- One slot (R397 to R414, R428). -/
structure Slot where
  present  : Bool := false
  powered  : Bool := false
  proto    : Nat := 0
  rate     : Nat := 0
  maxRate  : Nat := 0
  tap      : Nat := 0
  passed   : List Nat := []
  wseq     : Nat := 0
  custId   : List Byte := List.replicate 16 0
  pubKey   : List Byte := []
  serial   : List Byte := []
  crcErr   : Nat := 0
  timeouts : Nat := 0
  unconf   : Bool := false
  session  : Option SlateSession := none
  stage    : SlotStage := .off
  /-- Where a new tuning returns to (R406, R407), and the hottest sensor at the last tuning. -/
  resume   : SlotStage := .auth
  tuneTemp : Int := 0
  seq      : Nat := 0
  retries  : Nat := 0
  crcRow   : Nat := 0
  /-- A STEP (not an identification after insertion) uses the slot. -/
  step     : Bool := false
  /-- The request block sent and the ephemeral scalar drawn for it (R410). -/
  request  : List Byte := []
  ephem    : Nat := 0
  reply    : List Byte := []
  /-- T=1: IFSC, next send number, segments received, remaining segments to send (R413, R414). -/
  ifsc     : Nat := 32
  ns       : Nat := 0
  nr       : Nat := 0
  /-- The last block sent over T=1, and whether a resynchronisation has been tried. -/
  lastTx   : List Byte := []
  resynced : Bool := false
  rxSeg    : List Byte := []
  txSeg    : List (List Byte) := []
  seg      : Nat := 0
  /-- The write that stage 4 of R419 makes: x, its block, and the WSEQ it expects. -/
  writeX   : Nat := 0
  writeB   : Nat := 0
  expect   : Nat := 0
  repeated : Bool := false
  /-- Shares that the running STEP has read (R422). -/
  found    : List Share := []
deriving DecidableEq, Repr

/-- A roster entry (R416). -/
structure Custodian where
  custId : List Byte
  pubKey : List Byte
  group  : Nat
deriving DecidableEq, Repr

/-- STATE of SLT_CER_STAT (R428). -/
inductive CerPhase where
  | idle | approving | postQuorum | executing | exportOpen
deriving DecidableEq, Repr

/-- The ceremony in progress (R415 to R427). -/
structure Ceremony where
  typ      : Nat
  target   : Nat
  param    : Nat
  subject  : List Byte
  digest   : List Byte
  required : Nat
  mask     : Nat
  counted  : List (List Byte) := []
  /-- Custodians enrolled by OWNERSHIP or ENROL: identifier, public key, group. -/
  enrolled : List Custodian := []
  /-- Shares formed by ROOT_BACKUP, and per confirmed or unconfirmed write the custodian and x (R421, R425). -/
  shares   : List (List Byte) := []
  wrote    : List (List Byte × Nat) := []
  pendingW : List (List Byte × Nat) := []
  read     : List Share := []
  stepNo   : Nat := 0
  unconf   : Nat := 0
  post     : Nat := 0
  /-- AON count at which the ceremony, or its export window, ends (R426, R427). -/
  endAt    : Nat := 0
  /-- The slot that a running STEP serves. -/
  stepSlot : Option Nat := none
deriving DecidableEq, Repr

/-- The slate port and ceremony engine. -/
structure SltState where
  cause    : Word := 0
  mask     : Word := 0
  slots    : SMap Slot := []
  ctl      : Nat := 0
  status   : Nat := 0
  busy     : Bool := false
  phase    : CerPhase := .idle
  target   : Nat := 0
  ctype    : Nat := 0
  param    : Word := 0
  slotSel  : Nat := 0
  subj     : List Byte := List.replicate 48 0
  cerNo    : Nat := 0
  cer      : Option Ceremony := none
  /-- Gable whose export window is open (R427). -/
  exportG  : Option Nat := none
  roster   : List Custodian := []
  /-- Quorum table: M and group mask of a CTYPE (R416). -/
  quorum   : SMap (Nat × Nat) := []
  owned    : Bool := false
  /-- Journal: next sector and byte, SEQ of the last record (R423). -/
  jSector  : Nat := 0
  jOff     : Nat := 0
  jSeq     : Nat := 0
deriving DecidableEq, Repr

end Sys2Proof.Machine
end

