-- ==== Sys2Proof/Machine/SysState.lean ====
section
/-! DEFINITION. State of the system controller and telemetry (16_system_control.md, 17_electrical_package.md). -/

namespace Sys2Proof.Machine

/-- Power and boot state (R452, R457): `inReset` is a device reset before the boot ROM has run, `stuck` the boot ROM held at step 4 (R467). -/
inductive PowerPhase where
  | vault | standby | inReset | stuck | recovery | active | idle | prep
deriving DecidableEq, Repr

/-- A power command in progress (R453); `wake` is a wake that no command asked for. -/
inductive PwrRun where
  | none | toIdle | toActive | toPrep | wake
deriving DecidableEq, Repr

/-- Purpose of a SET on the voltage-identification interface that awaits its acknowledgment (R484 to R487). -/
inductive VidUse where
  | none | boot | toIdle | toActive | recompute
deriving DecidableEq, Repr

/-- TIME_STATE (R468). -/
inductive TimePhase where
  | unset | synchronised | holdover
deriving DecidableEq, Repr

/-- Counters of the current snapshot that the module keeps (R472). -/
structure SnapCounts where
  onMin    : Nat := 0
  powerUps : Nat := 0
  vaultIn  : Nat := 0
  colds    : Nat := 0
  tempHist : SMap Nat := []
  eq85     : Nat := 0
  vcore    : SMap Nat := []
  flWarn   : SMap Nat := []
  flRetire : SMap Nat := []
  rowSpare : SMap Nat := []
  quar     : Nat := 0
  evSrc    : SMap Nat := []
  ctrjPool : Nat := 0
  ctrjLog  : Nat := 0
  drbg     : Nat := 0
  entropy  : Nat := 0
  watchdog : Nat := 0
  galFloor : Nat := 0
  imgGen   : Nat := 0
  imgDig   : List Byte := List.replicate 48 0
deriving DecidableEq, Repr

/-- The truss map (R462). -/
structure TrussMap where
  mapped  : Bool := false
  phys    : SMap Nat := []
  spares  : List Nat := []
  retired : Nat := 0
  spared  : Nat := 0
deriving DecidableEq, Repr

/-- System controller: registers and internal state cleared by device reset unless said otherwise. -/
structure SysState where
  cause     : Word := 0
  mask      : Word := 0
  isumMask  : BitVec 12 := 0
  power     : PowerPhase := .inReset
  rstReason : Nat := 0
  rstCtl    : Nat := 0
  pwrCtl    : Nat := 0
  pwrStatus : Nat := 0
  pwrRun    : PwrRun := .none
  readyOff  : Bool := false
  /-- The truss clocks are stopped (R451, R453). -/
  clocksOff : Bool := false
  wakeDb    : Bool := false
  bootCtl   : Nat := 0
  runSlot   : Nat := 3
  svn       : Nat := 0
  calDef    : Bool := false
  fwDigest  : List Byte := List.replicate 48 0
  recovAddr : Dword := 0
  recovLen  : Word := 0
  recovCtl  : Nat := 0
  recovStat : Nat := 0
  recovBusy : Bool := false
  trussEn   : Nat := 0
  map       : TrussMap := {}
  quar      : Word := 0
  forge     : Word := 0
  pool      : List (List Byte) := []
  entFail   : BitVec 4 := 0
  entOn     : BitVec 4 := 0
  qNonce    : SMap Word := []
  qCtl      : Nat := 0
  qStatus   : Nat := 0
  quote     : List Byte := []
  tNonce    : List Byte := List.replicate 32 0
  nonceAt   : Option Nat := none
  tCtl      : Nat := 0
  tStatus   : Nat := 0
  tBuf      : SMap Word := []
  time      : Nat := 0
  timeLatch : Nat := 0
  timePhase : TimePhase := .unset
  /-- A SET has succeeded within the last 3,600 s (R468). -/
  setRecent : Bool := false
  /-- This rafter's route to a synchronised ridge was up at its last measurement (R445, R468). -/
  ridgeSync : Bool := false
  /-- The time tick runs at half rate until time meets the authority's (R470). -/
  slew      : Bool := false
  cert      : List Byte := []
  spiStatus : Byte := 0
  fallback  : Bool := false
deriving DecidableEq, Repr

/-- Retained on the Eave die (R460, R461, R468) and in the one-time programmable array (R463). -/
structure RetainedState where
  pref     : Nat := 0
  tries    : Nat := 0
  rbReq    : Nat := 0
  baseAon  : Nat := 0
  baseTime : Nat := 0
  timeSet  : Bool := false
  /-- Identity seed of 32 bytes, none while unprogrammed. -/
  seed     : Option (List Byte) := none
deriving DecidableEq, Repr

/-- Telemetry: registers, counters and the write position of snapshots (R471 to R474, R480). -/
structure TelState where
  cause    : Word := 0
  mask     : Word := 0
  counts   : SnapCounts := {}
  snapSeq  : Nat := 0
  snapPos  : Nat := 0
  /-- Erases of the counter journal's sectors, from which CTRJ_ERASE follows (R472). -/
  erases   : SMap Nat := []
deriving DecidableEq, Repr

/-- Lands, supplies, regulator and JTAG (17_electrical_package.md). -/
structure ElecState where
  mainOk   : Bool := true
  vaonOk   : Bool := true
  /-- Code acknowledged by the regulator, code requested, VID use, retries (R484 to R487). -/
  vid      : Nat := 0x64
  vidReq   : Nat := 0x64
  vidUse   : VidUse := .none
  vidTry   : Nat := 0
  vidAlert : Bool := false
  /-- The code before the last SET, while the VGLITCH_CORE window may still be widened (R487). -/
  vidOld   : Option Nat := none
  temp     : Int := 0
  jtag     : JtagInstr := .idcode
deriving DecidableEq, Repr

end Sys2Proof.Machine
end

