-- ==== Sys2Proof/Machine/State.lean ====
section
/-! DEFINITION. The module's whole state, why a command can stop, and the state after reset. -/

namespace Sys2Proof.Machine

/-- A shadowed pair (R12, R371): the pending value with its initiator, whether the pair is working, and whether its
halves disagree. -/
structure Pair where
  pend : Option (Word × Who) := none
  work : Bool := false
  bad  : Bool := false
deriving DecidableEq, Repr

/-- The LA-7128, plain data. Each block's registers and internal state stand in a structure of its own. -/
structure State where
  hqi     : HqiState := {}
  rfb     : ReedState := {}
  img     : ImgState := {}
  gte     : GteState := {}
  msu     : MsuState := {}
  ks      : KsState := {}
  flash   : FlashDie := {}
  flc     : FlcState := {}
  eav     : EaveState := {}
  slt     : SltState := {}
  btn     : BtnState := {}
  sys     : SysState := {}
  ret     : RetainedState := {}
  tel     : TelState := {}
  elec    : ElecState := {}
  cores   : SMap Core := []
  trusses : SMap Truss := []
  pke     : PkeState := {}
  sym     : SymState := {}
  svc     : SvcState := {}
  /-- Shadowed pairs by the management offset of X (R12). -/
  pairs   : SMap Pair := []
  /-- What has left the block, newest first: the model's own record of its outputs. -/
  out     : List Output := []
  /-- The model's own counter of free values taken. -/
  free    : Nat := 0
  /-- The commands that wait, first in, first out: the model's own queue. -/
  pending : List Instr := []
deriving DecidableEq, Repr

/-- Why the machine stops with a fault: never. The spec gives every command an effect, or an undefined result within a
gable after which the module goes on (R2), so nothing raises a fault. -/
inductive Fault where
deriving DecidableEq, Repr

/-- Why a command is refused: it has no meaning in this model. -/
inductive Refusal where
  /-- Raised by exec's arms for a command that is not modelled yet. Safe: nothing is claimed of it. -/
  | notModelled (mnemonic : String)
deriving DecidableEq, Repr

/-- The machine right after reset: a factory-fresh module whose main die comes out of device reset, before the boot
ROM has run. Every register holds the spec's reset value, or the one its log entry names. -/
def State.reset : State := {}

end Sys2Proof.Machine
end

