-- ==== Sys2Proof/Machine/Ops.lean ====
section
/-! DEFINITION. The named operations that every block shares: status codes, cores and gables, fuses and lifecycle,
causes, events, outputs and free values. -/

namespace Sys2Proof.Machine

/-- What a meaning answers. -/
abbrev Res := Host.Outcome State Fault Refusal

/-! ### Status codes (R13) -/

abbrev stOk : Nat := 0
abbrev stVerifyFailed : Nat := 1
abbrev stStateRefused : Nat := 2
abbrev stPolicyRefused : Nat := 3
abbrev stRange : Nat := 4
abbrev stExhausted : Nat := 5
abbrev stAborted : Nat := 6
abbrev stIntegrity : Nat := 7
abbrev stNotPermitted : Nat := 8
abbrev stInvalidKey : Nat := 9
abbrev stUnsupported : Nat := 10
abbrev stSuspended : Nat := 11
abbrev stLinkLost : Nat := 12
abbrev stDivergent : Nat := 13

/-- The first check of an ordered list that fails, by its status; OK where all pass. -/
def firstFail : List (Bool × Nat) → Nat
  | [] => stOk
  | (ok, st) :: cs => if ok then firstFail cs else st

/-- Number (from 1) of the first check that fails, with its status. -/
def firstFailAt (k : Nat) : List (Bool × Nat) → Option (Nat × Nat)
  | [] => none
  | (ok, st) :: cs => if ok then firstFailAt (k + 1) cs else some (k, st)

/-! ### Cores -/

/-- A logical core's number: 4 × truss + core, or 128 for the warden. -/
def coreNum : CoreId → Nat
  | .truss t c => 4 * t.val + c.val
  | .warden => 128

/-- The warden core's number. -/
abbrev wardenNum : Nat := 128

/-- The core numbered `n`. -/
def State.core (s : State) (n : Nat) : Core := SMap.get {} s.cores n

/-- Put core `n`. -/
def State.setCore (s : State) (n : Nat) (c : Core) : State := { s with cores := SMap.set {} s.cores n c }

/-- Change core `n`. -/
def State.updCore (s : State) (n : Nat) (f : Core → Core) : State := s.setCore n (f (s.core n))

/-- The truss numbered `t`. -/
def State.truss (s : State) (t : Nat) : Truss := SMap.get {} s.trusses t

/-- Change truss `t`. -/
def State.updTruss (s : State) (t : Nat) (f : Truss → Truss) : State :=
  { s with trusses := SMap.set {} s.trusses t (f (s.truss t)) }

/-- Truss of a core number. -/
def trussOf (n : Nat) : Nat := n / 4

/-- Logical core within its truss; 0 on the warden. -/
def coreInTruss (n : Nat) : Nat := if n = wardenNum then 0 else n % 4

/-- The core numbers of a truss. -/
def coresOfTruss (t : Nat) : List Nat := [4 * t, 4 * t + 1, 4 * t + 2, 4 * t + 3]

/-- General register `n` of a core. -/
def Core.reg (c : Core) (n : Nat) : Word := SMap.get 0 c.g n

/-- Write general register `n`. g0 is an ordinary register (R251). -/
def Core.setReg (c : Core) (n : Nat) (v : Word) : Core := { c with g := SMap.set 0 c.g n v }

/-- Accumulator `n`. -/
def Core.acc (c : Core) (n : Nat) : BitVec 40 := SMap.get 0 c.a n

/-- Write accumulator `n`. -/
def Core.setAcc (c : Core) (n : Nat) (v : BitVec 40) : Core := { c with a := SMap.set 0 c.a n v }

/-- ST.PL (R252). -/
def Core.pl (c : Core) : Nat := fld c.st 8 2

/-- ST.GIE (R252). -/
def Core.gie (c : Core) : Bool := bitOf c.st.toNat 10

/-- ST.PRECISE (R252). -/
def Core.precise (c : Core) : Bool := bitOf c.st.toNat 11

/-! ### Bit-field writes -/

/-- Replace `len` bits from bit `lo` of a word. -/
def setFld (w : Word) (lo len v : Nat) : Word :=
  let m : Word := BitVec.ofNat 32 ((2 ^ len - 1) <<< lo)
  (w &&& ~~~m) ||| (BitVec.ofNat 32 (v <<< lo) &&& m)

/-- Set bit `i` of a word. -/
def setBit (w : Word) (i : Nat) : Word := w ||| BitVec.ofNat 32 (2 ^ i)

/-- Clear the bits of a word that a W1C write names (R10). -/
def w1c (w v : Word) : Word := w &&& ~~~v

/-! ### Fuses and lifecycle (R390, R393) -/

/-- A logical fuse reads as blown when either half is. -/
def fuseBits (s : State) : BitVec 1024 := s.eav.fuses.halfA ||| s.eav.fuses.halfB

/-- `len` fuses from number `lo`, as a number. -/
def fuseFld (s : State) (lo len : Nat) : Nat := fld (fuseBits s) lo len

/-- The module serial (R390). -/
def serialOf (s : State) : Nat := fuseFld s 0 128

/-- Serial as 16 bytes, SYS_SERIAL0 first. -/
def serialBytes (s : State) : List Byte := leBytes 16 (serialOf s)

/-- The highest lifecycle code whose fuses are all blown, with DEV (R393): 0 FACTORY, 1 SHIPPED, 2 OWNED,
3 DECOMMISSIONED, 4 TERMINAL, 5 DEV, as EAV_LC reports them. -/
def lifecycle (s : State) : Nat :=
  let lc := fuseFld s 136 4
  let dev := fuseFld s 140 1
  if lc = 0b1111 then 4 else if lc = 0b0111 then 3 else if dev = 1 then 5
  else if lc = 0b0011 then 2 else if lc = 0b0001 then 1 else 0

abbrev lcFactory : Nat := 0
abbrev lcShipped : Nat := 1
abbrev lcOwned : Nat := 2
abbrev lcDecom : Nat := 3
abbrev lcTerminal : Nat := 4
abbrev lcDev : Nat := 5

/-- DECOMMISSIONED or TERMINAL. -/
def retiredLc (s : State) : Bool := lifecycle s == lcDecom || lifecycle s == lcTerminal

/-- The fused minimum mode (R27, R390). -/
def minMode (s : State) : Nat :=
  if fuseFld s 142 1 = 1 then 2 else if fuseFld s 141 1 = 1 then 1 else 0

/-- Blow both halves of a logical fuse (R390). -/
def blowFuse (i : Nat) (s : State) : State :=
  let b : BitVec 1024 := BitVec.ofNat 1024 (2 ^ i)
  { s with eav := { s.eav with fuses := ⟨s.eav.fuses.halfA ||| b, s.eav.fuses.halfB ||| b⟩ } }

/-- Blow every fuse of a list. -/
def blowFuses (is : List Nat) (s : State) : State := is.foldl (fun t i => blowFuse i t) s

/-! ### Gables (R43, R61) -/

/-- Has the latch word been found mismatched (R371)? -/
def latchBad (s : State) (w : LatchWord) : Bool := s.img.latchBad.contains w

/-- The latched GABLE section of `g`; a range whose latch word is mismatched reads as empty (R371). -/
def gableCfg (s : State) (g : Nat) : GableCfg :=
  let c := SMap.get {} s.img.latched.gables g
  let cut := fun (kind n : Nat) => if latchBad s (.range g kind) then 0 else n
  { c with
    keyCount := cut 0 c.keyCount
    ctrCount := cut 1 c.ctrCount
    queueCount := cut 2 c.queueCount
    sealedLen := cut 3 c.sealedLen
    flashSectors := cut 4 c.flashSectors
    resCount := cut 5 c.resCount }

/-- The trusses in force for `g`, as a mask (R61). -/
def trussMaskOf (s : State) (g : Nat) : Nat := SMap.get 0 s.img.trusses g

/-- Is gable `g` formed? -/
def formed (s : State) (g : Nat) : Bool := decide (1 ≤ g ∧ g ≤ 63) && decide (trussMaskOf s g ≠ 0)

/-- The trusses of a mask, ascending. -/
def maskList (m : Nat) : List Nat := (List.range 32).filter fun i => bitOf m i

/-- The gables that are formed, ascending. -/
def formedGables (s : State) : List Nat := (List.range 64).filter fun g => formed s g

/-- The gable that owns truss `t`; 0 where none does. -/
def ownerOf (s : State) (t : Nat) : Nat := ((formedGables s).find? fun g => bitOf (trussMaskOf s g) t).getD 0

/-- The gable of a core: 0 on the warden. -/
def gableOfCore (s : State) (n : Nat) : Nat := if n = wardenNum then 0 else ownerOf s (trussOf n)

/-- The mode of gable `g` (R25). -/
def modeOf (s : State) (g : Nat) : Nat := (gableCfg s g).mode

/-- Is `g` a Pavane gable? -/
def isPavane (s : State) (g : Nat) : Bool := formed s g && modeOf s g == 2

/-- Logical cores per truss of a gable (R25). -/
def coresPer (s : State) (g : Nat) : Nat := if isPavane s g then 2 else 4

/-- Is truss `t` quarantined (R296)? -/
def quarantined (s : State) (t : Nat) : Bool := bitOf s.sys.quar.toNat t

/-- The trusses of `g` outside quarantine. -/
def liveTrusses (s : State) (g : Nat) : List Nat := (maskList (trussMaskOf s g)).filter fun t => !quarantined s t

/-! ### Causes -/

/-- The blocks of R9 in order. -/
inductive Block where
  | sys | eav | gte | hqi | rfb | pke | sym | msu | flc | slt | btn | tel
deriving DecidableEq, Repr

/-- Set bit `i` of a block's ICAUSE register. -/
def cause (b : Block) (i : Nat) (s : State) : State :=
  match b with
  | .sys => { s with sys := { s.sys with cause := setBit s.sys.cause i } }
  | .eav => { s with eav := { s.eav with cause := setBit s.eav.cause i } }
  | .gte => { s with gte := { s.gte with cause := setBit s.gte.cause i } }
  | .hqi => { s with hqi := { s.hqi with cause := setBit s.hqi.cause i } }
  | .rfb => { s with rfb := { s.rfb with cause := setBit s.rfb.cause i } }
  | .pke => { s with pke := { s.pke with cause := setBit s.pke.cause i } }
  | .sym => { s with sym := { s.sym with cause := setBit s.sym.cause i } }
  | .msu => { s with msu := { s.msu with cause := setBit s.msu.cause i } }
  | .flc => { s with flc := { s.flc with cause := setBit s.flc.cause i } }
  | .slt => { s with slt := { s.slt with cause := setBit s.slt.cause i } }
  | .btn => { s with btn := { s.btn with cause := setBit s.btn.cause i } }
  | .tel => { s with tel := { s.tel with cause := setBit s.tel.cause i } }

/-- A block's ICAUSE register. -/
def causeOf (b : Block) (s : State) : Word :=
  match b with
  | .sys => s.sys.cause | .eav => s.eav.cause | .gte => s.gte.cause | .hqi => s.hqi.cause
  | .rfb => s.rfb.cause | .pke => s.pke.cause | .sym => s.sym.cause | .msu => s.msu.cause
  | .flc => s.flc.cause | .slt => s.slt.cause | .btn => s.btn.cause | .tel => s.tel.cause

/-- A block's IMASK register. -/
def maskOf (b : Block) (s : State) : Word :=
  match b with
  | .sys => s.sys.mask | .eav => s.eav.mask | .gte => s.gte.mask | .hqi => s.hqi.mask
  | .rfb => s.rfb.mask | .pke => s.pke.mask | .sym => s.sym.mask | .msu => s.msu.mask
  | .flc => s.flc.mask | .slt => s.slt.mask | .btn => s.btn.mask | .tel => s.tel.mask

/-- The blocks with their number in SYS_ISUM (R475). -/
def blocks : List (Block × Nat) :=
  [(.sys, 0), (.eav, 1), (.gte, 2), (.hqi, 3), (.rfb, 4), (.pke, 5), (.sym, 6), (.msu, 7), (.flc, 8), (.slt, 9),
   (.btn, 10), (.tel, 11)]

/-- SYS_ISUM (R475): bit n while any cause of block n is set and unmasked. -/
def isum (s : State) : Nat :=
  (blocks.map fun p => if causeOf p.1 s &&& ~~~maskOf p.1 s = 0 then 0 else 2 ^ p.2).sum

/-- IRQ_N is driven low (R476). -/
def irqLow (s : State) : Bool :=
  (s.sys.power == .active || s.sys.power == .idle || s.sys.power == .prep || s.sys.power == .recovery)
    && decide (isum s &&& (0xFFF - s.sys.isumMask.toNat) ≠ 0)

/-- SYSTEM, the warden's level input (R303): any cause of any block, whatever the masks hold. -/
def systemPending (s : State) : Bool := blocks.any fun p => decide (causeOf p.1 s ≠ 0)

/-! ### Events, outputs, free values -/

/-- Eave source numbers (R49). -/
abbrev srcLockstep : Nat := 0x10
abbrev srcShadow : Nat := 0x11
abbrev srcBusParity : Nat := 0x12
abbrev srcPrivForge : Nat := 0x14
abbrev srcDivergent : Nat := 0x15

/-- A detection or an operational event joins the arbitration step in progress (R380), with its DETAIL bytes. -/
def raise (code : Nat) (detail : List Byte) (s : State) : State :=
  { s with eav := { s.eav with
      detected := s.eav.detected ++ [(code, padTo 16 detail)]
      detAon := if s.eav.detected.isEmpty then s.eav.aon else s.eav.detAon } }

/-- Something leaves the block. -/
def emit (o : Output) (s : State) : State := { s with out := o :: s.out }

/-- Emit several outputs, the first one first. -/
def emitAll (os : List Output) (s : State) : State := os.foldl (fun t o => emit o t) s

/-- Take `n` free bytes. -/
def drawBytes (n : Nat) (s : State) : List Byte × State :=
  ((List.range n).map fun i => Config.freeByte (s.free + i), { s with free := s.free + n })

/-- A free 32-bit word. -/
def drawWord (s : State) : Word × State :=
  let p := drawBytes 4 s
  (BitVec.ofNat 32 (leNat p.1), p.2)

/-- A free 64-bit value. -/
def drawDword (s : State) : Dword × State :=
  let p := drawBytes 8 s
  (BitVec.ofNat 64 (leNat p.1), p.2)

/-- A free number below `m` (0 where `m` is 0): some value, nothing constrains which. -/
def drawBelow (m n : Nat) (s : State) : Nat × State :=
  let p := drawBytes n s
  (leNat p.1 % m, p.2)

/-! ### Power -/

/-- The main die runs firmware: Active, Idle or after STANDBY_PREP (R452, R453). -/
def powered (s : State) : Bool := s.sys.power == .active || s.sys.power == .idle || s.sys.power == .prep

/-- The truss clocks run (R453). -/
def trussClocks (s : State) : Bool := powered s && !s.sys.clocksOff

/-- The warden core runs (R297, R457). -/
def wardenUp (s : State) : Bool := powered s && decide ((s.core wardenNum).phase ≠ .stopped)

/-- The endpoint and the management space answer (R452, R461). -/
def answers (s : State) : Bool := powered s || s.sys.power == .recovery

/-- POWER of an event-ring entry (R388): 0 Vault, 1 Standby, 2 Idle, 3 Active. -/
def powerCode (s : State) : Nat :=
  match s.sys.power with
  | .vault => 0 | .standby => 1 | .idle => 2 | _ => 3

end Sys2Proof.Machine
end

