-- ==== Sys2Proof/Machine/Gates.lean ====
section
/-! DEFINITION. Target gates (11_target_gates.md): initiator tags, the gate decision, fault records and the address
maps of R257 and R258. -/

namespace Sys2Proof.Machine

/-- An initiator tag (R327). CLASS: 0 core, 1 HQI, 2 engine, 3 debug. -/
structure Tag where
  gable  : Nat
  pl     : Nat
  cls    : Nat
  unit   : Nat := 0
  truss  : Nat := 0
  core   : Nat := 0
  warden : Bool := false
deriving DecidableEq, Repr

/-- The tag as the 32-bit word of a fault record (R327). -/
def tagWord (t : Tag) : Word :=
  mkWord [(24, t.unit), (23, b2n t.warden), (21, t.core), (16, t.truss), (12, t.cls), (8, t.pl), (0, t.gable)]

/-- The tag of a core's access at level `pl`, with class `cls` (R328). -/
def coreTag (s : State) (n pl cls : Nat) : Tag :=
  if n = wardenNum then ⟨0, 0, cls, 0, 0, 0, true⟩
  else ⟨gableOfCore s n, pl, cls, 0, trussOf n, coreInTruss n, false⟩

/-- The tag of a debug access through core `n` (R327, R328): no core issues it, so TRUSS, CORE and WARDEN are 0. -/
def debugTag (s : State) (n : Nat) : Tag := ⟨gableOfCore s n, if n = wardenNum then 0 else (s.core n).pl, 3, 0, 0, 0, false⟩

/-- The tag of a management-space access (R328). -/
def whoTag (s : State) : Who → Tag
  | .pf => ⟨0, 1, 1, 0, 0, 0, false⟩
  | .vf _ => ⟨0, 1, 1, 0, 0, 0, false⟩
  | .spi => ⟨0, 1, 1, 1, 0, 0, false⟩
  | .warden => ⟨0, 0, 0, 0, 0, 0, true⟩
  | .core t c => coreTag s (4 * t.val + c.val) ((s.core (4 * t.val + c.val)).pl) 0

/-- Target identifiers (R47, R329). -/
abbrev tgtSealed : Nat := 0x40
abbrev tgtFlash : Nat := 0x41
abbrev tgtPort : Nat := 0x60
abbrev tgtSealed0 : Nat := 0x61
abbrev tgtFlash0 : Nat := 0x62
abbrev tgtWarden : Nat := 0x63
abbrev tgtNone : Nat := 0xFF

/-- Size of a target in bytes, for the latching of entries (R330). -/
def targetSize (s : State) (t : Nat) : Nat :=
  if t < 0x20 then 0x40000 else if t < 0x40 then 0x10000
  else if t = tgtSealed then 0x80000000
  else if t = tgtFlash then (16384 - (5120 + s.img.latched.partition.keys + s.img.latched.partition.ctrj
    + s.img.latched.partition.cerj + s.img.latched.partition.life)) * 4096
  else 0x100000

/-- First sector of the gable service-program area (R42). -/
def svcAreaBase (p : Partition) : Nat := 5120 + p.keys + p.ctrj + p.cerj + p.life

/-- Kinds of access (R344): 0 read, 1 write, 2 execute. -/
abbrev kRead : Nat := 0
abbrev kWrite : Nat := 1
abbrev kExec : Nat := 2

/-- Reasons of a refusal (R344). -/
abbrev rNoMatch : Nat := 0
abbrev rEntryPerm : Nat := 1
abbrev rStraddle : Nat := 2
abbrev rOwner : Nat := 3
abbrev rMonitorOnly : Nat := 4
abbrev rUnitOnly : Nat := 5
abbrev rDebugLocked : Nat := 6
abbrev rUnmapped : Nat := 7

/-- A gate's decision: admitted, or refused for a reason with the deciding entry where one decided. -/
inductive Decision where
  | pass
  | refuse (reason : Nat) (entry : Option Nat)
deriving DecidableEq, Repr

/-- The gable's window: sealed offsets [base, base + length). -/
def windowOf (s : State) (g : Nat) : Nat × Nat := ((gableCfg s g).sealedBase, (gableCfg s g).sealedLen)

/-- Do [o, o + n) and [b, b + m) meet? -/
def meets (o n b m : Nat) : Bool := overlaps o n b m

/-- Is any byte of [o, o + n) in the tariff store of a gable (R257, R332)? -/
def inTariffStore (s : State) (o n : Nat) : Bool :=
  (formedGables s).any fun g =>
    let w := windowOf s g
    decide (0x100000 ≤ w.2) && meets o n (w.1 + w.2 - 0x100000) 0x100000

/-- Does a debug-locked region hold a byte of the extent (R339)? -/
def debugLocked (s : State) (tgt o n : Nat) : Bool :=
  let p := s.img.latched.partition
  tgt == tgtSealed0 || (tgt == tgtSealed && inTariffStore s o n)
    || (tgt == tgtFlash0 && (meets o n (5120 * 4096) ((p.keys + p.ctrj) * 4096)))
    || (tgt == 0x55 && (meets o n 0x1000 0x400 || meets o n 0x80000 0x20000))

/-- The gable that a target belongs to, for OWNER and the default map (R332, R333), at first offset `o`. -/
def targetOwner (s : State) (tgt o : Nat) : Option Nat :=
  if tgt < 0x40 then
    let g := ownerOf s (tgt % 0x20)
    if g = 0 then none else some g
  else if tgt = tgtSealed then
    (formedGables s).find? fun g => inside o 1 (windowOf s g).1 (windowOf s g).2
  else if tgt = tgtFlash then
    (formedGables s).find? fun g =>
      inside o 1 ((gableCfg s g).flashBase * 4096) ((gableCfg s g).flashSectors * 4096)
  else some 0

/-- Does the extent leave what gable `g` owns of the target (R332, OWNER)? -/
def notOwned (s : State) (g tgt o n : Nat) : Bool :=
  if tgt < 0x40 then ownerOf s (tgt % 0x20) != g
  else if tgt = tgtSealed then !inside o n (windowOf s g).1 (windowOf s g).2
  else if tgt = tgtFlash then !inside o n ((gableCfg s g).flashBase * 4096) ((gableCfg s g).flashSectors * 4096)
  else tgt != tgtPort

/-- The initiators that R218 admits to gable 0's sealed region; a sequencer's package fetch (R184) among them. -/
def sealed0Admits (t : Tag) : Bool :=
  (t.warden && t.pl == 0 && t.cls == 0) || (t.cls == 2 && t.gable == 0 && 2 ≤ t.unit && t.unit ≤ 4)
    || (t.cls == 1 && t.unit == 2)

/-- The fixed refusal of R332 with the lowest-numbered reason that applies, if any; UNMAPPED is the address map's. -/
def fixedRefusal (s : State) (t : Tag) (tgt o n k : Nat) : Option Nat :=
  if 1 ≤ t.gable ∧ t.gable ≤ 63 ∧ notOwned s t.gable tgt o n = true then some rOwner
  else if 1 ≤ t.pl ∧ ((tgt < 0x20 ∧ meets o n 0 0x2000 = true) ∨ (tgt = tgtSealed ∧ inTariffStore s o n = true)) then
    some rMonitorOnly
  else if (tgt = tgtFlash ∧ k = kWrite)
      ∨ (tgt = 0x55 ∧ t.warden = false ∧ (meets o n 0x1000 0x400 = true ∨ meets o n 0x80000 0x20000 = true))
      ∨ (tgt = tgtSealed0 ∧ sealed0Admits t = false) ∨ (tgt = tgtPort ∧ t.pl = 2) then some rUnitOnly
  else if t.cls = 3 ∧ debugLocked s tgt o n = true then some rDebugLocked
  else none

/-- An entry as it is latched (R330): LIMIT at most the target's last offset, and VALID clear where BASE lies beyond the
target or a truss target's truss is not assigned to the section's gable. -/
def latchGate (s : State) (x : GateEntry) : GateEntry :=
  { x with
    limit := min x.limit (targetSize s x.target - 1)
    valid := decide (x.base < targetSize s x.target)
      && (decide (0x40 ≤ x.target) || (x.gable != 0 && ownerOf s (x.target % 0x20) == x.gable)) }

/-- The latches of gable `g`'s entries, or of every gable's, are written (R60, R63, R330). -/
def latchGates (g : Option Nat) (s : State) : State :=
  { s with img := { s.img with latched := { s.img.latched with
    gates := s.img.latched.gates.map fun x => if g.getD x.gable = x.gable then latchGate s x else x } } }

/-- Does latched entry `x` take part in a decision: VALID, and its latch word's halves agree (R330, R371)? -/
def entryValid (s : State) (x : GateEntry) : Bool := x.valid && !latchBad s (.gate x.target x.entry)

/-- The valid entries of a target in ascending ENTRY order. -/
def entriesOf (s : State) (tgt : Nat) : List GateEntry :=
  (List.range 16).flatMap fun e => s.img.latched.gates.filter fun x => x.target == tgt && x.entry == e && entryValid s x

/-- A row of the default map (R333): offsets, highest level admitted as permissions per level, HQI classes. -/
structure DefaultRow where
  base  : Nat
  limit : Nat
  pl0   : Nat
  pl1   : Nat
  hqi   : Bool := false
deriving DecidableEq, Repr

/-- The default rows of a target (R333), permissions as bit 0 read, bit 1 write, bit 2 execute. -/
def defaultRows (s : State) (t : Tag) (tgt o : Nat) : List DefaultRow :=
  if tgt < 0x20 then [⟨0, 0x1FFF, 7, 0, false⟩, ⟨0x2000, 0x3FFFF, 7, 7, false⟩]
  else if tgt < 0x40 then [⟨0, 0xFFFF, 3, 3, false⟩]
  else if tgt = tgtSealed then
    match targetOwner s tgt o with
    | some g => [⟨(windowOf s g).1, (windowOf s g).1 + (windowOf s g).2 - 1, 3, 3, false⟩]
    | none => []
  else if tgt = tgtFlash then
    match targetOwner s tgt o with
    | some g => [⟨(gableCfg s g).flashBase * 4096,
        ((gableCfg s g).flashBase + (gableCfg s g).flashSectors) * 4096 - 1, 5, 1, false⟩]
    | none => []
  else if 0x50 ≤ tgt ∧ tgt ≤ 0x5B then
    [⟨0, 0xFFFFF, 3, if t.cls = 1 ∧ t.unit ≤ 1 then 3 else 0, true⟩]
  else if tgt = tgtSealed0 then [⟨0, 0x5FFFFFFF, 3, 0, true⟩]
  else if tgt = tgtFlash0 then [⟨0, 0x3FFFFFF, 5, 0, false⟩]
  else if tgt = tgtWarden then [⟨0, 0x3FFF, 3, 0, false⟩]
  else if tgt = tgtPort then [⟨0, 0xFF, 3, 3, false⟩]
  else []

/-- Does a default row pass the tag's gable, level and class at all (R333)? -/
def rowAdmits (s : State) (t : Tag) (tgt o : Nat) (d : DefaultRow) : Bool :=
  (tgt == tgtPort || targetOwner s tgt o == some t.gable)
    && (t.cls == 0 || t.cls == 2 || (t.cls == 1 && d.hqi) || (t.cls == 3 && lifecycle s == lcDev))
    && (if t.pl = 0 then decide (d.pl0 ≠ 0) else if t.pl = 1 then decide (d.pl1 ≠ 0) else false)

/-- The gate decision of R331, after the fixed refusals. -/
def gateEntries (s : State) (t : Tag) (tgt o n k : Nat) : Decision :=
  let last := o + n - 1
  match (entriesOf s tgt).find? fun x =>
      x.gable == t.gable && decide (t.pl ≤ x.priv) && bitOf x.cls t.cls && decide (x.base ≤ o)
        && decide (o ≤ x.limit) with
  | some x =>
    if x.limit < last then .refuse rStraddle (some x.entry)
    else if bitOf x.perm k then .pass else .refuse rEntryPerm (some x.entry)
  | none =>
    match (defaultRows s t tgt o).find? fun d =>
        rowAdmits s t tgt o d && decide (d.base ≤ o) && decide (o ≤ d.limit) with
    | some d =>
      if d.limit < last then .refuse rStraddle none
      else if bitOf (if t.pl = 0 then d.pl0 else d.pl1) k then .pass else .refuse rEntryPerm none
    | none => .refuse rNoMatch none

/-- The gate decision of R331 for an extent inside one target. -/
def gateDecide (s : State) (t : Tag) (tgt o n k : Nat) : Decision :=
  match fixedRefusal s t tgt o n k with
  | some r => .refuse r none
  | none => gateEntries s t tgt o n k

/-- Record a refusal (R343, R344): FIFO, counts and causes; a debug refusal also its event (R340). -/
def recordRefusal (t : Tag) (tgt o n k reason : Nat) (entry : Option Nat) (s : State) : State :=
  let info := mkWord [(24, s.gte.seq), (20, k), (16, reason), (12, b2n entry.isSome), (8, entry.getD 0), (0, tgt)]
  let r : FaultRec := ⟨tagWord t, info, BitVec.ofNat 32 o, BitVec.ofNat 32 n⟩
  let full := decide (16 ≤ s.gte.fifo.length)
  let s := { s with gte := { s.gte with
    seq := (s.gte.seq + 1) % 256
    fifo := if full then s.gte.fifo else s.gte.fifo ++ [r]
    gcnt := SMap.upd 0 s.gte.gcnt t.gable (satInc 0xFFFFFFFF) } }
  let s := cause .gte 0 (if full then cause .gte 1 s else s)
  if reason = rDebugLocked then
    let s := cause .gte 2 { s with gte := { s.gte with dbgCnt := satInc 0xFFFFFFFF s.gte.dbgCnt } }
    match s.gte.dbgEvent with
    | some a =>
      if s.eav.aon < a + 32768 then s
      else raise 0x43 (leBytes 4 (tagWord t).toNat ++ [BitVec.ofNat 8 tgt, 0, 0, 0] ++ leBytes 4 o)
        { s with gte := { s.gte with dbgEvent := some s.eav.aon } }
    | none => raise 0x43 (leBytes 4 (tagWord t).toNat ++ [BitVec.ofNat 8 tgt, 0, 0, 0] ++ leBytes 4 o)
        { s with gte := { s.gte with dbgEvent := some s.eav.aon } }
  else s

/-- Pass an access through its gate: whether it is admitted, and the state with any refusal recorded. -/
def gate (t : Tag) (tgt o n k : Nat) (s : State) : Bool × State :=
  match gateDecide s t tgt o n k with
  | .pass => (true, s)
  | .refuse r e => (false, recordRefusal t tgt o n k r e s)

/-- Where a core address lies: its own local data (which needs no gate), a target with an offset, or nowhere. -/
inductive Place where
  | own (off : Nat)
  | target (tgt off room : Nat)   -- `room`: bytes left in the region from here
  | nowhere
deriving DecidableEq, Repr

/-- The address map of R257 for truss cores and of R258 for the warden. -/
def mapAddr (s : State) (n a : Nat) : Place :=
  if n = wardenNum then
    if a < 0x4000 then .target tgtWarden a (0x4000 - a)
    else if 0x20000000 ≤ a ∧ a < 0x24000000 then .target tgtFlash0 (a - 0x20000000) (0x24000000 - a)
    else if 0x40000000 ≤ a ∧ a < 0x40C00000 then
      .target (0x50 + (a - 0x40000000) / 0x100000) (a % 0x100000) (0x100000 - a % 0x100000)
    else if 0x80000000 ≤ a ∧ a < 0xE0000000 then .target tgtSealed0 (a - 0x80000000) (0xE0000000 - a)
    else if 0xFFFFE000 ≤ a ∧ a < 0xFFFFE100 then .target tgtPort (a - 0xFFFFE000) (0xFFFFE100 - a)
    else .nowhere
  else
    let g := gableOfCore s n
    let c := gableCfg s g
    let t := trussOf n
    if a < 0x4000 then .own a
    else if 0x10000 ≤ a ∧ a < 0x20000 then
      if isPavane s g = true ∧ 0x18000 ≤ a then .nowhere
      else .target (0x20 + t) (a - 0x10000) ((if isPavane s g then 0x18000 else 0x20000) - a)
    else if 0x100000 ≤ a ∧ a < 0x140000 then .target t (a - 0x100000) (0x140000 - a)
    else if 0x20000000 ≤ a ∧ a < 0x20000000 + c.flashSectors * 4096 then
      .target tgtFlash (c.flashBase * 4096 + (a - 0x20000000)) (0x20000000 + c.flashSectors * 4096 - a)
    else if 0x80000000 ≤ a ∧ a + 0x100000 < 0x80000000 + c.sealedLen then
      .target tgtSealed (c.sealedBase + (a - 0x80000000)) (0x80000000 + c.sealedLen - 0x100000 - a)
    else if 0xFFFFE000 ≤ a ∧ a < 0xFFFFE100 then .target tgtPort (a - 0xFFFFE000) (0xFFFFE100 - a)
    else .nowhere

/-- Would the gates pass an access with tag `t` of `len` bytes from address `a` of core `n` (R257, R331, R332)? -/
def tagAdmits (s : State) (t : Tag) (n a len k : Nat) : Decision × Nat × Nat :=
  match mapAddr s n a with
  | .own off =>
    if off + len ≤ 0x4000 then (.pass, 0x20 + trussOf n, 0x4000 * coreInTruss n + off)
    else (.refuse rUnmapped none, 0x20 + trussOf n, 0x4000 * coreInTruss n + off)
  | .nowhere => (.refuse rUnmapped none, tgtNone, a)
  | .target tgt off room =>
    match fixedRefusal s t tgt off (min len room) k with
    | some r => (.refuse r none, tgt, off)
    | none => if room < len then (.refuse rUnmapped none, tgt, off) else (gateEntries s t tgt off len k, tgt, off)

/-- Would the gates pass a core's access at level `pl`? -/
def coreAdmits (s : State) (n pl a len k : Nat) : Decision × Nat × Nat := tagAdmits s (coreTag s n pl 0) n a len k

/-- Pass a core's access: the target and offset where it is admitted, and the state with any refusal recorded. -/
def coreGate (n pl a len k : Nat) (s : State) : Option (Nat × Nat) × State :=
  match coreAdmits s n pl a len k with
  | (.pass, tgt, off) => (some (tgt, off), s)
  | (.refuse r e, tgt, off) => (none, recordRefusal (coreTag s n pl 0) tgt off len k r e s)

/-- Pass a management-space access of one word through its block's gate. -/
def mgmtGate (who : Who) (off k : Nat) (s : State) : Bool × State :=
  gate (whoTag s who) (0x50 + off / 0x100000) (off % 0x100000) 4 k s

end Sys2Proof.Machine
end

