-- ==== Sys2Proof/Machine/Reed.lean ====
section
/-! DEFINITION. The Reed fabric's shared operations (10_reed_fabric.md): owners and permissions of queues, cells and
quotas, committing, and discarding. -/

namespace Sys2Proof.Machine

/-! ### Owners and quotas (R309, R316) -/

/-- The gable that a queue belongs to. -/
def queueOwner (s : State) (q : Nat) : Option Nat :=
  if q < 32 then some 0
  else if 2048 ≤ q then none
  else (formedGables s).find? fun g => inside q 1 (gableCfg s g).queueBase (gableCfg s g).queueCount

/-- May core `n` commit to the queue or sink (R309)? -/
def mayCommit (s : State) (n : Nat) (sink : Bool) (q : Nat) : Bool :=
  if sink then decide (q ≤ 1)
  else if n = wardenNum then (queueOwner s q).isSome
  else (queueOwner s q == some (gableOfCore s n) && gableOfCore s n != 0) || decide (q < 16)

/-- May core `n` take from the queue (R309)? -/
def mayTake (s : State) (n q : Nat) : Bool :=
  if n = wardenNum then decide (q < 32) else queueOwner s q == some (gableOfCore s n) && gableOfCore s n != 0

/-- A gable's quota of cells (R316). -/
def cellQuota (s : State) (g : Nat) : Nat :=
  if g = 0 then 1024 else if formed s g then (gableCfg s g).cellQuota else 0

/-- Cells that a gable holds. -/
def cellsUsed (s : State) (g : Nat) : Nat := SMap.get 0 s.rfb.used g

/-- Cells that a gable may still take. -/
def cellsFree (s : State) (g : Nat) : Nat := cellQuota s g - cellsUsed s g

/-- Cells of a packet of `k` words: 16 words fill one (R311). -/
def cellsOf (k : Nat) : Nat := (k + 15) / 16

/-- Count `n` cells more against a gable. -/
def addCells (g n : Nat) (s : State) : State :=
  { s with rfb := { s.rfb with used := SMap.upd 0 s.rfb.used g (· + n) } }

/-- Return `n` cells to a gable's quota. -/
def subCells (g n : Nat) (s : State) : State :=
  { s with rfb := { s.rfb with used := SMap.upd 0 s.rfb.used g (· - n) } }

/-- Return a packet's cells. -/
def freePacket (p : Packet) (s : State) : State := subCells p.prod (cellsOf p.words.length) s

/-- Return the cells of every packet of a list. -/
def freePackets (ps : List Packet) (s : State) : State := ps.foldl (fun t p => freePacket p t) s

/-! ### Queues -/

/-- The committed packets of queue `q`, oldest first. -/
def queueOf (s : State) (q : Nat) : List Packet := SMap.get [] s.rfb.queues q

/-- Put a queue. -/
def setQueue (q : Nat) (ps : List Packet) (s : State) : State :=
  { s with rfb := { s.rfb with queues := SMap.set [] s.rfb.queues q ps } }

/-- A packet becomes visible at the end of its queue (R320, R321). -/
def enqueue (q : Nat) (p : Packet) (s : State) : State := setQueue q (queueOf s q ++ [p]) s

/-- A packet reaches a sink. -/
def toSink (k : Nat) (p : Packet) (s : State) : State :=
  if k = 0 then { s with rfb := { s.rfb with sink0 := s.rfb.sink0 ++ [p] } }
  else { s with rfb := { s.rfb with sink1 := s.rfb.sink1 ++ [p] } }

/-! ### Contexts (R307) -/

/-- The number of a core's context at level `pl`: Supervisor contexts are odd. -/
def ctxOf (n pl : Nat) : Nat := 2 * n + (if pl = 1 then 1 else 0)

/-- A producer context. -/
def prodOf (s : State) (x : Nat) : ProdCtx := SMap.get {} s.rfb.prod x

/-- A consumer context. -/
def consOf (s : State) (x : Nat) : ConsCtx := SMap.get {} s.rfb.cons x

/-- Put a producer context. -/
def setProd (x : Nat) (p : ProdCtx) (s : State) : State :=
  { s with rfb := { s.rfb with prod := SMap.set {} s.rfb.prod x p } }

/-- Put a consumer context. -/
def setCons (x : Nat) (c : ConsCtx) (s : State) : State :=
  { s with rfb := { s.rfb with cons := SMap.set {} s.rfb.cons x c } }

/-- Gable whose quota the packets of a context's core count against (R316). -/
def ctxGable (s : State) (x : Nat) : Nat := gableOfCore s (x / 2)

/-- Core `n` no longer waits in TAKE (R315). -/
def dropWaiter (n : Nat) (s : State) : State :=
  { s with rfb := { s.rfb with
    waiters := (s.rfb.waiters.map fun e => (e.1, e.2.filter fun m => m != n)).filter fun e => !e.2.isEmpty } }

/-! ### Discarding (R318, R319) -/

/-- Discard the open packet of a context: its cells return, and COMMIT will answer ABORTED. -/
def discardProd (x : Nat) (s : State) : State :=
  let c := prodOf s x
  if c.isOpen then setProd x { c with words := [], discarded := true } (subCells (ctxGable s x) (cellsOf c.words.length) s)
  else s

/-- Discard the taken packet of a context: its cells return, reads answer zero and RELEASE answers ABORTED. -/
def discardCons (x : Nat) (s : State) : State :=
  match (consOf s x).pkt with
  | some p => setCons x { pkt := none, pos := 0, discarded := true } (freePacket p s)
  | none => s

/-- Discard every committed packet of the queues for which `f queue packet` holds. -/
def discardQueued (f : Nat → Packet → Bool) (s : State) : State :=
  let gone := s.rfb.queues.flatMap fun e => e.2.filter fun p => f e.1 p
  let kept := (s.rfb.queues.map fun e => (e.1, e.2.filter fun p => !f e.1 p)).filter fun e => !e.2.isEmpty
  freePackets gone { s with rfb := { s.rfb with queues := kept } }

/-- Discard every packet held by the sinks for which `f` holds. -/
def discardSinks (f : Packet → Bool) (s : State) : State :=
  let gone := (s.rfb.sink0 ++ s.rfb.sink1).filter f
  freePackets gone { s with rfb := { s.rfb with
    sink0 := s.rfb.sink0.filter fun p => !f p
    sink1 := s.rfb.sink1.filter fun p => !f p } }

/-- Discard the open packets of the producer contexts for which `f` holds. -/
def discardProds (f : Nat → ProdCtx → Bool) (s : State) : State :=
  ((s.rfb.prod.filter fun e => f e.1 e.2).map (·.1)).foldl (fun t x => discardProd x t) s

/-- Discard the taken packets of the consumer contexts for which `f` holds. -/
def discardConss (f : Nat → ConsCtx → Bool) (s : State) : State :=
  ((s.rfb.cons.filter fun e => f e.1 e.2).map (·.1)).foldl (fun t x => discardCons x t) s

/-- A function-level reset of function `fn` discards its packets wherever they are (R318). -/
def discardFn (fn : Nat) (s : State) : State :=
  let m := fun (p : Packet) => p.fn == some fn
  discardConss (fun _ c => match c.pkt with | some p => m p | none => false)
    (discardProds (fun _ c => c.fn == some fn) (discardSinks m (discardQueued (fun _ p => m p) s)))

/-- Truss quarantine discards what the truss's contexts hold (R319). -/
def discardTruss (t : Nat) (s : State) : State :=
  let mine := fun (x : Nat) => x / 2 != wardenNum && trussOf (x / 2) == t
  discardConss (fun x _ => mine x) (discardProds (fun x _ => mine x) s)

/-- A partial image's step 6 discards the gable's queues and contexts, and what it produced that waits in a queue of
gable 0 or in a sink (R319). -/
def discardGable (g : Nat) (s : State) : State :=
  let mine := fun (x : Nat) => x / 2 != wardenNum && ctxGable s x == g
  let qs := fun (q : Nat) (p : Packet) => queueOwner s q == some g || (queueOwner s q == some 0 && p.prod == g)
  discardConss (fun x _ => mine x)
    (discardProds (fun x _ => mine x) (discardSinks (fun p => p.prod == g) (discardQueued qs s)))

/-- PURGE discards every packet of every tenant gable (R319): those that a tenant gable produced or holds. -/
def discardTenants (s : State) : State :=
  let tenantQ := fun (q : Nat) (p : Packet) => p.prod != 0 || (queueOwner s q).any (· != 0)
  discardConss (fun x c => x / 2 != wardenNum || (match c.pkt with | some p => p.prod != 0 | none => false))
    (discardProds (fun x _ => x / 2 != wardenNum) (discardSinks (fun p => p.prod != 0) (discardQueued tenantQ s)))

/-- Device reset, ZEROIZE and TERMINAL discard every packet; every context and queue is empty (R319). -/
def discardAll (s : State) : State :=
  { s with rfb := { s.rfb with
    prod := []
    cons := []
    queues := []
    waiters := []
    used := []
    sink0 := []
    sink1 := []
    refused := [] } }

/-! ### The source word (R313) -/

/-- Source word of a packet that core `n` commits at level `pl`. -/
def sourceWord (s : State) (n pl : Nat) (fn : Option Nat) : Word :=
  mkWord [(24, fn.getD 0), (22, b2n fn.isSome), (18, b2n (pl == 1)), (16, if n = wardenNum then 2 else 0),
    (13, coreInTruss n), (8, if n = wardenNum then 0 else trussOf n), (0, gableOfCore s n)]

/-- Source word of a packet that the HQI (class 1) or the Batten link (class 3) commits for gable `g`. -/
def unitSource (g cls : Nat) (fn : Option Nat) : Word :=
  mkWord [(24, fn.getD 0), (22, b2n fn.isSome), (16, cls), (0, g)]

/-! ### Commit (R312, R323) -/

/-- Does sink 0 accept a packet of this type (R323)? -/
def sink0Admits (typ : Nat) : Bool := typ == 2 || typ == 3

/-- Does sink 1 accept a packet of this type from core `n` (R448): FORWARD, RETURN and CANCEL from any core, control
packets from the warden only. -/
def sink1Admits (n typ : Nat) : Bool :=
  decide (0x10 ≤ typ ∧ typ ≤ 0x12) || (n == wardenNum && decide (0x18 ≤ typ ∧ typ ≤ 0x1F))

end Sys2Proof.Machine
end

