-- ==== Sys2Proof/Machine/Sha.lean ====
section
/-! DEFINITION. SHA-2 (FIPS 180-4), HMAC (FIPS 198-1), and the key derivation of SP 800-108 in counter mode over
AES-CMAC. Published standards that the spec names by reference. -/

namespace Sys2Proof.Machine

/-- The largest number whose `k`-th power does not exceed `n`, below 2^bits. -/
def iroot (k n bits : Nat) : Nat :=
  (List.range bits).foldl (fun r i => let c := r + 2 ^ (bits - 1 - i); if c ^ k ≤ n then c else r) 0

/-- The first 80 primes. -/
def shaPrimes : List Nat :=
  [2, 3, 5, 7, 11, 13, 17, 19, 23, 29, 31, 37, 41, 43, 47, 53, 59, 61, 67, 71,
   73, 79, 83, 89, 97, 101, 103, 107, 109, 113, 127, 131, 137, 139, 149, 151, 157, 163, 167, 173,
   179, 181, 191, 193, 197, 199, 211, 223, 227, 229, 233, 239, 241, 251, 257, 263, 269, 271, 277, 281,
   283, 293, 307, 311, 313, 317, 331, 337, 347, 349, 353, 359, 367, 373, 379, 383, 389, 397, 401, 409]

/-- Fractional parts of cube roots, `b` bits each. -/
def shaK (b : Nat) : List Nat := shaPrimes.map fun p => iroot 3 (p * 2 ^ (3 * b)) (b + 3) % 2 ^ b

/-- Round constants of SHA-256. -/
def shaK256 : List Nat := (shaK 32).take 64

/-- Round constants of SHA-512 and SHA-384. -/
def shaK512 : List Nat := shaK 64

/-- Fractional parts of square roots of primes, `b` bits each. -/
def shaSqrt (b : Nat) : List Nat := shaPrimes.map fun p => iroot 2 (p * 2 ^ (2 * b)) (b + 5) % 2 ^ b

/-- Initial states: algorithm 0 SHA-256, 1 SHA-384, 2 SHA-512 (R191). -/
def shaInit (alg : Nat) : List Dword :=
  ((if alg = 0 then (shaSqrt 32).take 8 else if alg = 1 then ((shaSqrt 64).drop 8).take 8 else (shaSqrt 64).take 8)).map
    fun x => BitVec.ofNat 64 x

/-- Block length in bytes. -/
def shaBlockLen (alg : Nat) : Nat := if alg = 0 then 64 else 128

/-- Digest length in bytes. -/
def shaLen (alg : Nat) : Nat := if alg = 0 then 32 else if alg = 1 then 48 else 64

/-- Rotate right within `b` bits. -/
def rotr (b x n : Nat) : Nat := x / 2 ^ n + x % 2 ^ n * 2 ^ (b - n)

/-- The message schedule of one block: words of `b` bits, newest last. -/
def shaSchedule (b : Nat) (rounds : Nat) (ws : List Nat) : List Nat :=
  let s0 := fun (x : Nat) => if b = 32 then Nat.xor (Nat.xor (rotr b x 7) (rotr b x 18)) (x / 2 ^ 3)
    else Nat.xor (Nat.xor (rotr b x 1) (rotr b x 8)) (x / 2 ^ 7)
  let s1 := fun (x : Nat) => if b = 32 then Nat.xor (Nat.xor (rotr b x 17) (rotr b x 19)) (x / 2 ^ 10)
    else Nat.xor (Nat.xor (rotr b x 19) (rotr b x 61)) (x / 2 ^ 6)
  ((List.range (rounds - 16)).foldl (fun (r : List Nat) _ =>
    ((s1 (r.getD 1 0) + r.getD 6 0 + s0 (r.getD 14 0) + r.getD 15 0) % 2 ^ b) :: r) ws.reverse).reverse

/-- One compression. -/
def shaCompress (alg : Nat) (st : List Dword) (block : List Byte) : List Dword :=
  let b := if alg = 0 then 32 else 64
  let rounds := if alg = 0 then 64 else 80
  let m := 2 ^ b
  let ws := shaSchedule b rounds ((chunks (b / 8) block).map beNat)
  let S1 := fun (x : Nat) => if b = 32 then Nat.xor (Nat.xor (rotr b x 6) (rotr b x 11)) (rotr b x 25)
    else Nat.xor (Nat.xor (rotr b x 14) (rotr b x 18)) (rotr b x 41)
  let S0 := fun (x : Nat) => if b = 32 then Nat.xor (Nat.xor (rotr b x 2) (rotr b x 13)) (rotr b x 22)
    else Nat.xor (Nat.xor (rotr b x 28) (rotr b x 34)) (rotr b x 39)
  let h := st.map BitVec.toNat
  let out := (ws.zip (if alg = 0 then shaK256 else shaK512)).foldl (fun (v : List Nat) p =>
    let a := v.getD 0 0
    let bb := v.getD 1 0
    let c := v.getD 2 0
    let e := v.getD 4 0
    let f := v.getD 5 0
    let g := v.getD 6 0
    let ch := Nat.xor (Nat.land e f) (Nat.land (m - 1 - e) g)
    let maj := Nat.xor (Nat.xor (Nat.land a bb) (Nat.land a c)) (Nat.land bb c)
    let t1 := v.getD 7 0 + S1 e + ch + p.2 + p.1
    let t2 := S0 a + maj
    [(t1 + t2) % m, a, bb, c, (v.getD 3 0 + t1) % m, e, f, g]) h
  (h.zip out).map fun p => BitVec.ofNat 64 ((p.1 + p.2) % m)

/-- Compress whole blocks. -/
def shaBlocks (alg : Nat) (st : List Dword) (d : List Byte) : List Dword :=
  (chunks (shaBlockLen alg) d).foldl (shaCompress alg) st

/-- The standard padding after `total` bytes of which `tail` is the last part block. -/
def shaPad (alg total : Nat) (tail : List Byte) : List Byte :=
  let bl := shaBlockLen alg
  let lf := if alg = 0 then 8 else 16
  let z := (2 * bl - (tail.length % bl) - 1 - lf) % bl
  tail ++ [0x80] ++ List.replicate z 0 ++ beBytes lf (8 * total)

/-- The digest that a state spells. -/
def shaOut (alg : Nat) (st : List Dword) : List Byte :=
  (st.flatMap fun w => beBytes (if alg = 0 then 4 else 8) w.toNat).take (shaLen alg)

/-- SHA-2 of a message. -/
def sha (alg : Nat) (m : List Byte) : List Byte :=
  shaOut alg (shaBlocks alg (shaInit alg) (shaPad alg m.length m))

/-- SHA-384. -/
def sha384 (m : List Byte) : List Byte := sha 1 m

/-- SHA-256. -/
def sha256 (m : List Byte) : List Byte := sha 0 m

/-- The key of HMAC padded to a block and exclusive-ored with a pad byte. -/
def hmacKey (alg : Nat) (key : List Byte) (pad : Byte) : List Byte :=
  let k := if shaBlockLen alg < key.length then sha alg key else key
  (padTo (shaBlockLen alg) k).map (· ^^^ pad)

/-- HMAC. -/
def hmac (alg : Nat) (key m : List Byte) : List Byte :=
  sha alg (hmacKey alg key 0x5C ++ sha alg (hmacKey alg key 0x36 ++ m))

/-- ASCII bytes of a string. -/
def ascii (t : String) : List Byte := t.toList.map fun c => BitVec.ofNat 8 c.toNat

/-- SP 800-108 in counter mode over AES-CMAC: `n` bytes from a key, a label and a context, with a 32-bit counter
before the label, a zero byte after it, and a 32-bit length in bits at the end. -/
def kdf108 (key label ctx : List Byte) (n : Nat) : List Byte :=
  let rks := aesKeys key
  ((List.range ((n + 15) / 16)).flatMap fun i =>
    cmacOf 16 (aesEncWith rks) (beBytes 4 (i + 1) ++ label ++ [0] ++ ctx ++ beBytes 4 (8 * n))).take n

/-- SP 800-108 in counter mode over HMAC-SHA-384 (R411, R431), with the same fixed input. -/
def kdfHmac (key label ctx : List Byte) (n : Nat) : List Byte :=
  ((List.range ((n + 47) / 48)).flatMap fun i =>
    hmac 1 key (beBytes 4 (i + 1) ++ label ++ [0] ++ ctx ++ beBytes 4 (8 * n))).take n

end Sys2Proof.Machine
end

