-- ==== Sys2Proof/Machine/BattenLink.lean ====
section
/-! DEFINITION. The Batten link layer (15_batten_cascade.md, R429 to R435, R448): ports, flits, routes, and packets that
leave through sink 1. -/

namespace Sys2Proof.Machine

/-! ### Ports and flits (R430, R431) -/

/-- Port `n`. -/
def btnPort (s : State) (n : Nat) : Port := SMap.get {} s.btn.ports n

/-- Put a port. -/
def setBtnPort (n : Nat) (p : Port) (s : State) : State := { s with btn := { s.btn with ports := SMap.set {} s.btn.ports n p } }

/-- A port that carries flits. -/
def carries (p : Port) : Bool := p.phase == .up || p.phase == .candidate

/-- Additional data of a flit: its header (R430). -/
def flitHeader (kind : Byte) (credits seq ack : Nat) : List Byte :=
  [kind, BitVec.ofNat 8 credits] ++ leBytes 2 seq ++ leBytes 2 ack ++ [0, 0]

/-- IV of a flit: direction byte, three zero bytes, and the flit counter (R430). -/
def flitIv (dir : Byte) (ctr : Nat) : List Byte := [dir, 0, 0, 0] ++ leBytes 8 ctr

/-- A flit as the lanes carry it: header, ciphertext, tag (R430). -/
def flitBytes (key : List Byte) (dir : Byte) (ctr : Nat) (kind : Byte) (credits seq ack : Nat) (payload : List Byte) : List Byte :=
  let h := flitHeader kind credits seq ack
  let e := gcmEnc key (flitIv dir ctr) h (padTo 232 payload)
  h ++ e.1 ++ e.2

/-- Direction byte of what this module sends to a peer (R430): 0x01 from the lower serial. -/
def sendDir (s : State) (p : Port) : Byte := if serialOf s < p.peerSer then 1 else 2

/-- Send one flit under a sequence number (R430). -/
def putFlit (n : Nat) (kind : Byte) (seq : Nat) (payload : List Byte) (s : State) : State :=
  let p := btnPort s n
  emit (.flit n (flitBytes p.txKey (sendDir s p) p.txCtr kind (min 64 p.freed) seq p.rxSeq payload))
    (setBtnPort n { p with txCtr := p.txCtr + 1, freed := p.freed - min 64 p.freed } s)

/-- Send the next flit: it takes its place in the replay buffer of 64, and a data flit takes a credit. -/
def sendFlit (n : Nat) (kind : Byte) (payload : List Byte) (s : State) : State :=
  let p := btnPort s n
  let seq := (p.txSeq + 1) % 65536
  putFlit n kind seq payload (setBtnPort n { p with
    txSeq := seq
    credits := if kind = 1 then p.credits - 1 else p.credits
    replay := (p.replay ++ [(seq, kind, payload)]).drop (p.replay.length + 1 - 64) } s)

/-- Send the payloads that wait while there is credit (R431). -/
def pumpPort (n : Nat) : Nat → State → State
  | 0, s => s
  | f + 1, s =>
    let p := btnPort s n
    match p.waiting with
    | x :: xs =>
      if carries p ∧ 0 < p.credits then pumpPort n f (sendFlit n 1 x (setBtnPort n { p with waiting := xs } s)) else s
    | [] => s

/-- Hand packet bytes to a port: they leave in flits of 232 bytes each. -/
def linkSend (n : Nat) (body : List Byte) (s : State) : State :=
  let p := btnPort s n
  let w := p.waiting ++ (chunks 232 body).map (padTo 232)
  pumpPort n w.length (setBtnPort n { p with waiting := w } s)

/-- The key that replaces a direction's key (R431). -/
def flitRekey (key : List Byte) : List Byte := kdfHmac key (ascii "LA-BTRK") [] 32

/-! ### Members and routes (R434, R435) -/

/-- Members of the cascade; 0 when solo. -/
def memberCount (s : State) : Nat := match s.btn.table with
  | some t => t.n
  | none => 0

/-- Is member `m` reachable? -/
def reachable (s : State) (m : Nat) : Bool := bitOf s.btn.reach.toNat m

/-- Hops to member `d` through port 0 (towards rising numbers) or port 1. -/
def hopsBy (s : State) (port d : Nat) : Nat :=
  let n := memberCount s
  if n = 0 then 0 else if port = 0 then (d + n - s.btn.member) % n else (s.btn.member + n - d) % n

/-- The port by which a packet for member `d` leaves: the UP port with fewer hops, port 0 on a tie; none where no route
is known. -/
def routeTo (s : State) (d : Nat) : Option Nat :=
  if reachable s d = false ∨ memberCount s ≤ d ∨ d = s.btn.member then none
  else
    let up := fun (n : Nat) => (btnPort s n).phase == .up
    if up 0 ∧ (up 1 = false ∨ hopsBy s 0 d ≤ hopsBy s 1 d) then some 0 else if up 1 then some 1 else none

/-- A packet as it travels: TYPE, SRC_GABLE that the link stamps, origin and destination, word count and words (R448).
The order of these bytes in a flit is the model's own; the spec gives none. -/
def packetBytes (src typ gable dest : Nat) (ws : List Word) : List Byte :=
  leBytes 2 typ ++ [BitVec.ofNat 8 gable, BitVec.ofNat 8 (dest + 16 * src)] ++ leBytes 4 ws.length ++ bytesOf ws

/-- Send member `src`'s packet on towards a member, where a route exists (R435). -/
def relayPacket (src typ gable dest : Nat) (ws : List Word) (s : State) : State :=
  match routeTo s dest with
  | some n => linkSend n (packetBytes src typ gable dest ws) s
  | none => s

/-- Send a packet of this member. -/
def sendPacket (typ gable dest : Nat) (ws : List Word) (s : State) : State :=
  relayPacket s.btn.member typ gable dest ws s

/-- Send a control packet from warden to warden (R448, type 0x18). The words are in Novquin firmware's own format, which
the spec does not give: a kind and its arguments here (DESIGN CHOICE). -/
def sendControl (dest kind : Nat) (body : List Byte) (s : State) : State :=
  sendPacket 0x18 0 dest ([BitVec.ofNat 32 dest, BitVec.ofNat 32 kind] ++ wordsOf body) s

/-- Send a control packet to every reachable member of a list but this one. -/
def sendControls (ms : List Nat) (kind : Nat) (body : List Byte) (s : State) : State :=
  ms.foldl (fun t m => sendControl m kind body t) s

/-- The reachable members other than this one, ascending. -/
def reachables (s : State) : List Nat :=
  (List.range (memberCount s)).filter fun m => m != s.btn.member && reachable s m

/-- The control packet with a lease. -/
abbrev ctlLease : Nat := 7

/-- Send the grant of a block: `n` values of counter `c` from `first` on, for `member` (R442). -/
def sendGrant (c member first n : Nat) (s : State) : State :=
  sendControls (reachables s) ctlLease ([BitVec.ofNat 8 member] ++ leBytes 4 c ++ leBytes 8 first ++ leBytes 8 n) s

/-- The link takes the packets of sink 1 in order and sends each to the member that its word 0 names; a packet without
a route is lost (R435, R448). Its cells return. -/
def drainSinkOne (s : State) : State :=
  let ps := s.rfb.sink1
  ps.foldl (fun t p => sendPacket p.typ p.prod (fld (p.words.getD 0 0) 0 4) p.words (freePacket p t))
    { s with rfb := { s.rfb with sink1 := [] } }

/-! ### Forwarded commands (R447, R448) -/

/-- A command that this member serves for a peer is held under a ring number of 64 plus the peer's member number and
its FWD_ID as position. -/
def isServed (r : CmdRef) : Bool := decide (64 ≤ r.ring ∧ r.ring < 128)

/-- A sub-command of a tenant program (R155) is held under a ring number of 128 plus the worker core's number. -/
def isSub (r : CmdRef) : Bool := decide (128 ≤ r.ring)

/-- Does a command come from elsewhere than a ring? -/
def offRing (r : CmdRef) : Bool := decide (64 ≤ r.ring)

/-- The reference under which a peer's command is served. -/
def servedRef (src gable : Nat) (fwdId : Word) : CmdRef := ⟨gable, 64 + src, fwdId⟩

/-- Answer a FORWARD with a RETURN (R448): the completion's 64 bytes, then the result. -/
def sendReturn (src gable : Nat) (fwdId reply : Word) (completion result : List Byte) (s : State) : State :=
  sendPacket 0x11 gable src
    ([BitVec.ofNat 32 src, fwdId, reply] ++ wordsOf (padTo 64 completion) ++ [BitVec.ofNat 32 result.length] ++ wordsOf result) s

end Sys2Proof.Machine
end

