-- ==== Sys2Proof/Machine/Drbg.lean ====
section
/-! DEFINITION. The CTR_DRBG of SP 800-90A with AES-256 and a derivation function (R205), as functions of its Key and
V. The standard's steps are taken from its text (PRESUMED, log 606). -/

namespace Sys2Proof.Machine

/-- The next `k` output blocks of a block cipher under its Key from V, and V after them. -/
def ctrBlocks (f : List Byte → List Byte) : Nat → List Byte → List (List Byte) × List Byte
  | 0, v => ([], v)
  | k + 1, v =>
    let w := beBytes 16 (beNat v + 1)
    let r := ctrBlocks f k w
    (f w :: r.1, r.2)

/-- CTR_DRBG_Update: Key and V after 48 bytes of provided data. -/
def ctrUpdate (data key v : List Byte) : List Byte × List Byte :=
  let t := xorBytes (ctrBlocks (aesEnc key) 3 v).1.flatten data
  (t.take 32, t.drop 32)

/-- Block_Cipher_df: 48 bytes from an input. -/
def ctrDf (input : List Byte) : List Byte :=
  let s := fill16 (beBytes 4 input.length ++ beBytes 4 48 ++ input ++ [0x80])
  let k0 := (List.range 32).map fun i => BitVec.ofNat 8 i
  let t := (List.range 3).flatMap fun i => cbcLast 16 (aesEnc k0) (padTo 16 (beBytes 4 i) ++ s)
  let f := aesEnc (t.take 32)
  let a := f (t.drop 32)
  let b := f a
  a ++ b ++ f b

/-- Key and V of a new instance from its entropy input and nonce. -/
def ctrInstantiate (entropy nonce : List Byte) : List Byte × List Byte :=
  ctrUpdate (ctrDf (entropy ++ nonce)) (List.replicate 32 0) (List.replicate 16 0)

/-- Key and V after a reseed with an entropy input. -/
def ctrReseed (entropy key v : List Byte) : List Byte × List Byte := ctrUpdate (ctrDf entropy) key v

/-- A generate request of `n` bytes: the output blocks that hold them, and Key and V after it. -/
def ctrGenerate (n : Nat) (key v : List Byte) : List (List Byte) × List Byte × List Byte :=
  let r := ctrBlocks (aesEnc key) ((n + 15) / 16) v
  (r.1, ctrUpdate (List.replicate 48 0) key r.2)

/-- The continuous self-test of R206, as FIPS 140 states it: no block equals the one before it. -/
def repeatsBlock : List (List Byte) → Bool
  | [] => false
  | [_] => false
  | a :: b :: bs => a == b || repeatsBlock (b :: bs)

end Sys2Proof.Machine
end

