-- ==== Sys2Proof/Machine/Ecc.lean ====
section
/-! DEFINITION. The elliptic curves of R108 (RFC 5639, SP 800-186), ECDSA and the fixed-base comb of R172. Published
standards that the spec names by reference. -/

namespace Sys2Proof.Machine

/-- A short Weierstrass curve with its base point; `len` is the length of a coordinate in bytes. -/
structure Curve where
  len : Nat
  p   : Nat
  a   : Nat
  b   : Nat
  n   : Nat
  gx  : Nat
  gy  : Nat
deriving DecidableEq, Repr

/-- brainpoolP384r1. -/
def bp384 : Curve where
  len := 48
  p := 0x8CB91E82A3386D280F5D6F7E50E641DF152F7109ED5456B412B1DA197FB71123ACD3A729901D1A71874700133107EC53
  a := 0x7BC382C63D8C150C3C72080ACE05AFA0C2BEA28E4FB22787139165EFBA91F90F8AA5814A503AD4EB04A8C7DD22CE2826
  b := 0x04A8C7DD22CE28268B39B55416F0447C2FB77DE107DCD2A62E880EA53EEB62D57CB4390295DBC9943AB78696FA504C11
  n := 0x8CB91E82A3386D280F5D6F7E50E641DF152F7109ED5456B31F166E6CAC0425A7CF3AB6AF6B7FC3103B883202E9046565
  gx := 0x1D1C64F068CF45FFA2A63A81B7C13F6B8847A3E77EF14FE3DB7FCAFE0CBD10E8E826E03436D646AAEF87B2E247D4AF1E
  gy := 0x8ABE1D7520F9C2A45CB1EB8E95CFD55262B70B29FEEC5864E19C054FF99129280E4646217791811142820341263C5315

/-- brainpoolP256r1. -/
def bp256 : Curve where
  len := 32
  p := 0xA9FB57DBA1EEA9BC3E660A909D838D726E3BF623D52620282013481D1F6E5377
  a := 0x7D5A0975FC2C3057EEF67530417AFFE7FB8055C126DC5C6CE94A4B44F330B5D9
  b := 0x26DC5C6CE94A4B44F330B5D9BBD77CBF958416295CF7E1CE6BCCDC18FF8C07B6
  n := 0xA9FB57DBA1EEA9BC3E660A909D838D718C397AA3B561A6F7901E0E82974856A7
  gx := 0x8BD2AEB9CB7E57CB2C4B482FFC81B7AFB9DE27E1E3BD23C23A4453BD9ACE3262
  gy := 0x547EF835C3DAC4FD97F8461A14611DC9C27745132DED8E545C1D54C72F046997

/-- NIST P-256. -/
def p256 : Curve where
  len := 32
  p := 0xFFFFFFFF00000001000000000000000000000000FFFFFFFFFFFFFFFFFFFFFFFF
  a := 0xFFFFFFFF00000001000000000000000000000000FFFFFFFFFFFFFFFFFFFFFFFC
  b := 0x5AC635D8AA3A93E7B3EBBD55769886BC651D06B0CC53B0F63BCE3C3E27D2604B
  n := 0xFFFFFFFF00000000FFFFFFFFFFFFFFFFBCE6FAADA7179E84F3B9CAC2FC632551
  gx := 0x6B17D1F2E12C4247F8BCE6E563A440F277037D812DEB33A0F4A13945D898C296
  gy := 0x4FE342E2FE1A7F9B8EE7EB4A7C0F9E162BCE33576B315ECECBB6406837BF51F5

/-- NIST P-384. -/
def p384 : Curve where
  len := 48
  p := 0xFFFFFFFFFFFFFFFFFFFFFFFFFFFFFFFFFFFFFFFFFFFFFFFFFFFFFFFFFFFFFFFEFFFFFFFF0000000000000000FFFFFFFF
  a := 0xFFFFFFFFFFFFFFFFFFFFFFFFFFFFFFFFFFFFFFFFFFFFFFFFFFFFFFFFFFFFFFFEFFFFFFFF0000000000000000FFFFFFFC
  b := 0xB3312FA7E23EE7E4988E056BE3F82D19181D9C6EFE8141120314088F5013875AC656398D8A2ED19D2A85C8EDD3EC2AEF
  n := 0xFFFFFFFFFFFFFFFFFFFFFFFFFFFFFFFFFFFFFFFFFFFFFFFFC7634D81F4372DDF581A0DB248B0A77AECEC196ACCC52973
  gx := 0xAA87CA22BE8B05378EB1C71EF320AD746E1D3B628BA79B9859F741E082542A385502F25DBF55296C3A545E3872760AB7
  gy := 0x3617DE4A96262C6F5D9E98BF9292DC29F8F41DBD289A147CE9DA3113B5F0B8C00A60B1CE1D7E819D7A431D7C90EA0E5F

/-- The curve of an ALG code (R108). -/
def curveOf (alg : Nat) : Option Curve :=
  if alg = 0x10 ∨ alg = 0x11 then some bp256 else if alg = 0x12 ∨ alg = 0x13 then some bp384
  else if alg = 0x14 ∨ alg = 0x15 then some p256 else if alg = 0x16 ∨ alg = 0x17 then some p384 else none

/-- Power modulo `m`, over `bits` bits of the exponent. -/
def powMod (m b e bits : Nat) : Nat :=
  (List.range bits).foldl (fun r i =>
    let q := r * r % m
    if e.testBit (bits - 1 - i) then q * b % m else q) (1 % m)

/-- The extended Euclidean algorithm modulo `m`, one step per unit of fuel: remainders r0, r1 and their multipliers t0, t1. -/
def invStep (m : Nat) : Nat → Nat → Nat → Nat → Nat → Nat
  | 0, _, _, t0, _ => t0
  | f + 1, r0, r1, t0, t1 => if r1 = 0 then t0 else invStep m f r1 (r0 % r1) t1 ((t0 + m * m - r0 / r1 * t1) % m)

/-- Inverse of `x` modulo `m` (0 where there is none for a prime `m`). -/
def invMod (m x : Nat) : Nat := invStep m (2 * m.log2 + 4) m (x % m) 0 1 % m

/-- A point: none is the point at infinity. -/
abbrev Point := Option (Nat × Nat)

/-- Is (x, y) on the curve with both coordinates below p? -/
def onCurve (c : Curve) (x y : Nat) : Bool :=
  decide (x < c.p) && decide (y < c.p) && decide (y * y % c.p = ((x * x % c.p + c.a) * x + c.b) % c.p)

/-- Sum of two points. -/
def ecAdd (c : Curve) : Point → Point → Point
  | none, q => q
  | p, none => p
  | some (x1, y1), some (x2, y2) =>
    if x1 = x2 ∧ (y1 + y2) % c.p = 0 then none
    else
      let l := if x1 = x2 then (3 * x1 * x1 + c.a) * invMod c.p (2 * y1) % c.p
        else (y2 + c.p - y1) * invMod c.p (x2 + c.p - x1) % c.p
      let x3 := (l * l + 2 * c.p - x1 - x2) % c.p
      some (x3, (l * (x1 + c.p - x3) + c.p - y1) % c.p)

/-- Multiple of a point. -/
def ecMul (c : Curve) (k : Nat) (p : Point) : Point :=
  (List.range (8 * c.len)).foldl (fun q i =>
    let d := ecAdd c q q
    if k.testBit (8 * c.len - 1 - i) then ecAdd c d p else d) none

/-- The base point. -/
def basePoint (c : Curve) : Point := some (c.gx, c.gy)

/-- Public point of a private scalar, x then y big-endian. -/
def publicOf (c : Curve) (d : Nat) : List Byte :=
  match ecMul c d (basePoint c) with
  | some (x, y) => beBytes c.len x ++ beBytes c.len y
  | none => List.replicate (2 * c.len) 0

/-- Leftmost bits of a digest as a scalar: digests here are no longer than the order. -/
def digestScalar (c : Curve) (h : List Byte) : Nat := beNat (h.take c.len)

/-- ECDSA verification over a digest, with r and s as numbers. -/
def ecdsaVerifyNat (c : Curve) (qx qy : Nat) (h : List Byte) (r s : Nat) : Bool :=
  if 1 ≤ r ∧ r < c.n ∧ 1 ≤ s ∧ s < c.n then
    let w := invMod c.n s
    match ecAdd c (ecMul c (digestScalar c h * w % c.n) (basePoint c)) (ecMul c (r * w % c.n) (some (qx, qy))) with
    | some (x, _) => decide (x % c.n = r)
    | none => false
  else false

/-- ECDSA verification with a public key x, y and a signature r, s, each big-endian at the curve's length. -/
def ecdsaCheck (c : Curve) (pub h sig : List Byte) : Bool :=
  ecdsaVerifyNat c (beNat (slice pub 0 c.len)) (beNat (slice pub c.len c.len)) h
    (beNat (slice sig 0 c.len)) (beNat (slice sig c.len c.len))

/-- ECDSA signature of a digest with nonce k; none where r or s is zero, and a new k is then drawn (R176). -/
def ecdsaWith (c : Curve) (d : Nat) (h : List Byte) (k : Nat) : Option (Nat × Nat) :=
  match ecMul c k (basePoint c) with
  | some (x, _) =>
    let r := x % c.n
    let s := invMod c.n k * (digestScalar c h + r * d) % c.n
    if r = 0 ∨ s = 0 then none else some (r, s)
  | none => none

/-- The nonce that `len` + 8 drawn bytes give: a value in [1, n − 1]. -/
def nonceOf (c : Curve) (bs : List Byte) : Nat := beNat bs % (c.n - 1) + 1

/-- Entry g of the comb table of the brainpoolP384r1 base point (R172): the sum of 2^(96 i) G over the bits i of g. -/
def combPoint (g : Nat) : Point :=
  (List.range 4).foldl (fun q i => if g.testBit i then ecAdd bp384 q (ecMul bp384 (2 ^ (96 * i)) (basePoint bp384)) else q) none

/-- The 256 words of the comb table: entry g at word 16 g, x at its first word and y at its ninth word, least
significant word first. Entry 0, which no point stands for, is zero. -/
def combWords : List Dword :=
  (List.range 16).flatMap fun g =>
    let xy := (combPoint g).getD (0, 0)
    let w := fun (v : Nat) => (List.range 8).map fun i => BitVec.ofNat 64 (v / 2 ^ (64 * i))
    w xy.1 ++ w xy.2

end Sys2Proof.Machine
end

