-- ==== Sys2Proof/Machine/Engines.lean ====
section
/-! DEFINITION. Operations on WMA units, Galliard sequencers, chains, compressor contexts and DRBGs that other
blocks use: regions, aborts and clears (05_public_key_engines.md, 06_symmetric_hash_counters.md). -/

namespace Sys2Proof.Machine

/-! ### WMA units (R157, R170, R179) -/

/-- The WMA unit of truss `t`. -/
def wmaOf (s : State) (t : Nat) : Wma := SMap.get {} s.pke.wma t

/-- Put a WMA unit. -/
def setWma (t : Nat) (w : Wma) (s : State) : State := { s with pke := { s.pke with wma := SMap.set {} s.pke.wma t w } }

/-- Does truss `t` work in Pavane contexts? -/
def pavaneTruss (s : State) (t : Nat) : Bool := isPavane s (ownerOf s t)

/-- Issue contexts of a truss (R157). -/
def ctxCount (s : State) (t : Nat) : Nat := if pavaneTruss s t then 2 else 4

/-- First word and length of context `c`'s private region (R157). -/
def privRegion (s : State) (t c : Nat) : Nat × Nat := if pavaneTruss s t then (384 * c, 384) else (192 * c, 192)

/-- An issue context. -/
def wmaCtx (w : Wma) (c : Nat) : WmaCtx := SMap.get {} w.ctx c

/-- Put an issue context. -/
def Wma.setCtx (w : Wma) (c : Nat) (x : WmaCtx) : Wma := { w with ctx := SMap.set {} w.ctx c x }

/-- Clear a run of operand words and their tags (R158). -/
def Wma.clear (w : Wma) (base len : Nat) : Wma :=
  { w with mem := w.mem.filter fun e => !(decide (base ≤ e.1) && decide (e.1 < base + len)) }

/-- The status bits that a context abort leaves in place: RANGE to MISMATCH (DEDUCED, log 501). -/
def keptSticky (w : Word) : Word := w &&& 0x3F00

/-- Does the instruction hold the datapath while it runs (R167)? MRAND and MKEY hold their context only. -/
def holdsDatapath (e : WmaEntry) : Bool := e.op != 0x0E && e.op != 0x0F

/-- The stored length of context `x` of truss `t` (R160); a context that never had a width has none. -/
def storedLen (s : State) (t : Nat) (x : WmaCtx) : Nat :=
  if x.w = 0 then 0 else if modeOf s (ownerOf s t) = 1 then x.w else x.w + 1

/-- The stored length that an instruction works with; a context without a width has a free one of R160's. -/
def runLength (t c : Nat) (s : State) : Nat × State :=
  let len := storedLen s t (wmaCtx (wmaOf s t) c)
  if len = 0 then
    let r := drawBelow 6 1 s
    (4 + r.1, r.2)
  else (len, s)

/-- The context whose head the free datapath starts: the next one in ascending order after the one last served. -/
def nextContext (s : State) (t : Nat) : Option Nat :=
  let w := wmaOf s t
  let n := ctxCount s t
  ((List.range n).map fun i => (w.served + 1 + i) % n).find? fun c => match (wmaCtx w c).queue with
    | e :: _ => holdsDatapath e
    | [] => false

/-! ### The instruction table (R163, R164) -/

/-- The fields that an instruction uses: D, A, B, and the argument bits it defines. None for an OP that the table does
not list. -/
def wmaUses (op : Nat) : Option (Bool × Bool × Bool × Nat) :=
  match op with
  | 0x01 => some (false, true, false, 0xF)
  | 0x02 | 0x03 | 0x04 | 0x05 | 0x06 => some (true, true, true, 0)
  | 0x07 => some (true, true, true, 0xC00003FF)
  | 0x08 => some (true, true, true, 0xFF33FF)
  | 0x09 => some (true, true, false, 0)
  | 0x0A => some (true, false, false, 0)
  | 0x0B => some (false, true, true, 0)
  | 0x0C => some (true, false, false, 0x3FFF8)
  | 0x0D => some (false, true, false, 0x3FFF8)
  | 0x0E => some (true, false, false, 1)
  | 0x0F => some (true, false, false, 0xFFFF)
  | 0x10 => some (true, false, false, 0)
  | 0x11 => some (false, false, false, 1)
  | 0x12 => some (false, false, false, 0)
  | _ => none

/-- Is the instruction's word legal: a listed OP, no reserved bit and no unused field set (R163, R164)? -/
def wmaLegal (op : Nat) (o : WmaOp) : Bool :=
  match wmaUses op with
  | some (d, a, b, m) => o.z == 0 && (d || o.d == 0) && (a || o.a == 0) && (b || o.b == 0)
      && o.arg &&& ~~~(BitVec.ofNat 32 m) == 0
  | none => false

/-- The tag of an MLD or MST at level `pl` (R172, R327, R328): the unit stands in its truss and is no core. -/
def wmaTag (s : State) (t pl : Nat) : Tag := ⟨ownerOf s t, pl, 2, 0, t, 0, false⟩

/-- An MLD reads truss SRAM as it starts (R172, R173). -/
def latchLoad (t c : Nat) (e : WmaEntry) (s : State) : State :=
  let a := e.o.arg.toNat
  let q := runLength t c s
  let len := q.1
  let r := gate (wmaTag s t e.pl) t a (8 * len) kRead q.2
  let got := if r.1 then some (Memory.read 0 (r.2.truss t).sram a (8 * len)) else none
  let w := wmaOf r.2 t
  setWma t (w.setCtx c { wmaCtx w c with latch := some got }) r.2

/-- The free datapath starts the next context's head instruction (R169). -/
def wmaStart (t : Nat) (s : State) : State :=
  let w := wmaOf s t
  if w.dp.isSome then s
  else match nextContext s t with
    | none => s
    | some c =>
      let s := setWma t { w with
        dp := some c
        served := c } s
      match (wmaCtx w c).queue with
      | e :: _ => if e.op = 0x0C ∧ wmaLegal e.op e.o = true then latchLoad t c e s else s
      | [] => s

/-- The datapath is free of context `c`, and the next instruction starts. -/
def leaveDatapath (t c : Nat) (s : State) : State :=
  let w := wmaOf s t
  wmaStart t (if w.dp = some c then setWma t { w with dp := none } s else s)

/-- A context abort (R179): queue, private region, modulus and swap state go, ABORTED is set. -/
def contextAbort (t c : Nat) (s : State) : State :=
  let w := wmaOf s t
  let r := privRegion s t c
  leaveDatapath t c (setWma t ((w.clear r.1 r.2).setCtx c { sticky := setBit (keptSticky (wmaCtx w c).sticky) 14 }) s)

/-- Put the comb table into the shared region (R172). -/
def writeComb (t : Nat) (s : State) : State :=
  let w := wmaOf s t
  setWma t { w with mem := (combWords.zipIdx).foldl (fun m p => SMap.set {} m (768 + p.2) { val := p.1 }) w.mem } s

/-- After a release or a unit abort, the Monitor of a truss that serves a Quickstep gable writes the comb table. -/
def combIfQuickstep (t : Nat) (s : State) : State :=
  if ownerOf s t ≠ 0 ∧ modeOf s (ownerOf s t) = 0 ∧ quarantined s t = false then writeComb t s else s

/-- A unit abort (R179): every context, and the shared region. -/
def unitAbort (t : Nat) (s : State) : State :=
  let s := (List.range (ctxCount s t)).foldl (fun u c => contextAbort t c u) s
  combIfQuickstep t (setWma t ((wmaOf s t).clear 768 256) s)

/-- A unit abort in each truss of a list. -/
def unitAborts (ts : List Nat) (s : State) : State := ts.foldl (fun u t => unitAbort t u) s

/-! ### Galliard sequencers (R182, R186) -/

/-- Sequencer `n`. -/
def galOf (s : State) (n : Nat) : Galliard := SMap.get {} s.pke.gal n

/-- Put a sequencer. -/
def setGal (n : Nat) (g : Galliard) (s : State) : State := { s with pke := { s.pke with gal := SMap.set {} s.pke.gal n g } }

/-- A sequencer's command ends: STATUS, BUSY clear, GALn_DONE, and GAL_FAULT unless OK or VERIFY_FAILED (R182, R187). -/
def galEnd (n st : Nat) (s : State) : State :=
  let s := cause .pke n (setGal n { galOf s n with status := st, run := .none } s)
  if st = stOk ∨ st = stVerifyFailed then s else cause .pke (4 + n) s

/-- ABORT of a sequencer (R186): operand memory and tags are cleared, the microcode is kept. A LOAD that runs goes on. -/
def galAbort (n : Nat) (s : State) : State :=
  let g := galOf s n
  match g.run with
  | .load => setGal n { g with mem := [] } s
  | .run _ =>
    let d := drawWord s
    galEnd n stAborted (setGal n { g with
      mem := []
      cycles := d.1 } d.2)
  | .none => galEnd n stOk (setGal n { g with mem := [] } s)

/-- ABORT of every sequencer, as PURGE does. -/
def galAbortAll (s : State) : State := (List.range 4).foldl (fun u n => galAbort n u) s

/-! ### Chains, ports and compressor contexts (R189, R195, R196, R203) -/

/-- The symmetric port of core `n`. -/
def portOf (s : State) (n : Nat) : SymPort := SMap.get {} s.sym.ports n

/-- Put a symmetric port. -/
def setPort (n : Nat) (p : SymPort) (s : State) : State := { s with sym := { s.sym with ports := SMap.set {} s.sym.ports n p } }

/-- Chain `k` of the 120: pipeline k / 30. -/
def chainOf (s : State) (k : Nat) : ChainReg := SMap.get {} s.sym.chains k

/-- Put a chain. -/
def setChain (k : Nat) (c : ChainReg) (s : State) : State := { s with sym := { s.sym with chains := SMap.set {} s.sym.chains k c } }

/-- Clear and unbind the chains for which `f` holds of the core they are bound to. -/
def clearChains (f : Nat → Bool) (s : State) : State :=
  { s with sym := { s.sym with chains := s.sym.chains.filter fun e => match e.2.core with
      | some (n, _) => !f n
      | none => false } }

/-- Clear the compressor contexts of the cores for which `f` holds. -/
def clearSha (f : Nat → Bool) (s : State) : State :=
  { s with sym := { s.sym with sha := s.sym.sha.filter fun e => !f e.1 } }

/-- A request no longer waits at the counter vault. -/
def leaveLine (a : Asker) (s : State) : State :=
  { s with sym := { s.sym with ctr := { s.sym.ctr with arrivals := s.sym.ctr.arrivals.filter fun e => e.1 != a } } }

/-- A port's request ends: STATUS, BUSY clear, DATA as given, or zero where the status is not OK (R190). -/
def portEnd (n st : Nat) (data : Option (List Byte)) (s : State) : State :=
  let p := portOf s n
  let d := if st = stOk then data else some (List.replicate 64 0)
  setPort n { p with
    req := none
    status := st
    mem := match d with
      | some b => Memory.write 0 p.mem 0x40 (padTo 64 b)
      | none => p.mem } (leaveLine (.port n) s)

/-- Requests in progress at the ports of the cores for which `f` holds end with ABORTED. -/
def abortPorts (f : Nat → Bool) (s : State) : State :=
  ((s.sym.ports.filter fun e => f e.1 && e.2.req.isSome).map (·.1)).foldl (fun u n => portEnd n stAborted none u) s

/-- Every event of R196 on the cores for which `f` holds. -/
def abortSym (f : Nat → Bool) (s : State) : State := clearSha f (clearChains f (abortPorts f s))

/-- The abort of a command that core `n` serves (R29, R179, R196): its port's request, its chains, its compressor context
and its WMA context go. -/
def abortCore (n : Nat) (s : State) : State := contextAbort (trussOf n) (coreInTruss n) (abortSym (· == n) s)

/-- The cores of a gable, by number. -/
def isCoreOf (s : State) (g n : Nat) : Bool := n != wardenNum && gableOfCore s n == g && g != 0

/-! ### DRBG (R205, R206) -/

/-- The DRBG numbered `k`. -/
def drbgOf (s : State) (k : Nat) : Drbg := SMap.get {} s.sym.drbg k

/-- Put a DRBG. -/
def setDrbg (k : Nat) (d : Drbg) (s : State) : State := { s with sym := { s.sym with drbg := SMap.set {} s.sym.drbg k d } }

/-- The DRBG that a core draws from: its truss's, or the warden's. -/
def drbgNum (n : Nat) : Nat := if n = wardenNum then 36 else trussOf n

/-- Can a reseed succeed: do at least two entropy sources remain (R467)? -/
def entropyGood (s : State) : Bool := decide (2 ≤ popCount (s.sys.entOn &&& ~~~s.sys.entFail))

/-- A DRBG enters its error state (R206), and the failure is counted (R472). -/
def drbgError (k : Nat) (s : State) : State :=
  let s := setDrbg k { drbgOf s k with err := true } s
  let s := { s with tel := { s.tel with counts := { s.tel.counts with drbg := satInc 0xFFFFFFFF s.tel.counts.drbg } } }
  if k < 32 then cause .sym 0 { s with sym := { s.sym with drbgFail := setBit s.sym.drbgFail k } } else s

/-- Reseed a DRBG, or instantiate it: true where the entropy sources could (R205, R206). It takes one block of the pool
(R466), or the next block where the pool is empty; the nonce of an instantiation is free. -/
def drbgReseed (k : Nat) (s : State) : Bool × State :=
  if entropyGood s then
    let fresh := drawBytes 48 s
    let e := match s.sys.pool with
      | b :: _ => (b, s)
      | [] => fresh
    let d := drbgOf s k
    if d.inst then
      let q := ctrReseed e.1 d.key d.v
      (true, setDrbg k { d with
        since := 0
        err := false
        key := q.1
        v := q.2 } { e.2 with sys := { e.2.sys with pool := e.2.sys.pool.drop 1 } })
    else
      let nonce := drawBytes 16 e.2
      let q := ctrInstantiate e.1 nonce.1
      (true, setDrbg k { inst := true, key := q.1, v := q.2 }
        { nonce.2 with sys := { nonce.2.sys with pool := nonce.2.sys.pool.drop 1 } })
  else (false, drbgError k s)

/-- A DRBG is instantiated anew (R205). -/
def drbgInstantiate (k : Nat) (s : State) : Bool × State := drbgReseed k (setDrbg k {} s)

/-- One generate request of at most 64 bytes: none where the instance is in its error state or enters it (R206). It reseeds
first where it has never been instantiated, where 2^16 requests have passed, or where `reseed` asks for it (R205). -/
def drbgRequest (k n : Nat) (reseed : Bool) (s : State) : Option (List Byte) × State :=
  if (drbgOf s k).err then (none, s)
  else
    let r := if reseed ∨ 65536 ≤ (drbgOf s k).since ∨ (drbgOf s k).inst = false then drbgReseed k s else (true, s)
    if r.1 = false then (none, r.2)
    else
      let d := drbgOf r.2 k
      let g := ctrGenerate n d.key d.v
      if repeatsBlock (d.last :: g.1) then (none, drbgError k r.2)
      else (some (g.1.flatten.take n), setDrbg k { d with
        since := d.since + 1
        key := g.2.1
        v := g.2.2
        last := g.1.getLastD d.last } r.2)

/-- Draw bytes in requests of the given sizes. -/
def drbgRequests (k : Nat) : List Nat → State → Option (List Byte) × State
  | [], s => (some [], s)
  | n :: ns, s =>
    match drbgRequest k n false s with
    | (none, s) => (none, s)
    | (some b, s) => match drbgRequests k ns s with
      | (none, s) => (none, s)
      | (some c, s) => (some (b ++ c), s)

/-- Draw `n` bytes from a DRBG, in requests of at most 64 bytes each (R205); none where it has no output (R206). -/
def drbgDraw (k n : Nat) (reseed : Bool) (s : State) : Option (List Byte) × State :=
  if n ≤ 64 then drbgRequest k n reseed s
  else drbgRequests k (List.replicate (n / 64) 64 ++ (if n % 64 = 0 then [] else [n % 64])) s

end Sys2Proof.Machine
end

