-- ==== Sys2Proof/Machine/FlashOps.lean ====
section
/-! DEFINITION. The flash store (12_flash_store.md): areas, reads, program and erase, retirement, remap records,
execute-in-place buffers. -/

namespace Sys2Proof.Machine

/-! ### Checks that records share -/

/-- One step of CRC-8 with polynomial 0x07 over a byte (R212). -/
def crc8Byte (c : Byte) (b : Byte) : Byte :=
  (List.range 8).foldl (fun x _ => if x.msb then (x <<< 1) ^^^ 0x07 else x <<< 1) (c ^^^ b)

/-- CRC-8 with polynomial 0x07 and initial value 0x00 (R212). -/
def crc8 (bs : List Byte) : Byte := bs.foldl crc8Byte 0

/-- One step of the reflected CRC-32 (R366). -/
def crc32Byte (c : Word) (b : Byte) : Word :=
  (List.range 8).foldl (fun x _ => if x.getLsbD 0 then (x >>> 1) ^^^ 0xEDB88320 else x >>> 1)
    (c ^^^ b.setWidth 32)

/-- CRC-32, reflected, initial value and final exclusive or all ones (R366). -/
def crc32 (bs : List Byte) : Word := ~~~(bs.foldl crc32Byte 0xFFFFFFFF)

/-! ### Areas (R42, R347) -/

/-- Areas in the order of R347, as first sectors; the last entry ends the store. -/
def areaStarts (p : Partition) : List Nat :=
  [0, 2048, 4096, 4608, 5120, 5120 + p.keys, 5120 + p.keys + p.ctrj, 5120 + p.keys + p.ctrj + p.cerj,
   svcAreaBase p, 16384]

/-- First sector of the resident key area, the counter journal, the ceremony journal and the lifetime area. -/
abbrev keySect0 : Nat := 5120
def ctrjSect0 (s : State) : Nat := 5120 + s.img.latched.partition.keys
def cerjSect0 (s : State) : Nat := ctrjSect0 s + s.img.latched.partition.ctrj
def lifeSect0 (s : State) : Nat := cerjSect0 s + s.img.latched.partition.cerj

/-- The area of R347 that holds a sector, counted from 0. -/
def areaOf (p : Partition) (sect : Nat) : Nat := ((areaStarts p).filter fun a => decide (a ≤ sect)).length - 1

/-! ### The array (R346) -/

/-- The physical sector that serves a logical one: its own, or a spare. -/
def physSect (s : State) (sect : Nat) : Nat := match SMap.get none s.flash.spareOf sect with
  | some i => 16386 + i
  | none => sect

/-- Where the word at word address `w` (flash address / 8) stands on the die. -/
def cellAt (s : State) (w : Nat) : Nat := physSect s (w / 512) * 512 + w % 512

/-- The word at word address `w`; none where it is erased. -/
def flashCell (s : State) (w : Nat) : Option FlashCell := SMap.get none s.flash.cells (cellAt s w)

/-- Do the 72 bits of a word with `e` in error all read 1? The code has no word of ones at less than two bits, or R348 would
not except it; its check bits are the implementation's. -/
def readsOnes (d : Dword) (e : BitVec 72) : Bool :=
  decide (2 ≤ popCount e) && d ^^^ e.setWidth 64 == erasedWord && Config.flashCheck d ^^^ e.extractLsb' 64 8 == 0xFF

/-- One word as read. -/
structure WordRead where
  data   : Dword
  cbc    : Nat
  unc    : Bool
  erased : Bool
deriving DecidableEq, Repr

/-- A word as read with further bits `e` in error (R348): corrected with one bit in error, raw and uncorrectable with more,
and erased where all 72 bits are 1. -/
def readWord (c : Option FlashCell) (e : BitVec 72) : WordRead :=
  let d := (c.map (·.data)).getD erasedWord
  let x := (c.map (·.err)).getD 0 ^^^ e
  match popCount x with
  | 0 => ⟨d, 0, false, c.isNone⟩
  | 1 => ⟨d, 1, false, false⟩
  | _ => if readsOnes d x then ⟨erasedWord, 0, false, true⟩ else ⟨d ^^^ x.setWidth 64, 0, true, false⟩

/-- Is the word at word address `w` erased in the array: all 72 bits 1 (R346, R352)? -/
def wordErased (s : State) (w : Nat) : Bool := (readWord (flashCell s w) 0).erased

/-- A read of a suspended erase's sector (R358). -/
def readSuspended (s : State) (a : Nat) : Bool :=
  (s.flc.erase == .suspended || s.flc.erase == .auto) && decide (a / 4096 = s.flc.eraseSect)

/-- The 64-bit word at word address `w` as a read returns it: ones in the sector of a suspended erase (R348, R358). -/
def flashWord (s : State) (w : Nat) : Dword :=
  if readSuspended s (8 * w) then erasedWord else (readWord (flashCell s w) 0).data

/-- Bytes from a flash address. -/
def flashBytes (s : State) (a n : Nat) : List Byte :=
  let w0 := a / 8
  let ws := (List.range ((a % 8 + n + 7) / 8)).flatMap fun i => leBytes 8 (flashWord s (w0 + i)).toNat
  slice ws (a % 8) n

/-- Does a read of `n` bytes from `a` end with OK in every line (R348, R358, R459)? The lines that the boot names fail. -/
def flashReads (s : State) (a n : Nat) : Bool :=
  !(s.flc.bootBad.any fun l => decide (a / 64 ≤ l) && decide (64 * l < a + n)) && !(decide (0 < n) && readSuspended s a)
    && (List.range ((a + n + 63) / 64 - a / 64)).all fun i => (List.range 8).all fun j =>
      !(readWord (flashCell s (8 * (a / 64 + i) + j)) 0).unc

/-- Put a cell into the array. -/
def putCell (w : Nat) (c : Option FlashCell) (s : State) : State :=
  { s with flash := { s.flash with cells := SMap.set none s.flash.cells (cellAt s w) c } }

/-- Put a programmed word into the array. -/
def putFlashWord (w : Nat) (v : Dword) (s : State) : State := putCell w (some ⟨v, 0, false⟩) s

/-- Put words from word address `w` on. -/
def putFlashWords (w : Nat) (vs : List Dword) (s : State) : State :=
  (vs.zipIdx).foldl (fun t p => putFlashWord (w + p.2) p.1 t) s

/-- Bytes as 64-bit words, the last one filled with ones (an unprogrammed byte stays erased). -/
def dwordsOf (bs : List Byte) : List Dword :=
  (chunks 8 bs).map fun c => BitVec.ofNat 64 (leNat (c ++ List.replicate (8 - c.length) 0xFF))

/-- Program bytes from a flash address that is a multiple of 8. -/
def putFlashBytes (a : Nat) (bs : List Byte) (s : State) : State := putFlashWords (a / 8) (dwordsOf bs) s

/-- The logical sector that a physical one serves. -/
def logicalSect (s : State) (p : Nat) : Option Nat :=
  if p < 16384 then (if (SMap.get none s.flash.spareOf p).isNone then some p else none)
  else (s.flash.spareOf.find? fun e => e.2 == some (p - 16386)).map (·.1)

/-- Word addresses of the programmed words, in the order of the die. -/
def usedWords (s : State) : List Nat :=
  s.flash.cells.filterMap fun p => (logicalSect s (p.1 / 512)).map fun x => x * 512 + p.1 % 512

/-- The sectors from `a` to `a + n − 1` that hold anything. -/
def usedSectors (s : State) (a n : Nat) : List Nat :=
  (((usedWords s).map fun w => w / 512).filter fun x => decide (a ≤ x) && decide (x < a + n)).eraseDups

/-- Is logical sector `sect` erased in every word? -/
def sectorErased (s : State) (sect : Nat) : Bool :=
  s.flash.cells.all fun p => decide (p.1 / 512 ≠ physSect s sect)

/-- Word offsets used in a sector: one more than its last programmed word. -/
def sectorEnd (s : State) (sect : Nat) : Nat :=
  (s.flash.cells.filter fun p => p.1 / 512 == physSect s sect).foldl (fun m p => max m (p.1 % 512 + 1)) 0

/-- Erase physical sector `p`. -/
def erasePhys (p : Nat) (s : State) : State :=
  { s with flash := { s.flash with cells := s.flash.cells.filter fun c => decide (c.1 / 512 ≠ p) } }

/-- Erase logical sector `sect` in the array. -/
def eraseArray (sect : Nat) (s : State) : State := erasePhys (physSect s sect) s

/-- Leave unspecified values in `n` words from word address `w`, lost ones where a PROG failed at them (R362, R364). -/
def spoilWords (w n : Nat) (lost : Bool) (s : State) : State :=
  (List.range n).foldl (fun t i =>
    let p := drawDword t
    let e := drawBytes 9 p.2
    putCell (w + i) (some ⟨p.1, BitVec.ofNat 72 (leNat e.1), lost⟩) e.2) s

/-- Is sector `sect` worn (R362, R363)? -/
def isWorn (s : State) (sect : Nat) : Bool :=
  SMap.get false s.flash.worn sect || SMap.get false s.flc.wornNow sect

/-! ### Reads (R348, R349) -/

/-- BUSY of FLC_STAT: a command or retirement runs, or an erase not suspended by command. -/
def flcBusy (s : State) : Bool :=
  s.flc.run != .none || s.flc.erase == .running || s.flc.erase == .auto

/-- What reading a line gives: data bytes and the read status word (R348, R358), without side effects. -/
def lineValue (s : State) (line : Nat) (arr : LineRead) (readBack : Bool) : List Byte × Word :=
  let a := line * 64
  let served := (12, b2n (SMap.get none s.flash.spareOf (a / 4096)).isSome)
  if readSuspended s a then (List.replicate 64 0xFF, mkWord [(16, stSuspended), served, (0, 0xF)])
  else
    let ws := (List.range 8).map fun i => readWord (flashCell s (line * 8 + i)) (arr.errs.getD i 0)
    let cbc := (ws.map (·.cbc)).sum
    let unc := ws.any (·.unc)
    let ew := readBack && decide (s.flc.readThresh ≤ cbc)
    (ws.flatMap fun w => leBytes 8 w.data.toNat,
     mkWord [(16, if unc then stIntegrity else stOk), (15, b2n ew), (14, b2n unc), (13, b2n (ws.all (·.erased))), served, (0, cbc)])

/-- Does a line hold a word that a PROG lost (R362)? -/
def lineLost (s : State) (line : Nat) : Bool :=
  !readSuspended s (line * 64) && (List.range 8).any fun i => ((flashCell s (line * 8 + i)).map (·.lost)).getD false

/-- The line with free values in the words that a PROG lost, and a free read status word (R362). -/
def lostValue (line : Nat) (bs : List Byte) (s : State) : List Byte × Word × State :=
  let d := drawBytes 64 s
  let w := drawWord d.2
  ((List.range 8).flatMap fun i =>
    slice (if ((flashCell s (line * 8 + i)).map (·.lost)).getD false then d.1 else bs) (8 * i) 8, w.1, w.2)

/-- Side effects that every read has (R349): FLC_RSTAT_ANY, error counts, UNCORR. -/
def noteRead (rst : Word) (s : State) : State :=
  let cbc := fld rst 0 4
  let unc := bitOf rst.toNat 14
  let s := { s with flc := { s.flc with
    rstatAny := rst
    corr := if cbc < 0xF then min 0xFFFF (s.flc.corr + cbc) else s.flc.corr
    uncorr := if unc then satInc 0xFFFF s.flc.uncorr else s.flc.uncorr } }
  if unc then cause .flc 1 s else s

/-- A read that needs the array suspends a running erase when AUTOSUS is set (R357). -/
def autoSuspend (s : State) : State :=
  if s.flc.autosus = true ∧ s.flc.erase = .running then { s with flc := { s.flc with erase := .auto } } else s

/-- Read a line: data, read status word, state. -/
def lineRead (line : Nat) (arr : LineRead) (readBack : Bool) (s : State) : List Byte × Word × State :=
  let s := autoSuspend s
  let v := lineValue s line arr readBack
  if lineLost s line then
    let l := lostValue line v.1 s
    (l.1, l.2.1, noteRead l.2.1 l.2.2)
  else (v.1, v.2, noteRead v.2 s)

/-- Did a read end with STATUS OK? -/
def rstOk (r : Word) : Bool := decide (fld r 16 16 = stOk)

/-- Read `n` lines from line `l` on until one does not end with OK: the status, and the state. -/
def readLines : Nat → Nat → State → Nat × State
  | 0, _, s => (stOk, s)
  | k + 1, l, s =>
    let r := lineRead l ⟨[]⟩ false s
    if rstOk r.2.1 then readLines k (l + 1) r.2.2 else (fld r.2.1 16 16, r.2.2)

/-- The firmware, the boot ROM and counter recovery read lines (R349): what every read leaves behind. -/
def noteLines (ls : List Nat) (s : State) : State := ls.foldl (fun t l => (lineRead l ⟨[]⟩ false t).2.2) s

/-- The lines of a log's or a record's used part, from sector `a` on over `n` sectors, are read. -/
def noteSectors (a n : Nat) (s : State) : State :=
  noteLines (((usedWords s).filter fun w => decide (a ≤ w / 512) && decide (w / 512 < a + n)).map (· / 8)).eraseDups s

/-- With AUTOSUS clear, a read of the array waits while an erase runs (R357). -/
def readWaits (s : State) : Bool := s.flc.erase == .running && !s.flc.autosus

/-- Read `n` bytes at a flash address inside one line, as a core load does: none for BUS_ERROR (R349). -/
def flashLoad (a n : Nat) (s : State) : Option (List Byte) × State :=
  let r := lineRead (a / 64) ⟨[]⟩ false s
  (if rstOk r.2.1 then some (slice r.1 (a % 64) n) else none, r.2.2)

/-! ### Retirement (R361 to R363) -/

/-- Spares that no remap record names (R363). -/
def freeSpares (s : State) : List Nat := (List.range 328).filter fun i => !SMap.get false s.flash.named i

/-- Is `sect` in a critical area, as FLC_CRIT_END bounds them (R347, R367)? Until step 5 of R60 all sectors are. -/
def isCritical (s : State) (sect : Nat) : Bool := s.flc.critEnd == 0x3FFF || (decide (4096 ≤ sect) && decide (sect ≤ s.flc.critEnd))

/-- A remap record (R363). -/
def remapRecord (sect spare reason seq : Nat) : Dword :=
  let low := (sect % 2 ^ 14) + (spare % 512) * 2 ^ 14 + (reason % 4) * 2 ^ 23 + (seq % 2 ^ 24) * 2 ^ 32
  BitVec.ofNat 64 (low + (crc8 (leBytes 7 low)).toNat * 2 ^ 56)

/-- Does a remap record count (R363)? -/
def remapCounts (w : Dword) : Bool :=
  let low := w.toNat % 2 ^ 56
  w != erasedWord && decide ((crc8 (leBytes 7 low)).toNat = w.toNat / 2 ^ 56)

/-- SEQ of the latest counting record of both copies. -/
def remapSeq (s : State) : Nat :=
  ((s.flash.copyA ++ s.flash.copyB).filter remapCounts).foldl (fun m w => max m (fld w 32 24)) 0

/-- A remap copy with a word more: at most 512 (R363). -/
def remapPut (c : List Dword) (w : Dword) : List Dword := if c.length < 512 then c ++ [w] else c

/-- Append a remap record to copy A and then to copy B; a spare that it names is taken for good. -/
def appendRemap (sect spare reason : Nat) (s : State) : State :=
  let w := remapRecord sect spare reason (remapSeq s + 1)
  { s with flash := { s.flash with
      copyA := remapPut s.flash.copyA w
      copyB := remapPut s.flash.copyB w
      named := if spare < 328 then SMap.set false s.flash.named spare true else s.flash.named } }

/-- May a worn record be appended (R363)? -/
def wornRoom (s : State) : Bool :=
  decide ((freeSpares s).length + 16 < 512 - s.flash.copyA.length)
    && decide ((freeSpares s).length + 16 < 512 - s.flash.copyB.length)

/-- Lines of a sector leave the prefetch buffer and the branch cache (R364). -/
def dropSectorLines (sect : Nat) (s : State) : State :=
  { s with flc := { s.flc with
      prefetch := s.flc.prefetch.filter fun l => decide (l / 64 ≠ sect)
      branch := (s.flc.branch.map fun p => (p.1, p.2.filter fun l => decide (l / 64 ≠ sect))).filter fun p => !p.2.isEmpty } }

/-- Mark spare `i` bad, by a SPARE_BAD record (R361). -/
def markBad (i : Nat) (s : State) : State :=
  let s := appendRemap 0x3FFF i 3 s
  { s with
    flash := { s.flash with bad := SMap.set false s.flash.bad i true }
    tel := { s.tel with counts := { s.tel.counts with flRetire := SMap.upd 0 s.tel.counts.flRetire 3 (satInc 0xFFFFFFFF) } } }

/-- Spare that a sector may take now: the lowest-numbered free one, the last 64 for critical areas only (R361). -/
def spareFor (s : State) (sect : Nat) : Option Nat :=
  let fs := freeSpares s
  if fs.length ≤ 64 ∧ isCritical s sect = false then none else fs.head?

/-- Is spare `i` erased, as the FLC confirms with a read (R361)? -/
def spareErased (s : State) (i : Nat) : Bool := s.flash.cells.all fun c => decide (c.1 / 512 ≠ 16386 + i)

/-- The lines of a sector that hold a word are read for a copy: the effects of their reads (R349, R361). -/
def noteCopy (sect : Nat) (s : State) : State := noteSectors sect 1 s

/-- Pass over the spares that turn out bad: the next `k`, and every one that is not erased. A copy that fails in a spare has
read lines of the sector. -/
def skipBad (sect : Nat) (copies : Bool) : Nat → Nat → State → State
  | 0, _, s => s
  | f + 1, k, s =>
    match spareFor s sect with
    | some i =>
      if spareErased s i = false then skipBad sect copies f k (markBad i s)
      else if k = 0 then s
      else skipBad sect copies f (k - 1) (markBad i (if copies then noteCopy sect s else s))
    | none => s

/-- Make a sector worn (R362), with a record where one may be appended; in the counter journal area the vault learns of it
(R215). -/
def makeWorn (sect reason : Nat) (s : State) : State :=
  let s := cause .flc 5 { s with flc := { s.flc with retireReg := mkWord [(23, reason), (14, 0x1FF), (0, sect)] } }
  let s := if areaOf s.img.latched.partition sect = 5 then cause .sym 4 s else s
  if wornRoom s then
    let s := appendRemap sect 0x1FF reason s
    { s with flash := { s.flash with worn := SMap.set false s.flash.worn sect true } }
  else { s with flc := { s.flc with wornNow := SMap.set false s.flc.wornNow sect true } }

/-- A cell as a retirement copies it (R361): corrected where one bit is in error, raw where it is uncorrectable, not at all
where it is erased. -/
def copiedCell (c : FlashCell) : Option FlashCell :=
  let r := readWord (some c) 0
  if r.erased then none else if r.unc then some c else some { c with err := 0 }

/-- Copy the words of logical sector `sect` that are not erased into spare `i`. -/
def copyToSpare (sect i : Nat) (s : State) : State :=
  let cs := s.flash.cells.filter fun c => c.1 / 512 == physSect s sect
  { s with flash := { s.flash with cells := cs.foldl (fun m c =>
      SMap.set none m ((16386 + i) * 512 + c.1 % 512) (c.2.bind copiedCell)) s.flash.cells } }

/-- Retire a sector: true where a spare now serves it (R361), false where it became worn (R362). After a PROG failure and
for RETIRE the spare holds the copy of its words; after an ERASE failure it is erased. -/
def retireSector (sect reason badSpares : Nat) (s : State) : Bool × State :=
  let copies := reason != 1
  let s := skipBad sect copies 400 badSpares s
  match spareFor s sect with
  | none => (false, makeWorn sect reason s)
  | some i =>
    let s := if copies then copyToSpare sect i (noteCopy sect s) else s
    let s := appendRemap sect i reason s
    let s := { s with
      flash := { s.flash with spareOf := SMap.set none s.flash.spareOf sect (some i) }
      flc := { s.flc with
        retireReg := mkWord [(23, reason), (14, i), (0, sect)]
        retired := true }
      tel := { s.tel with counts := { s.tel.counts with flRetire := SMap.upd 0 s.tel.counts.flRetire reason (satInc 0xFFFFFFFF) } } }
    let s := cause .flc 4 s
    (true, if (freeSpares s).length ≤ 64 then cause .flc 6 s else s)

/-! ### Warnings (R360) -/

/-- Count and report a warning: kind 0 EW_READ, 1 PULSE_WARN. -/
def warnSector (sect kind : Nat) (s : State) : State :=
  let k := 2 * areaOf s.img.latched.partition sect + kind
  let s := { s with
    flc := { s.flc with
      warn := mkWord [(14, kind), (0, sect)]
      warnings := if kind = 1 then SMap.upd 0 s.flc.warnings sect (· + 1) else s.flc.warnings }
    tel := { s.tel with counts := { s.tel.counts with flWarn := SMap.upd 0 s.tel.counts.flWarn k (satInc 0xFFFFFFFF) } } }
  cause .flc (if kind = 0 then 2 else 3) s

/-! ### Commands (R351, R352) -/

/-- FLC_DATAk. -/
def flcData (s : State) (k : Nat) : Word := SMap.get 0 s.flc.data k

/-- Fill FLC_DATA0 to FLC_DATA15 from a line's bytes. -/
def setFlcData (bs : List Byte) (s : State) : State :=
  { s with flc := { s.flc with data := (List.range 16).foldl (fun m k => SMap.set 0 m k (BitVec.ofNat 32 (leAt bs (4 * k) 4))) s.flc.data } }

/-- A command ends: STATUS, LAST_OP, CMD_DONE (R352). -/
def flcEnd (op status : Nat) (s : State) : State :=
  cause .flc 0 { s with flc := { s.flc with status := status, lastOp := op } }

/-- The words that a PROG takes from FLC_DATA0 onward. -/
def progWords (s : State) (n : Nat) : List Dword :=
  (List.range n).map fun i => BitVec.ofNat 64 ((flcData s (2 * i)).toNat + (flcData s (2 * i + 1)).toNat * 2 ^ 32)

/-- The status of the first check of R352 that fails; OK where all pass. -/
def flcChecks (s : State) (v op count : Nat) : Nat :=
  let a := s.flc.addr
  let sect := a / 4096
  let er := s.flc.erase
  firstFail
    [(decide (1 ≤ op ∧ op ≤ 6) && decide (v / 256 = 0) && (op == 2 || count == 0), stUnsupported),
     (!flcBusy s || (op == 4 && (er == .running || er == .auto)), stStateRefused),
     ((op != 1 || decide (a % 64 = 0)) && (op != 2 || (decide (a % 8 = 0) && decide (a % 64 + 8 * (count + 1) ≤ 64)))
        && ((op != 3 && op != 6) || decide (a % 4096 = 0)), stRange),
     ((op != 4 || (er == .running || er == .auto)) && (op != 5 || er == .suspended) && (op != 3 || er == .none)
        && ((op != 2 && op != 6) || !(er == .suspended && decide (sect = s.flc.eraseSect))), stStateRefused),
     ((op != 2 && op != 3 && op != 6) || !isWorn s sect, stExhausted),
     (op != 2 || (List.range (count + 1)).all fun i => wordErased s (a / 8 + i), stStateRefused)]

/-- A READ command reads its line and ends (R353). -/
def readCommand (line : Nat) (arr : LineRead) (s : State) : State :=
  let r := lineRead line arr false s
  let s := setFlcData r.1 r.2.2
  flcEnd 1 stOk { s with flc := { s.flc with
    rstat := r.2.1
    run := .none } }

/-- Is the journal port programming this line? -/
def jportIn (s : State) (line : Nat) : Bool := match s.flc.jrun with
  | some (a, _) => decide (a / 64 = line)
  | none => false

/-- The read status word of a PROG's read-back with `cbc` corrected bits that the operation reports (R354): further words of
the line count as they read. -/
def readBack (s : State) (a cbc : Nat) : Word :=
  let v := (lineValue s (a / 64) ⟨[]⟩ true).2
  let n := min 8 (max cbc (fld v 0 4))
  mkWord [(16, fld v 16 16), (15, b2n (decide (s.flc.readThresh ≤ n))), (14, fld v 14 1), (13, fld v 13 1), (12, fld v 12 1), (0, n)]

/-- A program operation ends in the array: whether it left its words programmed, and the state (R354, R361, R362).
`out.pulses` is none where a word did not verify in 8 pulses. -/
def finishProg (a : Nat) (ws : List Dword) (out : FlashOutcome) (s : State) : Bool × State :=
  let sect := a / 4096
  match out.pulses with
  | some p =>
    let s := putFlashWords (a / 8) ws s
    let rb := readBack s a out.cbc
    let s := noteRead rb { s with flc := { s.flc with
      rstat := rb
      pulses := p } }
    let s := if bitOf rb.toNat 15 then warnSector sect 0 s else s
    (true, if s.flc.pulseThresh ≤ p then warnSector sect 1 s else s)
  | none =>
    let r := retireSector sect 0 out.badSpares { s with flc := { s.flc with pulses := 8 } }
    if r.1 then (true, putFlashWords (a / 8) ws r.2)
    else
      let d := drawWord (spoilWords (a / 8) ws.length true r.2)
      (false, { d.2 with flc := { d.2.flc with rstat := d.1 } })

/-- An erase of `sect` ends in the array: did it end with OK (R355, R361, R362)? -/
def eraseEnd (sect : Nat) (out : FlashOutcome) (s : State) : Bool × State :=
  let s := dropSectorLines sect { s with flc := { s.flc with warnings := SMap.set 0 s.flc.warnings sect 0 } }
  match out.pulses with
  | some p => (true, { (eraseArray sect s) with flc := { (eraseArray sect s).flc with pulses := p } })
  | none =>
    let r := retireSector sect 1 out.badSpares { s with flc := { s.flc with pulses := 12 } }
    if r.1 then (true, eraseArray sect r.2) else (false, spoilWords (sect * 512) 512 false r.2)

/-- An erase ends (R355). -/
def finishErase (out : FlashOutcome) (s : State) : State :=
  let r := eraseEnd s.flc.eraseSect out { s with flc := { s.flc with erase := .none } }
  flcEnd 3 (if r.1 then stOk else stExhausted) r.2

/-- RETIRE of a sector (R351, R361). -/
def retireCommand (sect badSpares : Nat) (s : State) : State :=
  let r := retireSector sect 2 badSpares (dropSectorLines sect s)
  dropSectorLines sect (flcEnd 6 (if r.1 then stOk else stExhausted) r.2)

/-- Does the journal port have, or want, the array? A stalled vault appends nothing (R215, R350). -/
def portWants (s : State) : Bool := s.flc.jrun.isSome || (!s.flc.jport.isEmpty && !s.sym.ctr.stalled)

/-- A queued warden command takes the array once the journal port wants it no more (R350). -/
def startQueued (s : State) : State :=
  if portWants s then s
  else match s.flc.run with
  | .prog a ws false => { s with flc := { s.flc with run := .prog a ws true } }
  | .erase x => { s with flc := { s.flc with
      run := .none
      erase := .running
      eraseSect := x } }
  | .retire x n => retireCommand x n { s with flc := { s.flc with run := .none } }
  | _ => s

/-- A value takes effect in the FLC_CMD pair: start the command of R351. `arr` is what the array returns for a READ,
`out` how a RETIRE goes. -/
def flcCommand (v : Nat) (arr : LineRead) (out : FlashOutcome) (s : State) : State :=
  let op := v % 16
  let count := v / 16 % 16
  let s := { s with flc := { s.flc with ctl := v % 256 } }
  match flcChecks s v op count with
  | 0 =>
    let s := { s with flc := { s.flc with retired := false } }
    let line := s.flc.addr / 64
    let sect := s.flc.addr / 4096
    match op with
    | 1 => if jportIn s line then { s with flc := { s.flc with run := .read line arr } } else readCommand line arr s
    | 2 => startQueued (dropSectorLines sect { s with flc := { s.flc with run := .prog s.flc.addr (progWords s (count + 1)) false } })
    | 3 => startQueued (dropSectorLines sect { s with flc := { s.flc with run := .erase sect } })
    | 4 => flcEnd 4 stOk { s with flc := { s.flc with erase := .suspended } }
    | 5 => flcEnd 5 stOk { s with flc := { s.flc with erase := .running } }
    | _ => startQueued { s with flc := { s.flc with run := .retire sect out.badSpares } }
  | st => flcEnd op st s

/-! ### The firmware's own commands (R350) -/

/-- How an array operation of the firmware goes: free, with at most `top` pulses (DESIGN CHOICE, log 1207). -/
def drawOutcome (top : Nat) (s : State) : FlashOutcome × State :=
  let a := drawBelow (top + 1) 1 s
  let b := drawBelow 9 1 a.2
  let c := drawBelow 329 2 b.2
  (⟨if a.1 = 0 then none else some a.1, b.1, c.1⟩, c.2)

/-- Fill FLC_ADDR and FLC_CMD for a command of the firmware. -/
def fwCommand (op a count : Nat) (s : State) : State :=
  { s with flc := { s.flc with
      addr := a
      ctl := op + 16 * count } }

/-- The firmware programs words inside one line (R351 to R354): did the PROG end with OK? How it goes is free where no
outcome is given. -/
def fwProgLine (out : Option FlashOutcome) (a : Nat) (ws : List Dword) (s : State) : Bool × State :=
  let s := setFlcData (ws.flatMap fun w => leBytes 8 w.toNat) (fwCommand 2 a (ws.length - 1) s)
  if isWorn s (a / 4096) then (false, flcEnd 2 stExhausted s)
  else if (List.range ws.length).all (fun i => wordErased s (a / 8 + i)) then
    let s := dropSectorLines (a / 4096) { s with flc := { s.flc with retired := false } }
    let o := match out with
      | some x => (x, s)
      | none => drawOutcome 8 s
    let r := finishProg a ws o.1 o.2
    (r.1, flcEnd 2 (if r.1 then stOk else stExhausted) (dropSectorLines (a / 4096) r.2))
  else (false, flcEnd 2 stStateRefused s)

/-- Words from word address `w` on, line by line, with the outcomes that are given for the first lines; the first PROG that does
not end with OK ends them. -/
def fwProgWords : Nat → List FlashOutcome → Nat → List Dword → State → Bool × State
  | 0, _, _, _, s => (true, s)
  | f + 1, outs, w, ws, s =>
    if ws.isEmpty then (true, s)
    else
      let n := min (8 - w % 8) ws.length
      let r := fwProgLine outs.head? (8 * w) (ws.take n) s
      if r.1 then fwProgWords f outs.tail (w + n) (ws.drop n) r.2 else r

/-- The firmware programs bytes from a flash address that is a multiple of 8; `outs` says how the first lines go. -/
def fwProgAs (outs : List FlashOutcome) (a : Nat) (bs : List Byte) (s : State) : Bool × State :=
  let ws := dwordsOf bs
  fwProgWords (ws.length + 1) outs (a / 8) ws s

def fwProg (a : Nat) (bs : List Byte) (s : State) : Bool × State := fwProgAs [] a bs s

/-- RETIRE of the firmware. -/
def fwRetire (sect : Nat) (s : State) : State :=
  let s := fwCommand 6 (sect * 4096) 0 s
  if isWorn s sect then flcEnd 6 stExhausted s
  else
    let o := drawOutcome 8 { s with flc := { s.flc with retired := false } }
    retireCommand sect o.1.badSpares o.2

/-- The firmware erases a sector (R355): did it end with OK? One that has given four warnings of slow programming is retired
first (R360). -/
def fwErase (sect : Nat) (s : State) : Bool × State :=
  let s := if 4 ≤ SMap.get 0 s.flc.warnings sect then fwRetire sect s else s
  let s := fwCommand 3 (sect * 4096) 0 s
  if isWorn s sect then (false, flcEnd 3 stExhausted s)
  else
    let o := drawOutcome 12 (dropSectorLines sect { s with flc := { s.flc with retired := false } })
    let r := eraseEnd sect o.1 o.2
    (r.1, flcEnd 3 (if r.1 then stOk else stExhausted) r.2)

/-- The firmware erases sectors `a` to `a + n − 1`. -/
def fwEraseAll (a n : Nat) (s : State) : State := (List.range n).foldl (fun t i => (fwErase (a + i) t).2) s

/-- Checks 3 to 6 of R352 for one word from the journal port (R350, R352). -/
def jportCheck (s : State) (a : Nat) : Nat :=
  firstFail [(decide (a % 8 = 0), stRange),
    (!((s.flc.erase == .suspended || s.flc.erase == .auto) && decide (a / 4096 = s.flc.eraseSect)), stStateRefused),
    (!isWorn s (a / 4096), stExhausted), (wordErased s (a / 8), stStateRefused)]

/-- A write of FLC_CFG: a field outside its range keeps its value (R367). -/
def setFlcCfg (v : Word) (s : State) : State :=
  let p := fld v 8 4
  let r := fld v 4 4
  { s with flc := { s.flc with
      pulseThresh := if 2 ≤ p ∧ p ≤ 8 then p else s.flc.pulseThresh
      readThresh := if 1 ≤ r ∧ r ≤ 8 then r else s.flc.readThresh
      autosus := bitOf v.toNat 0 } }

/-! ### Execute-in-place (R365) -/

/-- Put a line into the branch cache: 64 sets of 4 ways, least recently used replaced. -/
def branchInsert (line : Nat) (s : State) : State :=
  let set := line % 64
  let ways := (SMap.get [] s.flc.branch set).filter fun l => decide (l ≠ line)
  { s with flc := { s.flc with branch := SMap.set [] s.flc.branch set ((line :: ways).take 4) } }

/-- Does a line hit the prefetch buffer or the branch cache? -/
def xipHit (s : State) (line : Nat) : Bool :=
  s.flc.prefetch.contains line || (SMap.get [] s.flc.branch (line % 64)).contains line

/-- May the prefetcher read this line: inside the store and not in the sector of an erase. -/
def prefetchable (s : State) (line : Nat) : Bool :=
  decide (line < 0x100000) && !(s.flc.erase != .none && decide (line / 64 = s.flc.eraseSect))

/-- The lines that the prefetch buffer should hold after a fill at line `l`: those of L + 1 to L + 8 it holds. -/
def prefetchKeep (l : Nat) (s : State) : State :=
  { s with flc := { s.flc with prefetch := s.flc.prefetch.filter fun x => decide (l < x) && decide (x ≤ l + 8) } }

/-! ### The boot ROM's remap work (R363) -/

/-- Apply one counting record. -/
def applyRemap (w : Dword) (s : State) : State :=
  let sect := fld w 0 14
  let sp := fld w 14 9
  let s := if sp < 328 then { s with flash := { s.flash with named := SMap.set false s.flash.named sp true } } else s
  if fld w 23 2 = 3 then { s with flash := { s.flash with bad := SMap.set false s.flash.bad sp true } }
  else if sp = 0x1FF then { s with flash := { s.flash with worn := SMap.set false s.flash.worn sect true } }
  else { s with flash := { s.flash with spareOf := SMap.set none s.flash.spareOf sect (some sp) } }

/-- Insert a record by SEQ, once per SEQ. -/
def insertRemap (w : Dword) : List Dword → List Dword
  | [] => [w]
  | x :: xs => if fld w 32 24 < fld x 32 24 then w :: x :: xs
    else if fld w 32 24 = fld x 32 24 then x :: xs else x :: insertRemap w xs

/-- The records of a remap copy that the boot ROM reads: those whose read ends with OK (R459). -/
def copyRead (copy : Nat) (bad : List (Nat × Nat)) (ws : List Dword) : List Dword :=
  ((ws.zipIdx).filter fun p => !bad.contains (copy, p.2)).map (·.1)

/-- The counting records of both copies in SEQ order. -/
def remapOrder (a b : List Dword) : List Dword := ((a ++ b).filter remapCounts).foldl (fun l w => insertRemap w l) []

/-- Boot steps 1 to 4 of R363: read, apply in SEQ order, complete each copy from the other, erase the spares that no
counting record names. -/
def bootRemap (bad : List (Nat × Nat)) (s : State) : State :=
  let a := copyRead 0 bad s.flash.copyA
  let b := copyRead 1 bad s.flash.copyB
  let order := remapOrder a b
  let s := { s with flash := { s.flash with
    spareOf := []
    worn := []
    named := []
    bad := []
    copyA := (order.filter fun w => !a.contains w).foldl remapPut s.flash.copyA
    copyB := (order.filter fun w => !b.contains w).foldl remapPut s.flash.copyB } }
  let s := order.foldl (fun t w => applyRemap w t) s
  (freeSpares s).foldl (fun t i => erasePhys (16386 + i) t) s

/-- A word of ones in place of the last record of a remap copy: a torn write that the copy counts as a word. -/
def tearRemap (s : State) : State :=
  let d := drawDword s
  { d.2 with flash := { d.2.flash with copyB := d.2.flash.copyB.dropLast ++ [d.1] } }

/-- A retirement that power loss or a device reset stops (R363): free, whether there was one, and whether its record was torn
in copy A, so that the old mapping stays, or in copy B, so that the new one holds. -/
def stopRetirement (sect reason : Nat) (ws : Nat × List Dword) (s : State) : State :=
  let k := drawBelow 3 1 s
  match k.1 with
  | 0 => k.2
  | 1 =>
    let d := drawDword k.2
    { d.2 with flash := { d.2.flash with copyA := remapPut d.2.flash.copyA d.1 } }
  | _ =>
    let r := retireSector sect reason 0 k.2
    tearRemap (if r.1 then putFlashWords ws.1 ws.2 r.2 else r.2)

/-- An array operation stopped by loss of power or device reset (R364): words of a running PROG and the sector of an
erase become unspecified; a retirement may have been under way. -/
def abandonFlash (s : State) : State :=
  let prog := fun (a : Nat) (ws : List Dword) (t : State) =>
    stopRetirement (a / 4096) 0 (a / 8, ws) (spoilWords (a / 8) ws.length false t)
  let s := match s.flc.run with
    | .prog a ws true => prog a ws s
    | _ => s
  let s := match s.flc.jrun with
    | some (a, w) => prog a [w] s
    | none => s
  if s.flc.erase = .none then s
  else stopRetirement s.flc.eraseSect 1 (0, []) (spoilWords (s.flc.eraseSect * 512) 512 false s)

end Sys2Proof.Machine
end

