-- ==== Sys2Proof/Machine/Counters.lean ====
section
/-! DEFINITION. The counter vault and its journal (06_symmetric_hash_counters.md, R207 to R215). -/

namespace Sys2Proof.Machine

/-- The largest counter value. -/
abbrev ctrTop : Nat := 2 ^ 64 - 1

def ctrV (s : State) (c : Nat) : Nat := SMap.get 0 s.sym.ctr.v c
def ctrB (s : State) (c : Nat) : Nat := SMap.get 0 s.sym.ctr.b c

/-- Change the counter vault. -/
def updCtr (f : CtrState → CtrState) (s : State) : State := { s with sym := { s.sym with ctr := f s.sym.ctr } }

/-! ### The journal (R212, R213) -/

/-- Log sectors: 129 to CTRJ_SECT − 1 of the area. -/
def ctrLogArea (s : State) : Nat × Nat := (ctrjSect0 s + 129, s.img.latched.partition.ctrj - 129)

/-- A journal record's two words. -/
def journalWords (typ value index seq : Nat) : List Dword :=
  let a := leBytes 8 value ++ leBytes 2 index ++ [BitVec.ofNat 8 typ]
  let q := leBytes 4 seq
  [BitVec.ofNat 64 value, BitVec.ofNat 64 (leNat (leBytes 2 index ++ [BitVec.ofNat 8 typ, crc8 (a ++ q)] ++ q))]

/-- A record read from the journal. -/
structure JRec where
  typ   : Nat
  value : Nat
  index : Nat
  seq   : Nat
deriving DecidableEq, Repr

/-- The record at a flash address, where it counts (R212, R459). -/
def journalRec (s : State) (a : Nat) : Option JRec :=
  let b := flashBytes s a 16
  if flashReads s a 16 = false ∨ slice b 8 8 = List.replicate 8 0xFF then none
  else if slice b 11 1 = [crc8 (b.take 11 ++ slice b 12 4)] then some ⟨leAt b 10 1, leAt b 0 8, leAt b 8 2, leAt b 12 4⟩
  else none

/-- Header of a log sector. -/
def isJournalHeader (b : List Byte) : Bool := b.take 4 == [0x4A, 0x54, 0x43, 0x4C]

/-- The counting records of a log sector. -/
def journalSector (s : State) (sect : Nat) : List JRec :=
  if isJournalHeader (flashBytes s (sect * 4096) 4) ∧ flashReads s (sect * 4096) 8 = true then
    (List.range 255).filterMap fun i => journalRec s (sect * 4096 + 16 + 16 * i)
  else []

/-- Log sectors that hold anything. -/
def usedLog (s : State) : List Nat :=
  usedSectors s (ctrLogArea s).1 (ctrLogArea s).2

/-- Insert a journal record by SEQ. -/
def insertJ (r : JRec) : List JRec → List JRec
  | [] => [r]
  | x :: xs => if r.seq ≤ x.seq then r :: x :: xs else x :: insertJ r xs

/-- Every counting record of the log, in ascending SEQ. -/
def journalAll (s : State) : List JRec := ((usedLog s).flatMap fun x => journalSector s x).foldl (fun l r => insertJ r l) []

/-- LOG_FREE: log sectors that are erased and unused. -/
def logFree (s : State) : Nat := (ctrLogArea s).2 - (usedLog s).length

/-- A page's place in the pool. -/
def pageOf (s : State) (p : Nat) : PageMap := SMap.get {} s.sym.ctr.pages p

/-- The log sector that follows `x`. -/
def nextLog (s : State) (x : Nat) : Nat := let a := ctrLogArea s; a.1 + (x - a.1 + 1) % a.2

/-- Put words at a flash address into the journal port's queue (R350). -/
def portWords (a : Nat) (ws : List Dword) (s : State) : State :=
  { s with flc := { s.flc with jport := s.flc.jport ++ (ws.zipIdx).map fun p => (a + 8 * p.2, p.1) } }

/-- The place of the next record: a sector to start first, if any. None where the log has no free sector (R215). -/
def journalPlace (s : State) : Option (Nat × Nat × Bool) :=
  let l := s.sym.ctr.log
  if l.valid = true ∧ l.off + 16 ≤ 4096 then some (l.sector, l.off, false)
  else
    let x := if l.valid then nextLog s l.sector else (ctrLogArea s).1
    if (usedLog s).contains x ∨ (ctrLogArea s).2 = 0 then none else some (x, 16, true)

/-- Append a record to the journal (R212): its words go to the journal port. True where the log had a place. -/
def appendJournal (typ value index : Nat) (s : State) : Bool × State :=
  match journalPlace s with
  | none => (false, cause .sym 3 (updCtr (fun c => { c with stalled := true }) s))
  | some (x, off, fresh) =>
    let seq := s.sym.ctr.seq + 1
    let s := if fresh then
        portWords (x * 4096) [BitVec.ofNat 64 (leNat ([0x4A, 0x54, 0x43, 0x4C] ++ leBytes 4 (s.sym.ctr.uses + 1))), 0]
          (updCtr (fun c => { c with uses := c.uses + 1 }) s)
      else s
    let s := portWords (x * 4096 + off) (journalWords typ value index seq) s
    (true, updCtr (fun c => { c with seq := seq, since := c.since + 1, log := ⟨x, off + 16, true⟩, stalled := false }) s)

/-! ### Drawing values (R207 to R210, R442) -/

/-- On a rafter a value comes from a lease; elsewhere it is V + 1 (R442). None where a rafter holds no lease. -/
def ctrNextValue (s : State) (c : Nat) : Option Nat :=
  if s.btn.role = .solo ∨ s.btn.role = .ridge then some (ctrV s c + 1)
  else ((SMap.get [] s.btn.leases c).find? fun l => decide (l.next < l.first + l.count)).map (·.next)

/-- The end of the block that the reservation may cover. -/
def ctrBound (s : State) (c : Nat) : Nat :=
  if s.btn.role = .solo ∨ s.btn.role = .ridge then ctrTop
  else match (SMap.get [] s.btn.leases c).find? fun l => decide (l.next < l.first + l.count) with
    | some l => l.first + l.count - 1
    | none => ctrB s c

/-- The low-water rule of R208: append a RESERVE record where B − V is 64 or less, or V has reached B, and none of the
counter is in flight. -/
def ctrReserve (c : Nat) (s : State) : State :=
  let x := match ctrNextValue s c with
    | some y => y - 1
    | none => ctrV s c
  let bnew := min (max (ctrB s c) x + 256) (ctrBound s c)
  if (SMap.get none s.sym.ctr.flight c).isNone ∧ ctrB s c ≤ x + 64 ∧ ctrB s c < bnew then
    let r := appendJournal 1 bnew c s
    if r.1 then updCtr (fun k => { k with flight := SMap.set none k.flight c (some bnew) }) r.2 else r.2
  else s

/-- What reading counter `c` returns (R149, R214, R442): the last value issued; on a rafter the ridge serves it, from
state that this module does not hold, so the value is free, and none is had without a route to the ridge. -/
def ctrReadValue (c : Nat) (s : State) : Option Nat × State :=
  match s.btn.table with
  | some t =>
    if s.btn.role = .ridge then (some (ctrV s c), s)
    else if reachable s t.ridge then
      let d := drawDword s
      (some d.1.toNat, d.2)
    else (none, s)
  | none => (some (ctrV s c), s)

/-- What a draw answers: a status, a value, or that the request waits. -/
inductive Draw where
  | ended (status : Nat)
  | value (v : Nat)
  | waits
deriving DecidableEq, Repr

/-- Take a value out of the lease that it belongs to. -/
def takeLease (c v : Nat) (s : State) : State :=
  if s.btn.role = .solo ∨ s.btn.role = .ridge then s
  else
    let ls := (SMap.get [] s.btn.leases c).map fun l => if l.next = v then { l with next := v + 1 } else l
    { s with btn := { s.btn with leases := SMap.set [] s.btn.leases c (ls.filter fun l => decide (l.next < l.first + l.count)) } }

/-- Issue value `v` of counter `c`. -/
def ctrIssue (c v : Nat) (s : State) : State :=
  let s := takeLease c v (updCtr (fun k => { k with v := SMap.set 0 k.v c v }) s)
  if v = ctrTop then cause .sym 5 { s with sym := { s.sym with ctrExh := c } } else s

/-- A request for the next value of counter `c` reaches the vault (R209). -/
def reachVault (a : Asker) (c : Nat) (s : State) : State :=
  if s.sym.ctr.arrivals.any (·.1 == a) then s else updCtr (fun k => { k with arrivals := k.arrivals ++ [(a, c)] }) s

/-- Does one that asked still wait: a port's request is in progress, a command has not ended? -/
def stillAsks (s : State) : Asker → Bool
  | .port n => (portOf s n).req.isSome
  | .cmd r => s.hqi.cmds.any fun c => c.ref == r && !c.finished

/-- Is it the turn of `a` at counter `c`: no earlier request to the counter still waits (R209)? -/
def vaultTurn (s : State) (a : Asker) (c : Nat) : Bool :=
  match s.sym.ctr.arrivals.find? fun e => e.2 == c && (e.1 == a || stillAsks s e.1) with
  | some e => e.1 == a
  | none => true

/-- CTR_NEXT of counter `c` (R207, R208). -/
def ctrDraw (c : Nat) (s : State) : Draw × State :=
  if retiredLc s then (.ended stStateRefused, s)
  else if ctrV s c = ctrTop then (.ended stExhausted, s)
  else match ctrNextValue s c with
  | none => (.waits, s)
  | some v =>
    if v ≤ ctrB s c then (.value v, ctrReserve c (ctrIssue c v s))
    else (.waits, ctrReserve c s)

/-- The time rule of R210: append a TIME record where C − t is 60 s or less and none is in flight. -/
def timeReserve (t : Nat) (s : State) : State :=
  if s.sym.ctr.timeFly.isNone ∧ s.sym.ctr.ceiling ≤ t + 60000000 then
    let r := appendJournal 3 (t + 600000000) 0 s
    if r.1 then updCtr (fun k => { k with timeFly := some (t + 600000000) }) r.2 else r.2
  else s

/-- CTR_NEXT_TIME of counter `c` (R209, R210): a value and the trusted time in one step. -/
def ctrDrawTime (c : Nat) (s : State) : Draw × Nat × State :=
  let t := s.sys.time
  if retiredLc s then (.ended stStateRefused, t, s)
  else if s.sys.timePhase = .unset then (.ended stStateRefused, t, s)
  else if ctrV s c = ctrTop then (.ended stExhausted, t, s)
  else
    let s := timeReserve t s
    if s.sym.ctr.ceiling < t then (.waits, t, s)
    else
      let r := ctrDraw c s
      (r.1, t, r.2)

/-- The time state byte of R209. -/
def timeByte (s : State) : Nat := if s.sys.timePhase = .synchronised then 1 else 2

/-! ### Records that have verified, and recovery (R208, R210, R213) -/

/-- Is any word of the journal port still to be programmed? A record's words are programmed in order. -/
def portIdle (s : State) : Bool := s.flc.jport.isEmpty

/-- The grant of a block of counter `c` that waited for its record is sent (R442). -/
def sendWaiting (c : Nat) (s : State) : State :=
  let mine := s.btn.grants.filter fun g => g.1 == c
  mine.foldl (fun t g => sendGrant c g.2.1 g.2.2.1 g.2.2.2 t)
    { s with btn := { s.btn with grants := s.btn.grants.filter fun g => g.1 != c } }

/-- The RESERVE record of counter `c` has verified: B takes its bound and the low-water rule is tested again (R208). -/
def reserveVerified (c : Nat) (s : State) : State :=
  match SMap.get none s.sym.ctr.flight c with
  | some b =>
    if (journalAll s).any fun r => r.typ == 1 && r.index == c && r.value == b then
      sendWaiting c (ctrReserve c (updCtr (fun k => { k with b := SMap.set 0 k.b c b, flight := SMap.set none k.flight c none }) s))
    else s
  | none => s

/-- The TIME record has verified: the ceiling takes its value (R210). -/
def timeVerified (s : State) : State :=
  match s.sym.ctr.timeFly with
  | some t =>
    if (journalAll s).any fun r => r.typ == 3 && r.value == t then
      updCtr (fun k => { k with ceiling := t, timeFly := none }) s
    else s
  | none => s

/-- Counter recovery at power-up (R213). -/
def ctrRecover (s : State) : State :=
  let s := noteSectors (ctrjSect0 s) s.img.latched.partition.ctrj s
  let recs := journalAll s
  let pages := (recs.filter (·.typ == 2)).foldl (fun m r =>
    SMap.set {} m r.index ⟨r.value % 256, r.value / 2 ^ 32, true⟩) ([] : SMap PageMap)
  let ceil := (recs.filter (·.typ == 3)).foldl (fun m r => max m r.value) 0
  let s := updCtr (fun _ => { pages := pages, ceiling := ceil, floor := ceil }) s
  let snapOf := fun (p : Nat) => let x := SMap.get {} pages p; if x.valid then x.snap else 0
  -- bounds that the pages hold: only programmed entries of mapped pages
  let paged := pages.flatMap fun e => (List.range 512).filterMap fun i =>
    let a := (ctrjSect0 s + e.2.sector) * 512 + i
    let w := flashWord s a
    if wordErased s a = true ∨ w = 0 ∨ flashReads s (8 * a) 8 = false then none else some (512 * e.1 + i, w.toNat)
  let b0 := paged.foldl (fun m p => SMap.set 0 m p.1 p.2) ([] : SMap Nat)
  let b := (recs.filter (·.typ == 1)).foldl (fun m r =>
    if snapOf (r.index / 512) < r.seq ∨ (SMap.get {} pages (r.index / 512)).valid = false then
      SMap.set 0 m r.index (max (SMap.get 0 m r.index) r.value) else m) b0
  let last := recs.getLast?
  let top := (usedLog s).foldl (fun (a : Nat × Nat) x =>
    let u := leAt (flashBytes s (x * 4096) 8) 4 4
    if isJournalHeader (flashBytes s (x * 4096) 4) ∧ a.2 < u then (x, u) else a) (0, 0)
  let used := sectorEnd s top.1
  let inUse := (List.range 128).map fun p => let x := SMap.get {} pages p; if x.valid then x.sector else p
  let free := ((List.range 129).find? fun i => !inUse.contains i).getD 128
  let lastPage := ((recs.filter (·.typ == 2)).getLast?).map fun r => (r.index + 1) % 128
  let sincePage := match (recs.filter (·.typ == 2)).getLast? with
    | some r => recs.length - (recs.filter fun x => decide (x.seq ≤ r.seq)).length
    | none => recs.length
  updCtr (fun c => { c with
    v := b
    b := b
    seq := (last.map (·.seq)).getD 0
    log := if top.2 = 0 then {} else ⟨top.1, max 16 (roundUp 16 (8 * used)), true⟩
    uses := top.2
    freeSect := free
    nextPage := lastPage.getD 0
    since := sincePage }) s

/-! ### Page rewrites (R213) -/

/-- P of R213. -/
def pagePeriod (s : State) : Nat := 128 * ((s.img.latched.partition.ctrj - 129) / 127)

/-- May a log sector be erased (R213): its records are older than every page's snapshot, and it holds neither the
latest PAGE record of a page nor the latest TIME record? -/
def logErasable (s : State) (recs : List JRec) (x : Nat) : Bool :=
  let mine := journalSector s x
  let latest := fun (r : JRec) => !(recs.any fun q => q.typ == r.typ && q.index == r.index && decide (r.seq < q.seq))
  mine.all fun r => (List.range 128).all fun p => (pageOf s p).valid && decide (r.seq < (pageOf s p).snap)
    && !((r.typ == 2 || r.typ == 3) && latest r)

/-- Before the sector due next for erasure goes, a copy of the latest TIME record that it holds is appended. -/
def copyTime (s : State) (recs : List JRec) (x : Nat) : State :=
  match (recs.filter (·.typ == 3)).getLast? with
  | some t => if (journalSector s x).contains t then (appendJournal 3 t.value 0 s).2 else s
  | none => s

/-- Erase a sector of the counter journal and count it (R472, R474). -/
def journalErase (sect : Nat) (s : State) : State :=
  let n := satInc 0xFFFFFFFF (SMap.get 0 s.tel.erases sect)
  let s := (fwErase sect s).2
  let c := s.tel.counts
  let pool := decide (sect < ctrjSect0 s + 129)
  let s := { s with tel := { s.tel with
    erases := SMap.set 0 s.tel.erases sect n
    counts := { c with
      ctrjPool := if pool then max c.ctrjPool n else c.ctrjPool
      ctrjLog := if pool then c.ctrjLog else max c.ctrjLog n } } }
  if 8000 < n then cause .tel 4 s else s

/-- Log sectors that are no longer needed are erased (R213). -/
def eraseLogs (s : State) : State :=
  let recs := journalAll s
  let s := (usedLog s).foldl (fun t x => if x ≠ t.sym.ctr.log.sector ∧ logErasable t recs x = true then journalErase x t else t) s
  updCtr (fun c => { c with rewrite := .none }) s

/-- Is there a record of a type with a value in the log? -/
def inJournal (s : State) (typ value : Nat) : Bool := (journalAll s).any fun r => r.typ == typ && r.value == value

/-- The journal port is idle during a page rewrite. Its PAGE record has verified: the old sector is erased and becomes the
free one; the latest TIME record is copied out of the sector due for erasure, before log sectors are erased. -/
def pageStep (s : State) : State :=
  if portIdle s = false ∨ s.flc.jrun.isSome = true then s
  else match s.sym.ctr.rewrite with
  | .none => s
  | .time => eraseLogs s
  | .record p dst snap =>
    if inJournal s 2 (dst + snap * 2 ^ 32) then
      let old := pageOf s p
      let s := updCtr (fun c => { c with
        pages := SMap.set {} c.pages p ⟨dst, snap, true⟩
        freeSect := if old.valid then old.sector else p
        nextPage := (p + 1) % 128
        since := 0
        rewrite := .time }) s
      let s := if old.valid then journalErase (ctrjSect0 s + old.sector) s else s
      let x := nextLog s s.sym.ctr.log.sector
      let s := if (usedLog s).contains x then copyTime s (journalAll s) x else s
      if portIdle s then eraseLogs s else s
    else s

/-- The bounds of page `p` as words. -/
def pageWords (s : State) (p : Nat) : List Dword := (List.range 512).map fun i => BitVec.ofNat 64 (ctrB s (512 * p + i))

/-- Steps 1 and 2 of R213: the page's bounds go into the free pool sector, which is read back: did it take them? -/
def writePage (p : Nat) (s : State) : Bool × State :=
  let x := ctrjSect0 s + s.sym.ctr.freeSect
  let ws := pageWords s p
  let s := if sectorErased s x then s else journalErase x s
  let r := fwProgWords 513 [] (x * 512) ws s
  let s := noteSectors x 1 r.2
  (r.1 && flashReads s (x * 4096) 4096 && (List.range 512).all fun i => flashWord s (x * 512 + i) == ws.getD i 0, s)

/-- PAGE_REWRITE (R213): the next page's bounds go into the free pool sector and a PAGE record follows; once it has verified,
the old sector goes (`pageStep`). A page that did not verify is written again when the row comes again. It waits until
the journal port is idle; a page that has no PAGE record yet has the pool sector of its own number. -/
def pageRewriteEffect (s : State) : State :=
  if powered s = false ∨ wardenUp s = false ∨ s.sym.ctr.since < pagePeriod s ∨ pagePeriod s = 0 ∨ portIdle s = false
      ∨ s.sym.ctr.rewrite ≠ .none then s
  else
    let p := s.sym.ctr.nextPage % 128
    let snap := s.sym.ctr.seq
    let dst := s.sym.ctr.freeSect
    let w := writePage p s
    if w.1 then
      let r := appendJournal 2 (dst + snap * 2 ^ 32) p w.2
      if r.1 then updCtr (fun c => { c with rewrite := .record p dst snap }) r.2 else r.2
    else w.2

end Sys2Proof.Machine
end

