-- ==== Sys2Proof/Machine/Hqi.lean ====
section
/-! DEFINITION. The host queue interface's shared operations (03_host_queues.md): functions, windows, entries, fetches,
the Reel arbiter's choice, completions and chains, and function-level reset. -/

namespace Sys2Proof.Machine

/-! ### Functions and rings -/

/-- EAV_LEVEL.HELD (R379): 0 none, 1 THROTTLE, 2 SUSPEND, 3 PURGE. -/
def heldLevel (s : State) : Nat :=
  if s.eav.holdPurge then 3 else if s.eav.holdSus then 2 else if s.eav.holdThr then 1 else 0

/-- A function's stored registers. -/
def fnOf (s : State) (f : Nat) : FnState := SMap.get {} s.hqi.fns f

/-- Change a function's stored registers. -/
def updFn (f : Nat) (g : FnState → FnState) (s : State) : State :=
  { s with hqi := { s.hqi with fns := SMap.set {} s.hqi.fns f (g (fnOf s f)) } }

/-- Ring context `c` = function × 64 + ring (R71). -/
def ringOf (s : State) (c : Nat) : RingCtx := SMap.get {} s.hqi.rings c

/-- Put a ring context. -/
def setRing (c : Nat) (r : RingCtx) (s : State) : State := { s with hqi := { s.hqi with rings := SMap.set {} s.hqi.rings c r } }

/-- The context of a function's ring. -/
abbrev ctxNum (f r : Nat) : Nat := f * 64 + r

/-- Rings that a function owns (R71). -/
def ringCount (s : State) (f : Nat) : Nat := if f = 0 then 64 else if formed s f then (gableCfg s f).ringCount else 0

/-- The latched RING entry of a context, or what R71 gives a physical-function ring; none where the function does not
own the ring. -/
def ringCfg (s : State) (c : Nat) : Option RingCfg :=
  let f := c / 64
  let r := c % 64
  if f = 0 then some ⟨r, 16, 4, 1, Config.pfQueue r % 32, 16⟩
  else if r < ringCount s f then (SMap.get [] s.img.latched.rings f).find? fun e => e.ring == r else none

/-- INLINE of a context. -/
def ringInline (s : State) (c : Nat) : Bool := match ringCfg s c with
  | some e => bitOf e.flags 0
  | none => false

/-- Is the function enabled: the physical function, or one of the virtual functions that VF Enable brings up (R67)? -/
def fnEnabled (s : State) (f : Nat) : Bool := f == 0 || (decide (f < 64) && s.hqi.vfEnable && decide (f ≤ s.hqi.numVfs))

/-- READY of a function (R76): the gable is formed and the function enabled. -/
def fnReady (s : State) (f : Nat) : Bool := f == 0 || (formed s f && fnEnabled s f)

/-- SUSPENDED of a function (R76, R373, R375). -/
def fnSuspended (s : State) (f : Nat) : Bool := f != 0 && decide (2 ≤ heldLevel s)

/-- Does [a, a + n) lie inside one window of function `f` with access bit `b` (0 READ, 1 WRITE) (R45, R94)? -/
def inWindow (s : State) (f a n b : Nat) : Bool :=
  !latchBad s (.range f 6) && (SMap.get [] s.img.latched.windows f).any fun w => inside a n w.base w.length && bitOf w.access b

/-! ### Entries (R77) -/

def eOpcode (e : List Byte) : Nat := leAt e 0 2
def eFlags (e : List Byte) : Nat := leAt e 2 1
def eFirst (e : List Byte) : Bool := bitOf (eFlags e) 0
def eLast (e : List Byte) : Bool := bitOf (eFlags e) 1
def eFence (e : List Byte) : Bool := bitOf (eFlags e) 2
def eTag (e : List Byte) : List Byte := slice e 4 4
def eKey (e : List Byte) : Nat := leAt e 8 8
def eSrc (e : List Byte) : Nat := leAt e 16 8
def eDst (e : List Byte) : Nat := leAt e 24 8
def eSrcLen (e : List Byte) : Nat := leAt e 32 4
def eDstLen (e : List Byte) : Nat := leAt e 36 4

/-- PARAM byte at entry offset `o` (40 to 63), `n` bytes as a number. -/
def eParam (e : List Byte) (o n : Nat) : Nat := leAt e o n

/-- Reserved bits set, or DONE set by the host (R96). -/
def entryReserved (e : List Byte) : Bool := decide (8 ≤ eFlags e) || decide (leAt e 3 1 ≠ 0)

/-! ### Commands in flight -/

/-- Commands of function `f` in flight. -/
def fnInfl (s : State) (f : Nat) : Nat := (s.hqi.cmds.filter fun c => c.ref.fn == f && !offRing c.ref).length

/-- Commands of a ring in flight. -/
def ringInfl (s : State) (c : Nat) : Nat := (s.hqi.cmds.filter fun x => ctxNum x.ref.fn x.ref.ring == c && !offRing x.ref).length

/-- Trusses of a gable. -/
def trussCount (s : State) (g : Nat) : Nat := (maskList (trussMaskOf s g)).length

/-- Credits that Pavane gables reserve (R89). -/
def pavaneCredits (s : State) : Nat := (((formedGables s).filter fun g => isPavane s g).map fun g => 64 * trussCount s g).sum

/-- CREDIT of a function (R89). -/
def fnCredit (s : State) (f : Nat) : Nat :=
  if isPavane s f then 64 * trussCount s f else min 4096 (8192 - pavaneCredits s)

/-- Is the function below its in-flight limit (R89)? -/
def belowLimit (s : State) (f : Nat) : Bool :=
  decide (fnInfl s f < fnCredit s f)
    && (isPavane s f
      || decide ((s.hqi.cmds.filter fun c => !isPavane s c.ref.fn && !offRing c.ref).length < 8192 - pavaneCredits s))

/-- The command in flight that `r` names. -/
def findCmd (s : State) (r : CmdRef) : Option Cmd := s.hqi.cmds.find? fun c => c.ref == r

/-- Change the command that `r` names. -/
def updCmd (r : CmdRef) (f : Cmd → Cmd) (s : State) : State :=
  { s with hqi := { s.hqi with cmds := s.hqi.cmds.map fun c => if c.ref = r then f c else c } }

/-- The command that `r` names is no longer in flight. -/
def dropCmd (r : CmdRef) (s : State) : State :=
  { s with hqi := { s.hqi with cmds := s.hqi.cmds.filter fun c => c.ref != r } }

/-! ### Host requests (R67, R68) -/

/-- Attributes of a request: Relaxed Ordering and ID-Based Ordering are clear (R68), and an ECRC is added where the host has
enabled it (R67). -/
def reqAttr (s : State) : ReqAttr := { ecrc := s.hqi.ecrc }

/-- The pieces of [a, a + n) that do not cross a multiple of `m`. -/
def requestPieces (m a n : Nat) : List (Nat × Nat) :=
  if n = 0 ∨ m = 0 then []
  else (List.range ((a % m + n + m - 1) / m)).map fun k =>
    let lo := max a (a / m * m + k * m)
    (lo, min (a + n) (a / m * m + (k + 1) * m) - lo)

/-- Read requests that may be outstanding at once (R67). -/
def tagLimit (s : State) : Nat := if s.hqi.tenBit then 768 else 256

/-- Issue the read requests that wait, as far as tags are free. -/
def pumpReads (s : State) : State :=
  let n := tagLimit s - s.hqi.tags.length
  let q := s.hqi.unsent.take n
  emitAll (q.map fun (x : ReadId × Nat × Nat × Nat) => Output.hostRead x.1 x.2.1 x.2.2.1 x.2.2.2 (reqAttr s))
    { s with hqi := { s.hqi with
      tags := s.hqi.tags ++ q.map (·.1)
      unsent := s.hqi.unsent.drop n } }

/-- Read [a, a + n) of function `f`'s host memory, by requests no larger than the programmed read size (R67). -/
def issueRead (rd : ReadId) (f a n : Nat) (s : State) : State :=
  pumpReads { s with hqi := { s.hqi with
    unsent := s.hqi.unsent ++ (requestPieces s.hqi.maxRead a n).map fun (x : Nat × Nat) => (rd, f, x.1, x.2) } }

/-- A read comes to its end: whole, so that each of its requests has been issued (`whole`), or not. Its tags are free
again. -/
def endRead (rd : ReadId) (whole : Bool) (s : State) : State :=
  let mine := s.hqi.unsent.filter fun x => x.1 == rd
  let s := if whole then
      emitAll (mine.map fun (x : ReadId × Nat × Nat × Nat) => Output.hostRead x.1 x.2.1 x.2.2.1 x.2.2.2 (reqAttr s)) s
    else s
  pumpReads { s with hqi := { s.hqi with
    tags := s.hqi.tags.filter fun x => x != rd
    unsent := s.hqi.unsent.filter fun x => x.1 != rd } }

/-- Write bytes to function `f`'s host memory, in posted writes no larger than the payload size (R67). -/
def writeHost (f a : Nat) (bytes : List Byte) (s : State) : State :=
  emitAll ((requestPieces s.hqi.maxPayload a bytes.length).map fun (x : Nat × Nat) =>
    Output.hostWrite f x.1 (slice bytes (x.1 - a) x.2) (reqAttr s)) s

/-- Transactions Pending of a function (R98): a read of it is outstanding. -/
def transactionsPending (s : State) (f : Nat) : Bool := s.hqi.reads.any fun rd => match rd with
  | .cmd r => r.fn == f
  | .fetch r => r.fn == f
  | .port _ => false
  | _ => f == 0

/-! ### Fetches (R86) -/

/-- Is an inline slot bound to position `p`? -/
def boundSlot (r : RingCtx) (p : Word) : Option (List Byte) :=
  r.slots.findSome? fun x => match x with
    | .bound q b => if q = p then some b else none
    | _ => none

/-- The entry at HEAD where the HQI holds it and the arbiter knows it. -/
def heldEntry (r : RingCtx) : Option (List Byte) :=
  if r.known = r.head then none
  else match boundSlot r r.head with
    | some b => some b
    | none => (r.held.find? fun x => x.1 == r.head).map (·.2)

/-- Host address of the entry at position `p` (R77). -/
def entryAddr (r : RingCtx) (p : Word) : Nat := r.base.toNat + 64 * (p.toNat % 2 ^ r.sizeLog2)

/-- Positions whose entry fetch is due: known entries within 16 of HEAD, not bound, not held, not outstanding, and
before the position at which the ring stops. -/
def dueFetches (r : RingCtx) : List Word :=
  let n := min 16 (r.known - r.head).toNat
  let n := match r.stopAt with
    | some p => min n (p - r.head).toNat
    | none => n
  ((List.range n).map fun i => r.head + BitVec.ofNat 32 i).filter fun p =>
    (boundSlot r p).isNone && !(r.held.any fun x => x.1 == p) && !r.fetching.contains p

/-- Issue the entry fetches of ring `c` that are due. -/
def issueFetches (c : Nat) (s : State) : State :=
  let r := ringOf s c
  let ps := dueFetches r
  let refs := ps.map fun p => ReadId.fetch ⟨c / 64, c % 64, p⟩
  let s := ps.foldl (fun t p => issueRead (.fetch ⟨c / 64, c % 64, p⟩) (c / 64) (entryAddr r p) 64 t) s
  setRing c { r with fetching := r.fetching ++ ps } { s with hqi := { s.hqi with reads := s.hqi.reads ++ refs } }

/-- A host read is no longer outstanding; `whole`: its data have come. -/
def dropRead (rd : ReadId) (whole : Bool) (s : State) : State :=
  let s := endRead rd whole s
  { s with hqi := { s.hqi with reads := s.hqi.reads.filter fun x => x != rd } }

/-- Has a read brought its data? -/
def dataCame : HostData → Bool
  | .ok _ => true
  | _ => false

/-- An entry fetch fails (R95): the ring stops at that position, and entries fetched beyond it are discarded. -/
def fetchFail (c : Nat) (p : Word) (s : State) : State :=
  let r := ringOf s c
  let stop := match r.stopAt with
    | some q => if (q - r.head).toNat < (p - r.head).toNat then q else p
    | none => p
  let before := fun (x : Word) => decide ((x - r.head).toNat < (stop - r.head).toNat)
  let r := { r with
    fetchErr := true
    stopped := true
    stopAt := some stop
    held := r.held.filter fun x => before x.1
    fetching := r.fetching.filter before }
  cause .hqi 1 (setRing c r { s with hqi := { s.hqi with stopFn := s.hqi.stopFn ||| BitVec.ofNat 64 (2 ^ (c / 64)) } })

/-! ### The Reel arbiter (R86 to R88) -/

/-- Is the entry at HEAD held back by its FENCE (R78)? -/
def fenced (r : RingCtx) (e : List Byte) : Bool :=
  eFence e && !(r.chains.any fun ch => !ch.closed) && r.cpl != r.head

/-- Do the power commands leave function `f` its grants (R453)? Tenant rings need Active and no IDLE or STANDBY_PREP
under way; the physical function's rings are served in Idle too. -/
def granting (s : State) (f : Nat) : Bool :=
  s.sys.pwrRun != .toPrep
    && (s.sys.power == .active && (f == 0 || s.sys.pwrRun != .toIdle) || (s.sys.power == .idle && f == 0))

/-- Is ring `c` eligible in this grant cycle? -/
def eligible (s : State) (c : Nat) : Bool :=
  let r := ringOf s c
  let f := c / 64
  granting s f && r.isOpen && r.stopAt != some r.head && r.tail != r.head && fnReady s f && !(fnOf s f).flrActive && !fnSuspended s f
    && (match heldEntry r with
      | some e => !fenced r e
      | none => false)
    && belowLimit s f && decide (2 ≤ cellsFree s f)

/-- The gable whose own cycle this is, 0 for a cycle shared by non-Pavane rings (R88). -/
def cycleScope (s : State) : Nat := if s.hqi.cycle % 2 = 0 then s.hqi.deal.getD (s.hqi.cycle / 2 % 32) 0 else 0

/-- The contexts that a scope's cycles serve: those of the open rings. -/
def scopeRings (s : State) (g : Nat) : List Nat :=
  (s.hqi.rings.map (·.1)).filter fun c => if g = 0 then !isPavane s (c / 64) else c / 64 == g

/-- Reel weight and burst of a context. -/
def weightOf (s : State) (c : Nat) : Nat := match ringCfg s c with
  | some e => e.weight
  | none => 0

def burstOf (s : State) (c : Nat) : Nat := match ringCfg s c with
  | some e => e.burst
  | none => 0

/-- Rings that became eligible and have had no tokens in this round get their weight (R87). -/
def giveTokens (cs : List Nat) (s : State) : State :=
  cs.foldl (fun t c =>
    let r := ringOf t c
    if eligible t c ∧ r.hadTokens = false then
      setRing c { r with
        tokens := weightOf t c
        hadTokens := true } t
    else t) s

/-- A new round: every ring's tokens of the old one go, eligible rings get their weight, and the position is the
lowest eligible context (R87). -/
def newRound (g : Nat) (cs : List Nat) (s : State) : State :=
  let s := cs.foldl (fun t c => setRing c { ringOf t c with
    tokens := 0
    hadTokens := false } t) s
  let s := match cs.filter fun c => eligible s c with
    | c :: _ => { s with hqi := { s.hqi with pos := SMap.set 0 s.hqi.pos g c } }
    | [] => s
  giveTokens cs s

/-- The first context at or after the position, wrapping, that is eligible and holds tokens. -/
def reelPick (g : Nat) (cs : List Nat) (s : State) : Option Nat :=
  let p := SMap.get 0 s.hqi.pos g
  let ok := cs.filter fun c => eligible s c && decide (0 < (ringOf s c).tokens)
  match ok.find? fun c => decide (p ≤ c) with
  | some c => some c
  | none => ok.head?

/-- Do the entry's flags depart from chapter 3, given whether a chain of the ring is open (R78, R90, R96)? -/
def flagsBad (chainOpen : Bool) (e : List Byte) : Bool :=
  entryReserved e || (if chainOpen then eFirst e || eFence e else !eFirst e)

/-- The ring's chains after the grant of entry `e` at position `p` (R90, R92). -/
def chainsAfter (chs : List Chain) (p : Word) (e : List Byte) : List Chain :=
  match chs.getLast? with
  | some ch =>
    if ch.closed then (if eFirst e && !eLast e then chs ++ [{ first := p, granted := 1 }] else chs)
    else
      let full := ch.granted == 255 && !eLast e
      chs.dropLast ++ [{ ch with
        granted := ch.granted + 1
        closed := eLast e || full
        tooLong := full
        last := p }]
  | none => if eFirst e && !eLast e then [{ first := p, granted := 1 }] else []

/-- The deal list of the latched structure (R88): Pavane gables, ascending, one entry for each truss they own. -/
def dealList (s : State) : List Nat :=
  ((formedGables s).filter fun g => isPavane s g).flatMap fun g => List.replicate (trussCount s g) g

/-! ### Completions (R79, R80, R91) -/

/-- The completion's 64 bytes: status, flags, DONE, tag, RESULT and INLINE. -/
def completionBytes (e : List Byte) (status result : Nat) (inl : List Byte) : List Byte :=
  leBytes 2 status ++ [BitVec.ofNat 8 (eFlags e), 0x80] ++ eTag e
    ++ (if status = stOk then leBytes 8 result ++ padTo 48 inl else List.replicate 56 0)

/-- The words that name a command in the sink's packets (R323). -/
def refWords (r : CmdRef) : List Word := [BitVec.ofNat 32 (r.ring + 256 * r.fn), r.pos]

/-- Producer context number under which native work of a ring reaches the sink: apart from every core's contexts. -/
def nativeCtx (r : CmdRef) : Nat := 512 + ctxNum r.fn r.ring

/-- Commit a completion packet to the HQI sink (R323). -/
def commitCompletion (r : CmdRef) (bytes : List Byte) (s : State) : State :=
  let p : Packet := { typ := 2, words := wordsOf bytes ++ refWords r, prod := r.fn, fn := some r.fn, ctx := nativeCtx r }
  toSink 0 p (addCells r.fn 2 (updCmd r (fun c => { c with finished := true }) s))

/-- Commit host-write packets for `bytes` at a host address, 4,076 bytes at most each (R323); the result of a command
served for a peer is kept for its RETURN (R448), and one of a sub-command goes to truss SRAM at a core address (R155). -/
def commitHostWrites (r : CmdRef) (addr : Nat) (bytes : List Byte) (s : State) : State :=
  if isServed r then updCmd r (fun c => { c with outBytes := c.outBytes ++ bytes }) s
  else if isSub r then
    s.updTruss (trussOf (r.ring - 128)) fun t => { t with sram := Memory.write 0 t.sram (addr - 0x100000) bytes }
  else ((chunks 4076 bytes).zipIdx).foldl (fun t q =>
    let a := addr + 4076 * q.2
    let ws := wordsOf (leBytes 8 a) ++ refWords r ++ [BitVec.ofNat 32 q.1.length] ++ wordsOf q.1
    toSink 0 { typ := 3, words := ws, prod := r.fn, fn := some r.fn, ctx := nativeCtx r } (addCells r.fn (cellsOf ws.length) t)) s

/-- Cells that the host writes of `n` bytes take. -/
def hostWriteCells (n : Nat) : Nat := (n / 4076) * cellsOf 1024 + (if n % 4076 = 0 then 0 else cellsOf (5 + (n % 4076 + 3) / 4))

/-- Is this the entry packet of command `r`? -/
def isEntryOf (r : CmdRef) (p : Packet) : Bool :=
  if isServed r then p.typ == 0x10 && p.words.getD 1 0 == r.pos && fld p.src 0 8 == r.fn
  else !isSub r && p.typ == 1 && decide (p.words.drop 16 = refWords r)

/-- The dispatch core takes and releases the command's entry packet, where the queue still holds it. -/
def takeEntryPacket (r : CmdRef) (s : State) : State := discardQueued (fun _ p => isEntryOf r p) s

/-- The chain that position `p` belongs to, with the entry's place in it. -/
def chainAt (r : RingCtx) (p : Word) : Option (Chain × Nat) :=
  r.chains.findSome? fun ch =>
    let i := (p - ch.first).toNat
    if i < ch.granted then some (ch, i) else none

/-- Put a chain back by its first position. -/
def setChainRec (ch : Chain) (r : RingCtx) : RingCtx :=
  { r with chains := r.chains.map fun x => if x.first = ch.first then ch else x }

/-- The failure that LAST reports: the first entry's that failed, else RANGE at position 255 where the 256th entry had
LAST clear (R91, R92). -/
def chainFailure (ch : Chain) : Option (Nat × Nat) :=
  match ch.failed with
  | some x => some x
  | none => if ch.tooLong then some (stRange, 255) else none

/-- The completion of entry `i` of a chain that has settled (R91). -/
def chainCompletion (s : State) (c : Nat) (ch : Chain) (i : Nat) : List Byte :=
  let e := match findCmd s ⟨c / 64, c % 64, ch.first + BitVec.ofNat 32 i⟩ with
    | some x => x.entry
    | none => []
  match chainFailure ch with
  | none => ((ch.done.find? fun d => d.1 == i).map (·.2)).getD (completionBytes e stOk 0 [])
  | some (st, k) =>
    if i + 1 = ch.granted then
      leBytes 2 st ++ [BitVec.ofNat 8 (eFlags e), 0x80] ++ eTag e ++ leBytes 8 k ++ List.replicate 48 0
    else completionBytes e stAborted 0 []

/-- Has a chain of ring context `c` settled: LAST granted, every entry finished or skipped (R91)? A skipped entry has
reached its Reed queue, from which the dispatch core takes it. -/
def chainSettled (s : State) (c : Nat) (ch : Chain) : Bool :=
  ch.closed && (ch.failed.isSome || decide (ch.done.length = (if ch.tooLong then 255 else ch.granted)))
    && (List.range ch.granted).all fun i => match findCmd s ⟨c / 64, c % 64, ch.first + BitVec.ofNat 32 i⟩ with
      | some x => x.committed || x.finished
      | none => true

/-- Commit the completions of a settled chain in ring order, as far as the gable's cells go. -/
def pumpChain (c : Nat) : Nat → Chain → State → State
  | 0, _, s => s
  | f + 1, ch, s =>
    if chainSettled s c ch ∧ ch.sent < ch.granted ∧ 2 ≤ cellsFree s (c / 64) then
      let ch' := { ch with sent := ch.sent + 1 }
      let ref : CmdRef := ⟨c / 64, c % 64, ch.first + BitVec.ofNat 32 ch.sent⟩
      pumpChain c f ch' (commitCompletion ref (chainCompletion s c ch ch.sent)
        (takeEntryPacket ref (setRing c (setChainRec ch' (ringOf s c)) s)))
    else s

/-- Pump every chain of a ring. -/
def pumpChains (c : Nat) (s : State) : State :=
  (ringOf s c).chains.foldl (fun t ch => pumpChain c (ch.granted - ch.sent) ch t) s

/-- Grant the entry at HEAD of ring `c` (R86): HEAD advances, the entry awaits its commit, two cells are reserved. An entry
written into a slot whose command was in flight is malformed (R81). -/
def grantEntry (c : Nat) (s : State) : State :=
  let r := ringOf s c
  match heldEntry r with
  | none => s
  | some e =>
    let p := r.head
    let r' := { r with
      head := p + 1
      slots := r.slots.map fun x => match x with
        | .bound q b => if q = p then .empty else .bound q b
        | y => y
      held := r.held.filter fun x => x.1 != p
      reused := r.reused.filter fun q => q != p
      granted := r.granted ++ [(p, e)]
      chains := chainsAfter r.chains p e }
    let cmd : Cmd := { ref := ⟨c / 64, c % 64, p⟩, entry := e, bad := flagsBad (r.chains.any fun ch => !ch.closed) e || r.reused.contains p }
    pumpChains c
      (issueFetches c (addCells (c / 64) 2 (setRing c r' { s with hqi := { s.hqi with cmds := s.hqi.cmds ++ [cmd] } })))

/-- Account a grant to ring `c` in its visit (R87). -/
def endVisit (g c : Nat) (s : State) : State :=
  let r := ringOf s c
  let r := { r with
    tokens := r.tokens - 1
    visit := r.visit + 1 }
  if r.visit = burstOf s c ∨ r.tokens = 0 ∨ eligible s c = false then
    { (setRing c { r with visit := 0 } s) with hqi := { (setRing c { r with visit := 0 } s).hqi with
      pos := SMap.set 0 s.hqi.pos g (if c + 1 = 4096 then 0 else c + 1) } }
  else setRing c r s

/-- One grant cycle of a scope (R87): at most one grant. -/
def reelCycle (g : Nat) (s : State) : State :=
  let cs := scopeRings s g
  let s := giveTokens cs s
  let s := if (reelPick g cs s).isNone then newRound g cs s else s
  match reelPick g cs s with
  | some c => endVisit g c (grantEntry c s)
  | none => s

/-- Statuses whose command is aborted in the engines that hold its work (R29, R179). -/
def abortsWork (status : Nat) : Bool :=
  status == stAborted || status == stIntegrity || status == stSuspended || status == stLinkLost

/-- What the engines hold of a command that ends with `status` (R29, R179, R196): where that aborts it, its core's chains,
compressor context and WMA context are cleared. A tenant program that ends leaves no sub-command behind. -/
def clearWork (cmd : Cmd) (status : Nat) (s : State) : State :=
  let s := match cmd.worker.or cmd.core with
    | some n => if abortsWork status then abortCore n s else s
    | none => s
  match cmd.worker with
  | some n => { s with hqi := { s.hqi with cmds := s.hqi.cmds.filter fun c => c.ref.ring != 128 + n } }
  | none => s

/-- What a sub-command answered goes to the program of core `n` (R155). -/
def answerProgram (n : Nat) (bytes : List Byte) (s : State) : State :=
  let put := fun (x : Cmd) => if x.worker == some n && !x.finished then { x with answer := bytes } else x
  { s with hqi := { s.hqi with cmds := s.hqi.cmds.map put } }

/-- A command ends with a status (R80), and what the engines hold of it is cleared first (R29): a sub-command answers its
program (R155); one served for a peer is answered with a RETURN (R448); outside a chain its completion goes to the sink;
inside one it is deferred, and a failure ends the chain's work (R90, R91). -/
def endCmd (r : CmdRef) (status result : Nat) (inl : List Byte) (s : State) : State :=
  match findCmd s r with
  | none => s
  | some cmd =>
    let s := clearWork cmd status s
    let c := ctxNum r.fn r.ring
    let bytes := completionBytes cmd.entry status result inl
    if isSub r then dropCmd r (answerProgram (r.ring - 128) bytes s)
    else if isServed r then
      dropCmd r (sendReturn (r.ring - 64) r.fn r.pos cmd.reply bytes (if status = stOk then cmd.outBytes else []) s)
    else match chainAt (ringOf s c) r.pos with
    | none => commitCompletion r bytes s
    | some (ch, i) =>
      let ch := { ch with
        done := ch.done ++ [(i, bytes)]
        failed := if status = stOk ∨ ch.failed.isSome then ch.failed else some (status, i) }
      pumpChains c (setRing c (setChainRec ch (ringOf s c)) (updCmd r (fun x => { x with finished := true }) s))

/-- May a command be carried out now: it is outside a chain, or every earlier entry of its chain has finished and none
failed (R90), and it is not the 256th of a chain without LAST (R92)? -/
def chainTurn (s : State) (r : CmdRef) : Bool :=
  offRing r || match chainAt (ringOf s (ctxNum r.fn r.ring)) r.pos with
  | none => true
  | some (ch, i) => ch.failed.isNone && decide (ch.done.length = i) && !(ch.tooLong && i == 255)

/-! ### Function-level reset (R98) -/

/-- The HQI's part of a function-level reset: commands and outstanding reads go, their packets are scrubbed, ring
contexts and registers are cleared, and FLR_DONE is set. What a peer has forwarded here is that peer's function's and
goes on (R449). The four steps of R98 are one step of the model, so FLR_ACTIVE is never seen set (log 314). -/
def flrHqi (f : Nat) (s : State) : State :=
  let uncommitted := ((s.hqi.rings.filter fun e => e.1 / 64 == f).map fun e => 2 * e.2.granted.length).sum
  let s := subCells f uncommitted (discardFn f s)
  let mine := fun (rd : ReadId) => match rd with
    | .cmd r => r.fn == f
    | .fetch r => r.fn == f
    | _ => false
  let s := { s with hqi := { s.hqi with
    cmds := s.hqi.cmds.filter fun c => c.ref.fn != f || isServed c.ref
    reads := s.hqi.reads.filter fun rd => !mine rd
    tags := s.hqi.tags.filter fun rd => !mine rd
    unsent := s.hqi.unsent.filter fun x => !mine x.1
    rings := s.hqi.rings.filter fun e => e.1 / 64 != f
    fns := SMap.set {} s.hqi.fns f {}
    flrFn := s.hqi.flrFn ||| BitVec.ofNat 64 (2 ^ f) } }
  let s := { s with rfb := { s.rfb with refused := s.rfb.refused.filter fun x => x.2.1 != f } }
  cause .hqi 0 s

/-- The engines' part (R98 step 3, R179, R196, R211): what the operand memories, chains and ports of its gable's trusses hold
is cleared. -/
def flrEngines (f : Nat) (s : State) : State :=
  if f = 0 then s
  else
    let cs := fun (u : State) (t : Nat) => (List.range (ctxCount u t)).foldl (fun v c => contextAbort t c v) u
    (maskList (trussMaskOf s f)).foldl cs (abortSym (isCoreOf s f) s)

end Sys2Proof.Machine
end

