-- ==== Sys2Proof/Machine/Vid.lean ====
section
/-! DEFINITION. VCORE requests over the voltage-identification interface (17_electrical_package.md) and the start of a
wake (R453). -/

namespace Sys2Proof.Machine

/-- A VID code of the calibration row: at 25 degrees (k = 0) or 105 degrees (k = 1) (R366). -/
def calVid (s : State) (k : Nat) : Nat := leAt s.flc.cal (0x88 + 2 * k) 2

/-- The calibration row's lowest passing code, interpolated between 25 and 105 degrees at the hottest sensor, whose
reading is in sixteenths (R486). Where the interpolation is no whole number, a free bit rounds it. -/
def passingCode (s : State) : Nat × State :=
  let t : Int := max 0 (min 1280 (s.elec.temp - 400))
  let x : Int := ((calVid s 1 : Int) - calVid s 0) * t
  let base : Int := calVid s 0 + x / 1280
  if x % 1280 = 0 then (base.toNat, s)
  else
    let d := drawBelow 2 1 s
    (base.toNat + d.1, d.2)

/-- The operating code (R486): 8 codes above the lowest passing one, at most 0x64; 0x64 under CAL_BAD. -/
def operatingVid (s : State) : Nat × State :=
  if s.sys.calDef then (0x64, s) else let r := passingCode s; (min 0x64 (r.1 + 8), r.2)

/-- Even parity over OP and CODE of a SET (R485). -/
def vidParity (code : Nat) : Bool := (((List.range 8).filter fun i => bitOf code i).length + 1) % 2 = 1

/-- Send a SET of a code for a purpose; its acknowledgment comes as an event (R484, R486). -/
def sendVid (use : VidUse) (code : Nat) (s : State) : State :=
  emit (.vidSet (BitVec.ofNat 8 code)) { s with elec := { s.elec with
    vidReq := code
    vidOld := some s.elec.vid
    vidUse := use
    vidTry := 1
    vidAlert := false } }

/-- The VGLITCH_CORE window between two codes (R368, R484, R487): is `mv` millivolts more than 10% below the lower level, or more
than 10% above the higher one? A level is 650 mV plus 2.5 mV a step. -/
def outsideVcore (c d mv : Nat) : Bool :=
  decide (20 * mv < 9 * (1300 + 5 * min c d)) || decide (11 * (1300 + 5 * max c d) < 20 * mv)

/-- Is VCORE at `mv` millivolts outside its window? After a SET the window takes in the old level too, until 1 us after VID_ALERT
reads high and for 40 us at most; whether that time is over is a free choice, and once over it stays over (R487; DESIGN CHOICE,
log 1316). -/
def vcoreOutside (mv : Nat) (s : State) : Bool × State :=
  match s.elec.vidOld with
  | some o =>
    if outsideVcore s.elec.vidReq s.elec.vidReq mv = true ∧ outsideVcore o s.elec.vidReq mv = false then
      let d := drawBelow 2 1 s
      if d.1 = 1 then (true, { d.2 with elec := { d.2.elec with vidOld := none } }) else (false, d.2)
    else (outsideVcore s.elec.vidReq s.elec.vidReq mv, s)
  | none => (outsideVcore s.elec.vidReq s.elec.vidReq mv, s)

/-- Begin a wake (R453): VCORE goes to its operating code. A wake that ACTIVE starts is marked so by the command. -/
def beginWakeAs (run : PwrRun) (s : State) : State :=
  let r := operatingVid { s with sys := { s.sys with pwrRun := run } }
  sendVid .toActive r.1 r.2

def beginWake (s : State) : State := beginWakeAs .wake s

/-- The wake that a PURGE or a partial COMMIT needs in Idle (R455), once; under STANDBY_PREP that command runs on. -/
def wakeFor (s : State) : State :=
  if s.sys.power ≠ .idle ∨ s.elec.vidUse ≠ .none then s
  else match s.sys.pwrRun with
    | .none => beginWake s
    | .toPrep => beginWakeAs .toPrep s
    | _ => s

end Sys2Proof.Machine
end

