-- ==== Sys2Proof/Machine/HqiCmds.lean ====
section
/-! DEFINITION. Meanings of the host queue interface's commands (03_host_queues.md, R323, R324). -/

namespace Sys2Proof.Machine

/-- Do the doorbell windows take writes: the endpoint is up, and READY_OFF is clear (R453)? A write that comes after
READY_OFF is discarded and not counted in DROP (DESIGN CHOICE, log 315). -/
def takesDoorbells (s : State) : Bool := powered s && s.sys.power != .prep

/-- A doorbell-window write is discarded and counted (R76, R85). -/
def dropWrite (f : Nat) (s : State) : State := updFn f (fun x => { x with drop := satInc 0xFFFFFFFF x.drop }) s

/-- Is a window write discarded before the window looks at it (R85)? -/
def windowClosed (s : State) (f r : Nat) (bad : Bool) : Bool :=
  !(ringOf s (ctxNum f r)).isOpen || decide (ringCount s f ≤ r) || bad || (fnOf s f).flrActive

/-- A received TLP with poisoned data or a failed ECRC sets its cause (R101). -/
def noteBadTlp (bad : Bool) (s : State) : State := if bad then cause .hqi 4 s else s

/-- A write to a doorbell window of the physical function is a management-space access of target 0x53, decided before its
first beat; a refused write is discarded (R71, R328, R336). A tenant's window stands in its own BAR. -/
def throughWindow (f ring off n : Nat) (act : State → State) (s : State) : State :=
  if f = 0 then
    match gate (whoTag s .pf) 0x53 (0x80000 + ring * 0x1000 + off) n kWrite s with
    | (true, t) => act t
    | (false, t) => t
  else act s

/-- Positions among the `n` posted from `tail` whose slot's last command is in flight: their entries were written before
host software read DONE (R81, R84). -/
def reusedSlots (s : State) (f ring size : Nat) (tail : Word) (n : Nat) : List Word :=
  s.hqi.cmds.filterMap fun c =>
    let p := c.ref.pos + BitVec.ofNat 32 (2 ^ size)
    if c.ref.fn = f ∧ c.ref.ring = ring ∧ (p - tail).toNat < n then some p else none

/-- Slots after an accepted doorbell (R83). -/
def bindSlots (tail : Word) (n : Nat) (slots : List InlineSlot) : List InlineSlot :=
  (slots.zipIdx).map fun p => match p.1 with
    | .written b => if p.2 < n then .bound (tail + BitVec.ofNat 32 p.2) b else .empty
    | x => x

/-- Does the HQI accept a doorbell value (R82)? -/
def doorbellOk (r : RingCtx) (value : Word) : Bool :=
  decide ((r.tail - r.head).toNat ≤ (value - r.head).toNat) && decide ((value - r.head).toNat ≤ 2 ^ r.sizeLog2)

/-- TAIL_DOORBELL (R82, R85): accept and post, or discard. In Idle with WAKE_DB set, a tenant's accepted doorbell begins
a wake (R453). -/
def tailDoorbellEffect (f ring : Nat) (value : Word) (bad : Bool) (s : State) : State :=
  if takesDoorbells s = false ∨ 64 ≤ f ∨ 64 ≤ ring then s
  else throughWindow f ring 0 4 (fun s =>
  if windowClosed s f ring bad then dropWrite f (noteBadTlp bad s)
  else
    let c := ctxNum f ring
    let r := ringOf s c
    if doorbellOk r value then
      let s := setRing c { r with
        tail := value
        reused := r.reused ++ reusedSlots s f ring r.sizeLog2 r.tail (value - r.tail).toNat
        slots := bindSlots r.tail (value - r.tail).toNat r.slots } s
      if f ≠ 0 ∧ s.sys.power = .idle ∧ s.sys.wakeDb = true ∧ s.sys.pwrRun = .none then beginWake s else s
    else dropWrite f (setRing c { r with dbRange := true } s)) s

def execTailDoorbell (fn ring : Nat) (value : Word) (bad : Bool) (s : State) : Res :=
  .next (tailDoorbellEffect fn ring value bad s)

/-- DOORBELL_WINDOW_DISCARD (R85): a write that the window does not accept. -/
def windowDiscard (f ring : Nat) (bad : Bool) (s : State) : State :=
  let c := ctxNum f ring
  let s := dropWrite f (noteBadTlp bad s)
  if (ringOf s c).isOpen then setRing c { ringOf s c with winWidth := true } s else s

/-- INLINE_WRITE (R83, R85): a 64-byte write fills slot j, or is discarded. -/
def inlineWriteEffect (f ring slot : Nat) (data : List Byte) (bad : Bool) (s : State) : State :=
  if takesDoorbells s = false ∨ 64 ≤ f ∨ 64 ≤ ring ∨ 4 ≤ slot then s
  else throughWindow f ring (64 * slot) 64 (fun s =>
  if ringInline s (ctxNum f ring) = false ∨ data.length ≠ 64 then windowDiscard f ring bad s
  else if windowClosed s f ring bad then dropWrite f (noteBadTlp bad s)
  else
    let c := ctxNum f ring
    let r := ringOf s c
    match r.slots.getD slot .empty with
    | .bound _ _ => dropWrite f (setRing c { r with inlOverrun := true } s)
    | _ => setRing c { r with slots := r.slots.set slot (.written data) } s) s

def execInlineWrite (fn ring slot : Nat) (data : List Byte) (bad : Bool) (s : State) : Res :=
  .next (inlineWriteEffect fn ring slot data bad s)

/-- Is (offset, width) a write that R85 accepts on the ring? -/
def windowAccepts (s : State) (c off width : Nat) : Bool :=
  (width == 4 && off == 0) || (width == 64 && ringInline s c && (off == 0 || off == 0x40 || off == 0x80 || off == 0xC0))

/-- A write of `width` bytes at offset `off` of a ring's window that R85 does not accept. Beyond the window's 256 bytes the
page discards it, and only a bad TLP leaves a trace (R70, R101). -/
def discardEffect (fn ring off width : Nat) (bad : Bool) (s : State) : State :=
  if takesDoorbells s = false ∨ 64 ≤ fn ∨ 64 ≤ ring then s
  else if 0x100 ≤ off then noteBadTlp bad s
  else if windowAccepts s (ctxNum fn ring) off width then s
  else throughWindow fn ring off width (windowDiscard fn ring bad) s

def execDoorbellWindowDiscard (fn ring off : Nat) (width : BusWidth) (s : State) : Res :=
  .next (discardEffect fn ring off width.bytes width.bad s)

/-- POSTED_ENTRIES_KNOWN (R86): what the accepted doorbells posted becomes known, and fetches are issued. -/
def postedKnown (c : Nat) (s : State) : State :=
  let r := ringOf s c
  if r.isOpen then issueFetches c (setRing c { r with known := r.tail } s) else s

def execPostedEntriesKnown (fn ring : Nat) (s : State) : Res :=
  .next (if powered s = true ∧ fn < 64 ∧ ring < 64 then postedKnown (ctxNum fn ring) s else s)

/-- What a failed host read sets in HQI_ICAUSE besides its own effect. -/
def noteHostData (res : HostData) (s : State) : State :=
  match res with
  | .poison => cause .hqi 4 s
  | .ecrc => cause .hqi 4 s
  | _ => s

/-- ENTRY_FETCH_RETURN (R86, R95): the entry is held, or its ring stops. -/
def fetchReturn (f ring : Nat) (pos : Word) (res : HostData) (s : State) : State :=
  let c := ctxNum f ring
  let rd := ReadId.fetch ⟨f, ring, pos⟩
  if s.hqi.reads.contains rd then
    let s := noteHostData res (dropRead rd (dataCame res) s)
    let r := ringOf s c
    if r.fetching.contains pos then
      let s := setRing c { r with fetching := r.fetching.filter fun p => p != pos } s
      match res with
      | .ok bytes => setRing c { ringOf s c with held := (ringOf s c).held ++ [(pos, padTo 64 bytes)] } s
      | _ => fetchFail c pos s
    else s
  else s

def execEntryFetchReturn (fn ring : Nat) (pos : Word) (res : HostData) (s : State) : Res :=
  .next (fetchReturn fn ring pos res s)

/-- REEL_FRAME_BOUNDARY (R88): after 256 grant cycles the next frame begins, with a changed deal list. -/
def frameBoundary (s : State) : State :=
  if s.hqi.cycle = 256 then
    { s with hqi := { s.hqi with
        cycle := 0
        deal := s.hqi.nextDeal.getD s.hqi.deal
        nextDeal := none } }
  else s

def execReelFrameBoundary (s : State) : Res := .next (frameBoundary s)

/-- GRANT_CYCLE (R86 to R88): one cycle of the frame, for the scope that owns it. The Reel frame runs from the lock of
the structural latches on. -/
def grantCycle (s : State) : State :=
  if powered s = true ∧ s.img.locked = true ∧ s.hqi.cycle < 256 then
    let t := reelCycle (cycleScope s) s
    { t with hqi := { t.hqi with cycle := s.hqi.cycle + 1 } }
  else s

def execGrantCycle (s : State) : Res := .next (grantCycle s)

/-- The Reed queue that takes a ring's entries (R44). -/
def ringQueue (s : State) (c : Nat) : Nat := match ringCfg s c with
  | some e => e.queue
  | none => 0

/-- The entry packet of R323. -/
def entryPacket (f ring : Nat) (pos : Word) (e : List Byte) : Packet :=
  { typ := 1, words := wordsOf (padTo 64 e) ++ refWords ⟨f, ring, pos⟩, src := unitSource f 1 (some f), prod := f, fn := some f }

/-- ENTRY_COMMIT (R86): the oldest granted entry of the ring reaches its Reed queue. -/
def entryCommit (f ring : Nat) (s : State) : State :=
  let c := ctxNum f ring
  match (ringOf s c).granted with
  | [] => s
  | (pos, e) :: rest =>
    let s := setRing c { ringOf s c with granted := rest } s
    pumpChains c
      (enqueue (ringQueue s c) (entryPacket f ring pos e) (updCmd ⟨f, ring, pos⟩ (fun x => { x with committed := true }) s))

def execEntryCommit (fn ring : Nat) (s : State) : Res :=
  .next (if powered s = true ∧ fn < 64 ∧ ring < 64 then entryCommit fn ring s else s)

/-! ### OPEN (R73) -/

/-- Largest size of a context's ring, as a power of two. -/
def maxLog2 (s : State) (c : Nat) : Nat := match ringCfg s c with
  | some e => e.maxLog2
  | none => 0

/-- The status of the first check of R73 that fails. -/
def openChecks (s : State) (c base size : Nat) : Nat :=
  let f := c / 64
  firstFail
    [(fnReady s f && !(fnOf s f).flrActive, stStateRefused), (decide (c % 64 < ringCount s f), stRange),
     (!(ringOf s c).isOpen, stStateRefused), (decide (4 ≤ size ∧ size ≤ maxLog2 s c), stRange),
     (decide (base % 4096 = 0), stRange),
     (f == 0 || (!latchBad s (.range f 6) && (SMap.get [] s.img.latched.windows f).any fun w =>
        inside base (64 * 2 ^ size) w.base w.length && bitOf w.access 0 && bitOf w.access 1), stNotPermitted)]

/-- OPEN ends with a status: STATUS and SETUP_DONE (R73). -/
def openEnd (st : Nat) (s : State) : State := cause .hqi 6 { s with hqi := { s.hqi with setupStatus := st } }

/-- A value takes effect in HQI_RSETUP_CMD (R72, R73). A value other than OPEN ends as an OPEN does: it writes STATUS and sets
SETUP_DONE (DESIGN CHOICE, log 316). -/
def setupCommand (v : Nat) (s : State) : State :=
  let s := { s with hqi := { s.hqi with setupCmd := v % 4 } }
  if v % 4 ≠ 1 then openEnd stUnsupported s
  else if s.hqi.setupReq.isSome then openEnd stStateRefused s
  else { s with hqi := { s.hqi with setupReq := some (s.hqi.setupCtx, s.hqi.setupBase.toNat, s.hqi.setupSize) } }

/-- OPEN_COMPLETE (R73): the checks, and the ring opens where they all pass. -/
def openComplete (s : State) : State :=
  match s.hqi.setupReq with
  | none => s
  | some (c, base, size) =>
    let st := openChecks s c base size
    let s := { s with hqi := { s.hqi with setupReq := none } }
    let s := if st = stOk then
        setRing c { base := BitVec.ofNat 64 base, sizeLog2 := size, isOpen := true } s
      else s
    openEnd st s

def execOpenComplete (s : State) : Res := .next (openComplete s)

/-! ### The HQI sink (R324) -/

/-- The first packet of type `t` in the sink before which no packet of the same context and of another type stands. -/
def sinkHead (t : Nat) : List Nat → List Packet → Option Packet
  | _, [] => none
  | seen, p :: ps =>
    if p.typ = t then (if seen.contains p.ctx then sinkHead t seen ps else some p)
    else sinkHead t (p.ctx :: seen) ps

/-- Remove the first packet equal to `p` from the sink, and return its cells. -/
def sinkDone (p : Packet) (s : State) : State :=
  freePacket p { s with rfb := { s.rfb with sink0 := s.rfb.sink0.erase p } }

/-- Function, ring and position that a sink packet names in its words `i` and `i + 1` (R323). -/
def sinkRef (p : Packet) (i : Nat) : CmdRef :=
  let w := p.words.getD i 0
  ⟨fld w 8 6, fld w 0 6, p.words.getD (i + 1) 0⟩

/-- Is the packet of a command dropped: its function is not READY or its ring is not open (R324)? -/
def sinkDrops (s : State) (r : CmdRef) : Bool := !fnReady s r.fn || !(ringOf s (ctxNum r.fn r.ring)).isOpen

/-- SINK_HOST_WRITE (R324). -/
def sinkHostWrite (s : State) : State :=
  match sinkHead 3 [] s.rfb.sink0 with
  | none => s
  | some p =>
    let r := sinkRef p 2
    let addr := (p.words.getD 0 0).toNat + (p.words.getD 1 0).toNat * 2 ^ 32
    let n := (p.words.getD 4 0).toNat
    let s := sinkDone p s
    if sinkDrops s r then s
    else if inWindow s r.fn addr n 1 then writeHost r.fn addr (slice (bytesOf (p.words.drop 5)) 0 n) s
    else cause .rfb 2 { s with rfb := { s.rfb with refused := (p.ctx, r.fn, r.pos) :: s.rfb.refused } }

def execSinkHostWrite (s : State) : Res := .next (sinkHostWrite s)

/-- The completion as written: NOT_PERMITTED where a host write of the command was refused (R324). -/
def sinkBytes (refused : Bool) (b : List Byte) : List Byte :=
  if refused then leBytes 2 stNotPermitted ++ slice b 2 6 ++ List.replicate 56 0 else b

/-- A completion leaves the module: CPL rises, the command is no longer in flight, STATE_REFUSED is counted, and a
chain whose LAST it is has ended (R76, R80, R90). -/
def completionWritten (r : CmdRef) (status : Nat) (s : State) : State :=
  let c := ctxNum r.fn r.ring
  let g := ringOf s c
  let s := setRing c { g with
    cpl := g.cpl + 1
    chains := g.chains.filter fun ch => !(ch.closed && ch.last == r.pos) } (dropCmd r s)
  let s := if status = stStateRefused then updFn r.fn (fun x => { x with refuse := satInc 0xFFFFFFFF x.refuse }) s else s
  pumpChains c s

/-- SINK_COMPLETION_WRITE (R80, R324). -/
def sinkCompletionWrite (s : State) : State :=
  match sinkHead 2 [] s.rfb.sink0 with
  | none => s
  | some p =>
    let r := sinkRef p 16
    let key := (p.ctx, r.fn, r.pos)
    let bytes := sinkBytes (s.rfb.refused.contains key) (bytesOf (p.words.take 16))
    let s := sinkDone p { s with rfb := { s.rfb with refused := s.rfb.refused.filter fun k => k != key } }
    if sinkDrops s r then s
    else completionWritten r (leAt bytes 0 2) (writeHost r.fn (entryAddr (ringOf s (ctxNum r.fn r.ring)) r.pos) bytes s)

def execSinkCompletionWrite (s : State) : Res := .next (sinkCompletionWrite s)

/-! ### The endpoint -/

/-- UNSUPPORTED_REQUEST_RECEIVED (R68): answered as an Unsupported Request. -/
def execUnsupportedRequestReceived (kind : Unsupported) (s : State) : Res :=
  .next (if answers s then emit (.unsupportedRequest kind) s else s)

/-- LINK_UP (R101). -/
def linkUpEffect (s : State) : State := cause .hqi 3 { s with hqi := { s.hqi with linkUp := true } }

def execLinkUp (s : State) : Res := .next (if answers s then linkUpEffect s else s)

end Sys2Proof.Machine
end

