-- ==== Sys2Proof/Machine/Des.lean ====
section
/-! DEFINITION. DES and TDES (FIPS 46-3, SP 800-67) and the check values of ISO/IEC 9797-1 over them. Published
standards that the spec names by reference. -/

namespace Sys2Proof.Machine

/-- Bits of a byte string, most significant first. -/
def bitsOf (bs : List Byte) : List Bool := bs.flatMap fun b => (List.range 8).map fun i => b.getLsbD (7 - i)

/-- A number from bits, most significant first. -/
def natOfBits (l : List Bool) : Nat := l.foldl (fun a b => 2 * a + b2n b) 0

/-- Bytes from bits. -/
def bytesOfBits (l : List Bool) : List Byte := beBytes (l.length / 8) (natOfBits l)

/-- Pick the bits that a table names, counted from 1. -/
def permute (t : List Nat) (l : List Bool) : List Bool := t.map fun i => l.getD (i - 1) false

/-- The initial permutation. -/
def desIP : List Nat := [58, 60, 62, 64, 57, 59, 61, 63].flatMap fun s => (List.range 8).map fun i => s - 8 * i

/-- The final permutation: position of each number in the initial one. -/
def desFP : List Nat := (List.range 64).map fun i => (desIP.idxOf (i + 1)) + 1

/-- The expansion. -/
def desE : List Nat := (List.range 8).flatMap fun r => (List.range 6).map fun c => (4 * r + c + 31) % 32 + 1

/-- The permutation after the S-boxes. -/
def desP : List Nat :=
  [16, 7, 20, 21, 29, 12, 28, 17, 1, 15, 23, 26, 5, 18, 31, 10] ++ [2, 8, 24, 14, 32, 27, 3, 9, 19, 13, 30, 6, 22, 11, 4, 25]

/-- The first key choice. -/
def desPC1 : List Nat :=
  [57, 49, 41, 33, 25, 17, 9, 1, 58, 50, 42, 34, 26, 18, 10, 2, 59, 51, 43, 35, 27, 19, 11, 3, 60, 52, 44, 36]
    ++ [63, 55, 47, 39, 31, 23, 15, 7, 62, 54, 46, 38, 30, 22, 14, 6, 61, 53, 45, 37, 29, 21, 13, 5, 28, 20, 12, 4]

/-- The second key choice. -/
def desPC2 : List Nat :=
  [14, 17, 11, 24, 1, 5, 3, 28, 15, 6, 21, 10, 23, 19, 12, 4, 26, 8, 16, 7, 27, 20, 13, 2]
    ++ [41, 52, 31, 37, 47, 55, 30, 40, 51, 45, 33, 48, 44, 49, 39, 56, 34, 53, 46, 42, 50, 36, 29, 32]

/-- Rows of the eight S-boxes, four to a box, each as sixteen hexadecimal digits from column 0 on. -/
def desSRows : List (List Nat) := [
  [0xE4D12FB83A6C5907, 0x0F74E2D1A6CB9538, 0x41E8D62BFC973A50, 0xFC8249175B3EA06D],
  [0xF18E6B34972DC05A, 0x3D47F28EC01A69B5, 0x0E7BA4D158C6932F, 0xD8A13F42B67C05E9],
  [0xA09E63F51DC7B428, 0xD709346A285ECBF1, 0xD6498F30B12C5AE7, 0x1AD069874FE3B52C],
  [0x7DE3069A1285BC4F, 0xD8B56F03472C1AE9, 0xA690CB7DF13E5284, 0x3F06A1D8945BC72E],
  [0x2C417AB6853FD0E9, 0xEB2C47D150FA3986, 0x421BAD78F9C5630E, 0xB8C71E2D6F09A453],
  [0xC1AF92680D34E75B, 0xAF427C9561DE0B38, 0x9EF528C3704A1DB6, 0x432C95FABE17608D],
  [0x4B2EF08D3C975A61, 0xD0B7491AE35C2F86, 0x14BDC37EAF680592, 0x6BD814A7950FE23C],
  [0xD2846FB1A93E50C7, 0x1FD8A374C56B0E92, 0x7B419CE206ADF358, 0x21E74A8DFC90356B]]

/-- One S-box: six bits to four. -/
def desSbox (k x : Nat) : Nat :=
  let row := x / 32 * 2 + x % 2
  ((desSRows.getD k []).getD row 0) / 16 ^ (15 - x / 2 % 16) % 16

/-- The round function. -/
def desF (r k : List Bool) : List Bool :=
  let x := List.zipWith xor (permute desE r) k
  let y := ((chunks 6 x).zipIdx).flatMap fun p =>
    let v := desSbox p.2 (natOfBits p.1)
    (List.range 4).map fun i => v.testBit (3 - i)
  permute desP y

/-- Total left shifts of the key halves after each round. -/
def desShifts : List Nat := [1, 2, 4, 6, 8, 10, 12, 14, 15, 17, 19, 21, 23, 25, 27, 28]

/-- The sixteen round keys. -/
def desKeys (key : List Byte) : List (List Bool) :=
  let cd := permute desPC1 (bitsOf key)
  let c := cd.take 28
  let d := cd.drop 28
  desShifts.map fun n => permute desPC2 ((c.drop n ++ c.take n) ++ (d.drop n ++ d.take n))

/-- DES with round keys in the order given. -/
def desWith (ks : List (List Bool)) (b : List Byte) : List Byte :=
  let x := permute desIP (bitsOf b)
  let lr := ks.foldl (fun (p : List Bool × List Bool) k => (p.2, List.zipWith xor p.1 (desF p.2 k))) (x.take 32, x.drop 32)
  bytesOfBits (permute desFP (lr.2 ++ lr.1))

/-- Encipher one block under an 8-byte key. -/
def desEnc (key b : List Byte) : List Byte := desWith (desKeys key) b

/-- Decipher one block. -/
def desDec (key b : List Byte) : List Byte := desWith (desKeys key).reverse b

/-- The three parts of a TDES key; a two-key key acts as K1, K2, K1 (R194). -/
def tdesParts (key : List Byte) : List Byte × List Byte × List Byte :=
  (key.take 8, slice key 8 8, if key.length = 16 then key.take 8 else slice key 16 8)

/-- TDES encipherment of one block. -/
def tdesEnc (key b : List Byte) : List Byte :=
  let k := tdesParts key
  desEnc k.2.2 (desDec k.2.1 (desEnc k.1 b))

/-- TDES decipherment of one block. -/
def tdesDec (key b : List Byte) : List Byte :=
  let k := tdesParts key
  desDec k.1 (desEnc k.2.1 (desDec k.2.2 b))

/-- Set odd parity in every byte of a TDES key. -/
def setParity (key : List Byte) : List Byte :=
  key.map fun b =>
    let ones := ((List.range 7).filter fun i => b.getLsbD (i + 1)).length
    (b &&& 0xFE) ||| (if ones % 2 = 0 then 1 else 0)

/-- Padding method 1 (zeros, nothing for a whole number of blocks) or 2 (0x80 and zeros) of ISO/IEC 9797-1. -/
def pad9797 (n : Nat) (method2 : Bool) (d : List Byte) : List Byte :=
  let e := if method2 then d ++ [0x80] else d
  e ++ List.replicate ((n - e.length % n) % n) 0

/-- ISO/IEC 9797-1 algorithm 1 over TDES (R200). -/
def macAlg1 (key d : List Byte) : List Byte := cbcLast 8 (tdesEnc key) d

/-- ISO/IEC 9797-1 algorithm 3: single-DES chaining under K1, then K2 deciphers and K1 enciphers (R200). -/
def macAlg3 (key d : List Byte) : List Byte :=
  let k := tdesParts key
  let ks := desKeys k.1
  desEnc k.1 (desDec k.2.1 (cbcLast 8 (desWith ks) d))

/-- Is an ALG code TDES (R108)? -/
def algTdes (a : Nat) : Bool := a == 1 || a == 2

/-- Is an ALG code AES? -/
def algAes (a : Nat) : Bool := a == 3 || a == 4 || a == 5

/-- Block length of a symmetric ALG. -/
def algBlock (a : Nat) : Nat := if algTdes a then 8 else 16

/-- Encipher one block under a key of a symmetric ALG. -/
def blockEnc (a : Nat) (key : List Byte) : List Byte → List Byte :=
  if algTdes a then tdesEnc key else let rks := aesKeys key; aesEncWith rks

/-- Decipher one block under a key of a symmetric ALG. -/
def blockDec (a : Nat) (key : List Byte) : List Byte → List Byte :=
  if algTdes a then tdesDec key else let rks := aesKeys key; aesDecWith rks

/-- CMAC under a key of a symmetric ALG. -/
def cmacAlg (a : Nat) (key d : List Byte) : List Byte := cmacOf (algBlock a) (blockEnc a key) d

end Sys2Proof.Machine
end

