-- ==== Sys2Proof/Machine/Msu.lean ====
section
/-! DEFINITION. The Memory Seal Unit (07_key_store_sealed_memory.md, R217 to R230): reads, writes, counters, failing
lines and row sparing. Sealed memory is held as its plaintext; whether a line verifies is an outcome of the access. -/

namespace Sys2Proof.Machine

/-- Bytes of sealed memory from a sealed offset, as the lines hold them. -/
def sealedBytes (s : State) (off n : Nat) : List Byte := Memory.read 0 s.msu.mem off n

/-- Put bytes into sealed memory without passing the MSU's checks. -/
def putSealed (off : Nat) (bs : List Byte) (s : State) : State :=
  { s with msu := { s.msu with mem := Memory.write 0 s.msu.mem off bs } }

/-! ### Counters (R220, R222, R223) -/

/-- Key of a counter-line field. -/
abbrev ctrKey (l i : Nat) : Nat := l * 2 ^ 26 + i

/-- MINOR of child `i` in its level-`l` counter line. -/
def minorOf (s : State) (l i : Nat) : Nat := SMap.get 0 s.msu.minor (ctrKey l i)

/-- MAJOR of level-`l` counter line `j`. -/
def majorOf (s : State) (l j : Nat) : Nat := SMap.get 0 s.msu.major (ctrKey l j)

/-! ### Row sparing (R228 to R230) -/

/-- Device and row of a line. -/
def rowId (line : Nat) : Nat × Nat := ((Config.rowOfLine line).1 % 2, (Config.rowOfLine line).2 % 2 ^ 20)

/-- A row-remap word (R229). -/
def rowWord (row reason : Nat) : Dword :=
  let low := row % 2 ^ 20 + (reason % 4) * 2 ^ 20
  BitVec.ofNat 64 (low + (crc8 (leBytes 7 low)).toNat * 2 ^ 56)

/-- Does a row-remap word count (R229)? -/
def rowWordCounts (w : Dword) : Bool :=
  decide (fld w 22 34 = 0) && decide ((crc8 (leBytes 7 (w.toNat % 2 ^ 56))).toNat = w.toNat / 2 ^ 56)

/-- Word address of row-remap word `w` in the lifetime area (R229). -/
def rowWordAddr (s : State) (w : Nat) : Nat := (lifeSect0 s + 4) * 512 + w

/-- Hand row-remap word `w` to the warden, which programs it through the flash store once it runs (R229). -/
def handRowWord (w : Nat) (v : Dword) (s : State) : State :=
  if wardenUp s then (fwProg (8 * rowWordAddr s w) (leBytes 8 v.toNat) s).2
  else { s with msu := { s.msu with rowWords := s.msu.rowWords ++ [(w, v)] } }

/-- The warden programs the words that it was handed before it ran (R229). -/
def flushRowWords (s : State) : State :=
  s.msu.rowWords.foldl (fun t (x : Nat × Dword) => (fwProg (8 * rowWordAddr t x.1) (leBytes 8 x.2.toNat) t).2)
    { s with msu := { s.msu with rowWords := [] } }

/-- Spare a row of device `d`, with its trigger (R228, R230). -/
def spareRowAt (d row reason : Nat) (s : State) : State :=
  let k := SMap.get 0 s.msu.used d
  if k < 1024 then
    let s := { s with
      msu := { s.msu with
        used := SMap.set 0 s.msu.used d (k + 1)
        remap := SMap.set (0, 0) s.msu.remap (1024 * d + k) (row + 1, reason) }
      tel := { s.tel with counts := { s.tel.counts with rowSpare := SMap.upd 0 s.tel.counts.rowSpare reason (satInc 0xFFFFFFFF) } } }
    let s := handRowWord (1024 * d + k) (rowWord row reason) (cause .msu 3 s)
    if k + 1 = 1024 then cause .msu 4 s else s
  else { s with msu := { s.msu with unspared := satInc 0xFFF s.msu.unspared } }

/-- Spare the row of a line. -/
def spareRow (line reason : Nat) (s : State) : State := spareRowAt (rowId line).1 (rowId line).2 reason s

/-- Note a re-read pass for its row; the second one within the on-die table spares the row (R228). -/
def noteReread (line : Nat) (s : State) : State :=
  let id := (rowId line).1 * 2 ^ 20 + (rowId line).2
  if s.msu.rowEvent.contains id then
    spareRow line 1 { s with msu := { s.msu with rowEvent := s.msu.rowEvent.filter fun x => decide (x ≠ id) } }
  else { s with msu := { s.msu with rowEvent := (id :: s.msu.rowEvent).take 64 } }

/-! ### Verification (R224) -/

/-- Does a counter line that verifies data line `i` fail (R224)? -/
def counterFails (s : State) (i : Nat) : Bool :=
  SMap.get false s.msu.badCtr (ctrKey 0 (i / 64)) || SMap.get false s.msu.badCtr (ctrKey 1 (i / 64 / 64))
    || SMap.get false s.msu.badCtr (ctrKey 2 (i / 64 / 64 / 64))

/-- Line `i` keeps failing: for itself, or with a counter line that covers it. -/
def lineFails (s : State) (i : Nat) : Bool := !s.msu.rootOk || SMap.get false s.msu.failing i || counterFails s i

/-- An access passes only on re-read. -/
def rereadPass (i : Nat) (s : State) : State :=
  noteReread i (cause .msu 1 { s with msu := { s.msu with reread := satInc 0xFFFF s.msu.reread } })

/-- Mark what fails with line `i`: the line, its MAC, or one of the three counter lines above it. Which of them it is, is a
free choice (R224; DESIGN CHOICE, log 711). -/
def markFailing (i : Nat) (s : State) : State :=
  let d := drawBelow 4 1 s
  let s := d.2
  match d.1 with
  | 0 => { s with msu := { s.msu with failing := SMap.set false s.msu.failing i true } }
  | l + 1 => { s with msu := { s.msu with badCtr := SMap.set false s.msu.badCtr (ctrKey l (i / 64 ^ (l + 1))) true } }

/-- An access fails twice (R224): counts, FAIL, cause and BUS_PARITY, and the sparing of the line's row for `reason`
(R228). What failed keeps failing. -/
def failTwice (i reason : Nat) (s : State) : State :=
  let s := if lineFails s i then s else markFailing i s
  let s := { s with msu := { s.msu with
    authFail := satInc 0xFFFF s.msu.authFail
    fail := i * 64 } }
  spareRow i reason (raise srcBusParity ([2, 0, 0, 0] ++ leBytes 4 (i * 64)) (cause .msu 2 s))

/-- An access to line `i` fails twice. -/
def doubleFail (i : Nat) (s : State) : State := failTwice i 0 s

/-- Verify one line: `first` and `second` are what the two reads of DRAM give where the line is not known to fail. -/
def verifyLine (i : Nat) (first second : Bool) (s : State) : Bool × State :=
  if lineFails s i then (false, doubleFail i s)
  else if first then (true, s)
  else if second then (true, rereadPass i s)
  else (false, doubleFail i s)

/-! ### Counters advance (R222, R223) -/

/-- The 64 lines of group `j` are verified as they are re-enciphered (R223). The outcome of reads that fail falls on a
free one of them; a line that fails is reported and goes on failing. -/
def reencipher (j : Nat) (first second : Bool) (s : State) : State :=
  let d := if first then (64, s) else drawBelow 64 1 s
  (List.range 64).foldl (fun t k => (verifyLine (64 * j + k) (first || k != d.1) second t).2) d.2

/-- Advance the counter of child `i` at level `l`: MINOR, or at 63 MAJOR with all 64 minors set to 0, and the data lines
that a level-0 counter line covers are re-enciphered (R223). -/
def bumpCounter (l i : Nat) (first second : Bool) (s : State) : State :=
  let m := minorOf s l i
  if m = 63 then
    let s := if l = 0 then reencipher (i / 64) first second s else s
    { s with msu := { s.msu with
        major := SMap.set 0 s.msu.major (ctrKey l (i / 64)) (majorOf s l (i / 64) + 1)
        minor := (List.range 64).foldl (fun mm k => SMap.set 0 mm (ctrKey l (i / 64 * 64 + k)) 0) s.msu.minor } }
  else { s with msu := { s.msu with minor := SMap.set 0 s.msu.minor (ctrKey l i) (m + 1) } }

/-- A write of data line `i` advances its counter; each counter line changed is written back, which advances its own
counter in its parent (R222). -/
def bumpAll (i : Nat) (first second : Bool) (s : State) : State :=
  bumpCounter 3 (i / 64 / 64 / 64) true true (bumpCounter 2 (i / 64 / 64) true true
    (bumpCounter 1 (i / 64) true true (bumpCounter 0 i first second s)))

/-! ### Accesses -/

/-- Verify lines `i`, `i + 1`, … in turn; the first that fails ends the access. -/
def verifyLines (i : Nat) (first second : Bool) : Nat → State → Bool × State
  | 0, s => (true, s)
  | n + 1, s =>
    let r := verifyLine i first second s
    if r.1 then verifyLines (i + 1) first second n r.2 else r

/-- Lines that an extent touches. -/
def lineCount (off n : Nat) : Nat := if n = 0 then 0 else (off + n - 1) / 64 - off / 64 + 1

/-- Read sealed memory: the bytes, or none where a line fails (R222, R224). -/
def msuRead (off n : Nat) (first second : Bool) (s : State) : Option (List Byte) × State :=
  let r := verifyLines (off / 64) first second (lineCount off n) s
  (if r.1 then some (sealedBytes r.2 off n) else none, r.2)

/-- Write one line's part: a whole line clears its failing mark and needs no read of it, but counters that verify; a part
reads, verifies and merges (R222, R224). -/
def msuWriteLine (off : Nat) (bs : List Byte) (first second : Bool) (s : State) : Bool × State :=
  let i := off / 64
  if s.msu.rootOk = true ∧ counterFails s i = false ∧ off % 64 = 0 ∧ bs.length = 64 then
    (true, bumpAll i first second
      (putSealed off bs { s with msu := { s.msu with failing := SMap.set false s.msu.failing i false } }))
  else
    let r := verifyLine i first second s
    if r.1 then (true, bumpAll i true true (putSealed off bs r.2)) else r

/-- Write sealed memory line by line. A line that fails leaves its own bytes unwritten and ends the write. -/
def msuWriteF (off : Nat) (bs : List Byte) (first second : Bool) : Nat → State → Bool × State
  | 0, s => (true, s)
  | f + 1, s =>
    if bs.isEmpty then (true, s)
    else
      let n := min (64 - off % 64) bs.length
      let r := msuWriteLine off (bs.take n) first second s
      if r.1 then msuWriteF (off + n) (bs.drop n) first second f r.2 else r

/-- Write sealed memory. -/
def msuWrite (off : Nat) (bs : List Byte) (first second : Bool) (s : State) : Bool × State :=
  msuWriteF off bs first second (bs.length + 1) s

/-- Carry out an access of the MSU's own clients. -/
def msuAccess (a : MsuAccess) (s : State) : State :=
  match a.data with
  | some b => (msuWrite a.off b a.first a.second s).2
  | none => (msuRead a.off a.len a.first a.second s).2

/-- Initialisation has written every line and reads it back (R226): `lines` are those that fail at first, with the outcome of
their second reading. One that fails twice is reported and its row spared as found by the power-up verification; then
INIT_DONE, and the accesses that waited are carried out (R225). -/
def msuInitialise (lines : List (Nat × Bool)) (s : State) : State :=
  let s := lines.foldl (fun t x => if x.2 then rereadPass x.1 t else failTwice x.1 2 t) s
  let q := s.msu.waiting
  q.foldl (fun t a => msuAccess a t) (cause .msu 0 { s with msu := { s.msu with
    inited := true
    waiting := [] } })

/-! ### The image staging buffer (R53, R217) -/

/-- Sealed offset of the staging buffer of 1 MiB. -/
abbrev stageBuf : Nat := 0xC4000000

/-- The tag of the HQI's writes under STAGE (R328). -/
def stageTag : Tag := ⟨0, 0, 1, 2, 0, 0, false⟩

/-- The HQI writes a fetched element into the staging buffer: the status (R218, R224, R336). -/
def fillStageBuf (bs : List Byte) (s : State) : Nat × State :=
  let q := gate stageTag tgtSealed0 (stageBuf - 0x80000000) bs.length kWrite s
  if q.1 = false then (stNotPermitted, q.2)
  else
    let w := msuWrite stageBuf bs true true q.2
    (if w.1 then stOk else stIntegrity, w.2)

/-- Clear the staging buffer: its lines that hold anything are written with zeros. -/
def clearStageBuf (s : State) : State :=
  let ls := ((s.msu.mem.filter fun c => decide (stageBuf ≤ c.1 ∧ c.1 < stageBuf + 0x100000)).map fun c => c.1 / 64).eraseDups
  if s.msu.rootOk then ls.foldl (fun t i => (msuWriteLine (64 * i) (List.replicate 64 0) true true t).2) s else s

/-- The counting words of the row-remap log are applied at power-up (R229); a device without a spare row left sets
SPARE_OUT (R230). -/
def applyRowLog (s : State) : State :=
  let s := noteSectors (lifeSect0 s + 4) 4 s
  let step := fun (t : State) (w : Nat) =>
    let v := flashWord t (rowWordAddr t w)
    if wordErased t (rowWordAddr t w) then t
    else
      let t := { t with msu := { t.msu with used := SMap.set 0 t.msu.used (w / 1024) (w % 1024 + 1) } }
      if rowWordCounts v ∧ flashReads t (8 * rowWordAddr t w) 8 = true then
        { t with msu := { t.msu with remap := SMap.set (0, 0) t.msu.remap w (fld v 0 20 + 1, fld v 20 2) } }
      else t
  let used := (usedWords s).filterMap fun w =>
    if rowWordAddr s 0 ≤ w ∧ w < rowWordAddr s 2048 then some (w - rowWordAddr s 0) else none
  let s := used.foldl step { s with msu := { s.msu with
    remap := []
    used := [] } }
  if s.msu.used.any fun e => decide (1024 ≤ e.2) then cause .msu 4 s else s

end Sys2Proof.Machine
end

