-- ==== Sys2Proof/Machine/KeyStore.lean ====
section
/-! DEFINITION. The key store's shared operations (07_key_store_sealed_memory.md): the vault's roots, derived keys,
directories and handles, slot contents, the slot and resident logs, and changes to them. -/

namespace Sys2Proof.Machine

/-! ### The vault (R386) and derived keys (R232) -/

/-- Bytes of the vault. -/
def vaultBytes (s : State) (o n : Nat) : List Byte := Memory.read 0 s.eav.vault o n

/-- Write bytes of the vault. -/
def putVault (o : Nat) (bs : List Byte) (s : State) : State :=
  { s with eav := { s.eav with vault := Memory.write 0 s.eav.vault o bs } }

def msuRoot (s : State) : List Byte := vaultBytes s 0 32
def storageRoot (s : State) : List Byte := vaultBytes s 0x20 32
def ksrk (s : State) : List Byte := vaultBytes s 0x40 32

/-- Does the vault hold a KSRK? A root that is lost reads as zero (R377). -/
def hasKsrk (s : State) : Bool := !allZero (ksrk s)

/-- GKEK of a gable under a KSRK. -/
def gkek (root : List Byte) (g : Nat) : List Byte := kdf108 root (ascii "LA-GKEK") [BitVec.ofNat 8 g] 32

/-- KSRK_ID of a KSRK. -/
def ksrkIdOf (root : List Byte) : List Byte := (sha384 (kdf108 root (ascii "LA-KSID") [] 32)).take 16

/-- KSRK_ID of the vault; zero where it holds no KSRK. -/
def ksrkId (s : State) : List Byte := if hasKsrk s then ksrkIdOf (ksrk s) else List.replicate 16 0

/-- Key of the root record's TAG. -/
def rootRecordKey (s : State) : List Byte := kdf108 (storageRoot s) (ascii "LA-KSRR") [] 32

/-! ### The MSU's sealing of a line (R221) -/

def msuKE (s : State) : List Byte := kdf108 (msuRoot s) (ascii "LA-MSUE") [] 32
def msuKM (s : State) : List Byte := kdf108 (msuRoot s) (ascii "LA-MSUM") [] 32
def msuH (s : State) : List Byte := (kdf108 (msuRoot s) (ascii "LA-MSUH") [] 32).take 16

/-- The counter block of address field `a`, counter and block field. -/
def msuCtrBlock (a major minor field : Nat) : List Byte :=
  leBytes 4 a ++ leBytes 7 major ++ [BitVec.ofNat 8 minor, BitVec.ofNat 8 field, 0, 0, 0]

/-- The ciphertext that DRAM holds for data line `i`. -/
def lineCipher (s : State) (i : Nat) : List Byte :=
  let f := aesEncWith (aesKeys (msuKE s))
  (List.range 4).flatMap fun b =>
    xorBytes (sealedBytes s (64 * i + 16 * b) 16) (f (msuCtrBlock i (majorOf s 0 (i / 64)) (minorOf s 0 i) b))

/-- The MAC of four blocks under an address field and a counter. -/
def msuMac (s : State) (a major minor : Nat) (blocks : List Byte) : List Byte :=
  (xorBytes (beBytes 16 (ghash (beNat (msuH s)) blocks)) (aesEnc (msuKM s) (msuCtrBlock a major minor 0xFF))).take 8

/-- The MAC that DRAM holds for data line `i`. -/
def lineMac (s : State) (i : Nat) : List Byte := msuMac s i (majorOf s 0 (i / 64)) (minorOf s 0 i) (lineCipher s i)

/-- Bits 447:0 of the level-`l` counter line `j`: MAJOR and 64 minors of 6 bits (R220). -/
def counterLine (s : State) (l j : Nat) : List Byte :=
  leBytes 56 (majorOf s l j + ((List.range 64).map fun k => minorOf s l (64 * j + k) * 2 ^ (56 + 6 * k)).sum)

/-- The MAC of a counter line, under the counter that its parent holds for it. -/
def counterMac (s : State) (l j : Nat) : List Byte :=
  msuMac s (0x80000000 + l * 0x1000000 + j) (majorOf s (l + 1) (j / 64)) (minorOf s (l + 1) j)
    (counterLine s l j ++ List.replicate 8 0)

/-! ### Directories and handles (R105, R233, R236, R238) -/

/-- Sealed offsets of the slot table, the slot directory and gable 0's region. -/
abbrev slotTable : Nat := 0x80000000
abbrev slotDir : Nat := 0xC0000000
abbrev gable0Base : Nat := 0x80000000

/-- A directory entry (R233): of a sealed slot, or of a resident index. -/
def dirEntry (s : State) (resident : Bool) (i : Nat) : Word :=
  if resident then SMap.get 0 s.ks.resDir i else BitVec.ofNat 32 (leNat (sealedBytes s (slotDir + 4 * i) 4))

def dGable (e : Word) : Nat := fld e 26 6
def dState (e : Word) : Nat := fld e 24 2
def dSpan (e : Word) : Nat := fld e 16 2
def dGen (e : Word) : Nat := fld e 0 16

/-- A directory entry from its fields. -/
def mkDir (gable state span gen : Nat) : Word := mkWord [(26, gable), (24, state), (16, span), (0, gen)]

/-- The generation that follows (R106). -/
def nextGen (g : Nat) : Nat := if g = 0xFFFF then 1 else g + 1

/-- A handle's fields (R105). -/
def hKind (h : Nat) : Nat := h / 2 ^ 62
def hResident (h : Nat) : Bool := hKind h == 2
def hIndex (h : Nat) : Nat := h % 2 ^ 24
def hGen (h : Nat) : Nat := h / 2 ^ 32 % 2 ^ 16

/-- A handle from its parts. -/
def mkHandle (resident : Bool) (gen index : Nat) : Nat := (if resident then 2 else 1) * 2 ^ 62 + gen * 2 ^ 32 + index

/-- Are the reserved bits of a handle clear (R105)? -/
def handleReserved (h : Nat) : Bool :=
  decide (h / 2 ^ 48 % 2 ^ 14 = 0) && decide (h / 2 ^ 24 % 2 ^ 8 = 0)
    && (!hResident h || decide (h / 2 ^ 16 % 2 ^ 8 = 0))

/-- Does an index lie in a gable's slot range, or its resident range? Gable 0 may use every slot that no gable holds
(R193). -/
def indexOwned (s : State) (g : Nat) (resident : Bool) (i : Nat) : Bool :=
  let mine := fun (x : Nat) =>
    let c := gableCfg s x
    if resident then inside i 1 c.resBase c.resCount else inside i 1 c.keyBase c.keyCount
  if g = 0 then
    decide (i < if resident then 65536 else 16777216) && !((formedGables s).any mine)
  else mine g

/-- Does a handle lie inside the gable's ranges (R105, checks 2 and 3 of R103)? -/
def handleInRange (s : State) (g h : Nat) : Bool :=
  (hKind h == 1 || hKind h == 2) && handleReserved h && indexOwned s g (hResident h) (hIndex h)

/-- Does a handle resolve for a gable (R106, R236)? -/
def handleResolves (s : State) (g h : Nat) : Bool :=
  let e := dirEntry s (hResident h) (hIndex h)
  dState e == 1 && dGable e == g && dGen e == hGen h

/-- Is a slot free to a gable (R236)? -/
def slotFree (s : State) (resident : Bool) (g i : Nat) : Bool :=
  let e := dirEntry s resident i
  dState e == 0 || dGable e != g

/-! ### Spans and lengths (R108, R234) -/

/-- log2 of the span for an ALG and a secret length. -/
def spanLog2 (alg len : Nat) : Nat :=
  if algTdes alg || algAes alg then 0 else if alg = 6 then (if len ≤ 32 then 0 else 1)
  else if alg = 0x12 ∨ alg = 0x16 then 2 else 1

/-- Does a secret length suit an ALG (R108)? 0 is a public key's. -/
def keyLenOk (alg len : Nat) : Bool :=
  if alg = 1 ∨ alg = 3 then len == 16 else if alg = 2 ∨ alg = 4 then len == 24 else if alg = 5 then len == 32
  else if alg = 6 then decide (16 ≤ len ∧ len ≤ 64)
  else match curveOf alg with
    | some c => if alg % 2 = 0 then len == c.len else len == 0
    | none => false

/-- Is an ALG an EC private key, or an EC public key? -/
def algPrivate (a : Nat) : Bool := a == 0x10 || a == 0x12 || a == 0x14 || a == 0x16
def algPublic (a : Nat) : Bool := a == 0x11 || a == 0x13 || a == 0x15 || a == 0x17

/-- Fields of a policy word (R107). -/
def pAlg (p : Word) : Nat := fld p 0 8
def pUsage (p : Word) : Nat := fld p 8 8
def pBit (p : Word) (i : Nat) : Bool := bitOf p.toNat i

/-! ### Slot contents (R235, R237) -/

/-- The additional data of a slot's wrapping. -/
def slotAad (head : List Byte) (resident : Bool) (index gable : Nat) : List Byte :=
  head ++ leBytes 4 (if resident then index + 2 ^ 31 else index) ++ [BitVec.ofNat 8 gable]

/-- The IV of a slot's wrapping. -/
def slotIv (seq : Nat) (resident : Bool) (index : Nat) : List Byte :=
  leBytes 8 seq ++ leBytes 4 (if resident then index + 2 ^ 31 else index)

/-- The contents of a slot that stores a key (R235). -/
def wrapSlot (root : List Byte) (g : Nat) (resident : Bool) (index gen span seq : Nat) (policy : Word)
    (secret pub : List Byte) : List Byte :=
  let n := 64 * 2 ^ span
  let head := leBytes 4 policy.toNat ++ leBytes 2 gen ++ [BitVec.ofNat 8 (2 ^ span), BitVec.ofNat 8 secret.length] ++ leBytes 8 seq
  let c := gcmEnc (gkek root g) (slotIv seq resident index) (slotAad head resident index g) (padTo (n - 32) (secret ++ pub))
  head ++ c.1 ++ c.2

/-- Authenticate slot contents as those of an index, a gable and a generation: none where the tag fails (R235). -/
def unwrapSlot (root : List Byte) (g : Nat) (resident : Bool) (index gen : Nat) (bs : List Byte) : Option LoadedKey :=
  let n := bs.length
  let head := bs.take 4 ++ leBytes 2 gen ++ slice bs 6 10
  match gcmDec (gkek root g) (slotIv (leAt bs 8 8) resident index) (slotAad head resident index g)
      (slice bs 16 (n - 32)) (slice bs (n - 16) 16) with
  | none => none
  | some p =>
    let len := leAt bs 7 1
    let policy := BitVec.ofNat 32 (leAt bs 0 4)
    let plen := match curveOf (pAlg policy) with
      | some c => 2 * c.len
      | none => 0
    some ⟨policy, p.take len, slice p len plen⟩

/-- Are all parts of a TDES key equal with the parity bits ignored (R237)? -/
def tdesWeak (key : List Byte) : Bool :=
  let m := fun (k : List Byte) => k.map (· &&& 0xFE)
  let p := tdesParts key
  if key.length = 16 then m p.1 == m p.2.1 else m p.1 == m p.2.1 && m p.2.1 == m p.2.2

/-- The second part of the on-use check (R237). -/
def onUseOk (k : LoadedKey) : Bool :=
  let a := pAlg k.policy
  keyLenOk a k.secret.length
    && (!algTdes a || !tdesWeak k.secret)
    && (match curveOf a with
      | some c =>
        (!algPrivate a || decide (1 ≤ beNat k.secret ∧ beNat k.secret < c.n))
          && onCurve c (beNat (slice k.pub 0 c.len)) (beNat (slice k.pub c.len c.len))
      | none => true)

/-! ### Log records (R240) -/

/-- A record of the slot log or the resident log. -/
structure LogRec where
  index  : Nat
  store  : Bool
  gen    : Nat
  gable  : Nat
  span   : Nat
  seq    : Nat
  data   : List Byte
deriving DecidableEq, Repr

/-- A record's bytes. -/
def logRecBytes (r : LogRec) : List Byte :=
  let h := leBytes 3 r.index ++ [if r.store then 1 else 2] ++ leBytes 2 r.gen ++ [BitVec.ofNat 8 r.gable, BitVec.ofNat 8 r.span]
    ++ leBytes 7 r.seq
  h ++ [crc8 (h ++ r.data)] ++ r.data

/-- A record's length in bytes. -/
def logRecLen (r : LogRec) : Nat := 16 + r.data.length

/-- Parse one record at the front of bytes: the record where it counts, and its length; none at erased bytes. -/
def parseLogRec (bs : List Byte) : Option (Option LogRec × Nat) :=
  let h := bs.take 16
  if h.all (· == 0xFF) then none
  else
    let store := leAt h 3 1 == 1
    let span := leAt h 7 1 % 4
    let n := if store then 64 * 2 ^ span else 0
    let data := slice bs 16 n
    let torn := (h.drop 8).all (· == 0xFF)
    let good := !torn && slice h 15 1 == [crc8 (h.take 15 ++ data)]
    some (if good then some ⟨leAt h 0 3, store, leAt h 4 2, leAt h 6 1, span, leAt h 8 7, data⟩ else none, 16 + n)

/-- The records of a log sector's bytes from offset `o` on, counting ones with their offsets and lengths. -/
def logPlaces : Nat → Nat → List Byte → List (Nat × LogRec)
  | 0, _, _ => []
  | f + 1, o, bs =>
    if bs.length < 16 then []
    else match parseLogRec bs with
      | none => []
      | some (r, n) => (r.toList.map fun x => (o, x)) ++ logPlaces f (o + n) (bs.drop n)

/-- Does a log sector begin with its header (R240)? -/
def isLogHeader (b : List Byte) : Bool := b.take 4 == [0x4B, 0x4C, 0x4F, 0x47]

/-- The counting records of a log sector with their flash addresses; none where its header is not one. A record that does
not read does not count (R349). -/
def sectorPlaces (s : State) (sect : Nat) : List (Nat × LogRec) :=
  if isLogHeader (flashBytes s (sect * 4096) 4) then
    ((logPlaces 256 16 (flashBytes s (sect * 4096 + 16) 4080)).map fun p => (sect * 4096 + p.1, p.2)).filter fun p =>
      flashReads s p.1 (logRecLen p.2)
  else []

/-- The counting records of a log sector. -/
def sectorRecs (s : State) (sect : Nat) : List LogRec := (sectorPlaces s sect).map (·.2)

/-- First sector and length of the slot log and the resident log (R240). -/
def slotLogArea : Nat × Nat := (keySect0 + 3, 1024)
def resLogArea (s : State) : Nat × Nat := (keySect0 + 1027, s.img.latched.partition.keys - 1027)

/-- Every counting record of a log. -/
def logRecs (s : State) (area : Nat × Nat) : List LogRec := (usedSectors s area.1 area.2).flatMap fun x => sectorRecs s x

/-! ### Root records (R244, R245) -/

/-- Bytes 0x00 to 0xBF of a root record. -/
def rootBody (gen : Nat) (parent id : List Byte) (bGen bSeq : Nat) (bDig serial : List Byte) : List Byte :=
  [0x4B, 0x53, 0x52, 0x54] ++ leBytes 2 1 ++ leBytes 2 0 ++ leBytes 8 gen ++ padTo 48 parent ++ padTo 16 id ++ leBytes 8 bGen
    ++ leBytes 8 bSeq ++ padTo 48 bDig ++ padTo 16 serial ++ List.replicate 32 0

/-- A whole root record, with its TAG. -/
def rootBytes (s : State) (gen : Nat) (parent id : List Byte) (bGen bSeq : Nat) (bDig : List Byte) : List Byte :=
  let b := rootBody gen parent id bGen bSeq bDig (serialBytes s)
  b ++ hmac 1 (rootRecordKey s) b

/-- Fields of a root record's bytes. -/
def parseRoot (b : List Byte) : RootRec :=
  ⟨leAt b 8 8, slice b 0x10 48, slice b 0x40 16, leAt b 0x50 8, leAt b 0x58 8, slice b 0x60 48, b⟩

/-- The record digest. -/
def rootDigest (r : RootRec) : List Byte := sha384 r.raw

/-- Root-record copy `k` as its sector holds it. -/
def rootCopy (s : State) (k : Nat) : List Byte := flashBytes s ((keySect0 + k) * 4096) 240

/-- Is a copy erased? -/
def copyErased (b : List Byte) : Bool := b.all (· == 0xFF)

/-- Is a copy's record authentic (R244)? -/
def rootAuthentic (s : State) (b : List Byte) : Bool :=
  b.take 6 == [0x4B, 0x53, 0x52, 0x54, 1, 0] && slice b 0x90 16 == serialBytes s
    && slice b 0xC0 48 == hmac 1 (rootRecordKey s) (b.take 0xC0)

/-- What the selection of R245 finds. -/
inductive RootSel where
  | none
  | one (r : RootRec)
  | divergent
deriving DecidableEq, Repr

/-- Root record selection (R245). -/
def selectRoot (s : State) : RootSel :=
  let auth := (([0, 1, 2].filter fun k => flashReads s ((keySect0 + k) * 4096) 240).map fun k => rootCopy s k).filter fun b => rootAuthentic s b
  match auth.eraseDups with
  | [] => .none
  | [a] => .one (parseRoot a)
  | [a, b] =>
    let ra := parseRoot a
    let rb := parseRoot b
    let hi := if ra.gen < rb.gen then rb else ra
    let lo := if ra.gen < rb.gen then ra else rb
    if lo.gen < hi.gen ∧ hi.parent = rootDigest lo then .one hi else .divergent
  | _ => .divergent

/-- BACKUP_SEQ of the root record in force; before the power-up has selected one, of the one that it will select. -/
def confirmedSeq (s : State) : Nat := match s.ks.root with
  | some r => r.bSeq
  | none => match selectRoot s with
    | .one r => r.bSeq
    | _ => 0

/-- Is a slot-log sector free: every record in it is covered by the confirmed backup, and it is not the one being
filled (R242)? -/
def slotSectorFree (s : State) (sect : Nat) : Bool :=
  !(s.ks.slotLog.valid && s.ks.slotLog.sector == sect) && (sectorRecs s sect).all fun r => decide (r.seq ≤ confirmedSeq s)

/-- Free slot-log sectors: MSU_KS_LOG.SLOT_FREE. -/
def slotLogFree (s : State) : Nat :=
  1024 - ((usedSectors s slotLogArea.1 slotLogArea.2).filter fun x => !slotSectorFree s x).length

/-- Erased sectors of the resident log. -/
def resErased (s : State) : Nat := (resLogArea s).2 - (usedSectors s (resLogArea s).1 (resLogArea s).2).length

/-- Uses of a log sector so far, as its header says, or as the warden keeps them for one that stands erased (DESIGN CHOICE,
log 712). -/
def sectorUses (s : State) (sect : Nat) : Nat :=
  let h := flashBytes s (sect * 4096) 8
  if isLogHeader h then leAt h 4 4 else SMap.get 0 s.flash.logUses sect

/-- Start a log sector: erase it and write its header with one use more than before (R240). -/
def startLogSector (sect : Nat) (s : State) : Bool × State :=
  let uses := sectorUses s sect
  let e := if sectorErased s sect then (true, s) else fwErase sect s
  if e.1 then fwProg (sect * 4096) ([0x4B, 0x4C, 0x4F, 0x47] ++ leBytes 4 (uses + 1) ++ List.replicate 8 0) e.2 else e

/-- Program a record (R240): its contents, then bytes 0x00 to 0x07, then bytes 0x08 to 0x0F. -/
def progLogRec (a : Nat) (r : LogRec) (s : State) : Bool × State :=
  let bs := logRecBytes r
  let c := fwProg (a + 16) (bs.drop 16) s
  if c.1 = false then c
  else
    let h := fwProg a (bs.take 8) c.2
    if h.1 then fwProg (a + 8) (slice bs 8 8) h.2 else h

/-- The next sector of a circular area after `x` for which `ok` holds. -/
def nextSector (area : Nat × Nat) (x : Nat) (ok : Nat → Bool) : Option Nat :=
  ((List.range area.2).map fun i => area.1 + (x - area.1 + 1 + i) % area.2).find? fun y => ok y

/-- Append a record to a log at the next sector that `ok` lets start; one that does not take it is left, and the record is
written again at the next position (R248, R362). -/
def appendNext (area : Nat × Nat) (ok : State → Nat → Bool) (r : LogRec) : Nat → Nat → State → Option LogPos × State
  | 0, _, s => (none, s)
  | f + 1, from_, s =>
    match nextSector area from_ (fun x => ok s x && !isWorn s x) with
    | none => (none, s)
    | some x =>
      let h := startLogSector x s
      let p := if h.1 then progLogRec (x * 4096 + 16) r h.2 else h
      if p.1 then (some { sector := x, off := 16 + logRecLen r, valid := true }, p.2) else appendNext area ok r f x p.2

/-- Append a record to a log whose next place is `pos`; `ok` says which sectors may be started. The new end of the log; none
where no sector takes the record. -/
def appendLog (area : Nat × Nat) (pos : LogPos) (ok : State → Nat → Bool) (r : LogRec) (s : State) : Option LogPos × State :=
  let from_ := if pos.valid then pos.sector else area.1 + area.2 - 1
  if pos.valid = true ∧ pos.off + logRecLen r ≤ 4096 ∧ isWorn s pos.sector = false then
    let p := progLogRec (pos.sector * 4096 + pos.off) r s
    if p.1 then (some { pos with off := pos.off + logRecLen r }, p.2) else appendNext area ok r area.2 from_ p.2
  else appendNext area ok r area.2 from_ s

/-! ### The slot log buffer (R239) -/

/-- Vault offset of buffer place `k`. A record of the largest span takes 272 bytes, and the buffer holds 60. -/
def bufPlace (k : Nat) : Nat := 0x100 + 272 * k

/-- The records in the buffer, oldest first. -/
def bufRecs (s : State) : List LogRec :=
  ((List.range 60).filterMap fun k =>
    let b := vaultBytes s (bufPlace k) 272
    if leAt b 3 1 = 0 then none else (parseLogRec b).bind (·.1))

/-- Write the buffer anew with the records given. -/
def setBuf (rs : List LogRec) (s : State) : State :=
  putVault 0x100 (padTo 16384 (rs.flatMap fun r => padTo 272 (logRecBytes r))) s

/-- Program the oldest buffered record into the slot log and free its place (R239, R248). -/
def flushOne (s : State) : State :=
  match bufRecs s with
  | [] => s
  | r :: rest =>
    match appendLog slotLogArea s.ks.slotLog slotSectorFree r s with
    | (none, t) => t
    | (some pos, t) =>
      let t := setBuf rest { t with ks := { t.ks with slotLog := pos } }
      if slotLogFree t < 256 then cause .msu 6 t else t

/-- Program every buffered record. -/
def flushAll : Nat → State → State
  | 0, s => s
  | n + 1, s => if (bufRecs s).isEmpty then s else flushAll n (flushOne s)

/-! ### Changes (R236, R238, R239) -/

/-- Directory entries of a span after a change: a store of `gable` with generation `gen` at the head, or a delete. -/
def dirAfter (s : State) (r : LogRec) (resident : Bool) (k : Nat) : Word :=
  let e := dirEntry s resident (r.index + k)
  if r.store then mkDir r.gable (if k = 0 then 1 else 2) r.span (if k = 0 then r.gen else nextGen (dGen e))
  else mkDir (dGable e) 0 (dSpan e) (dGen e)

/-- Apply a record to the slot table and the slot directory. The entries of a continuation take the generation that
follows their own. -/
def applySealed (r : LogRec) (s : State) : State :=
  let n := 2 ^ r.span
  let es := (List.range n).map fun k => (k, dirAfter s r false k)
  let s := (msuWrite (slotTable + 64 * r.index) (if r.store then r.data else List.replicate (64 * n) 0) true true s).2
  es.foldl (fun t p => (msuWrite (slotDir + 4 * (r.index + p.1)) (leBytes 4 p.2.toNat) true true t).2) s

/-- Is a record already in the table that a replay finds: its head's generation has passed the store, or the delete has
emptied it (R243)? A record that follows the head's present entry is not. -/
def recReflected (s : State) (r : LogRec) : Bool :=
  let e := dirEntry s false r.index
  if r.store then r.gen != nextGen (dGen e) else dGen e != r.gen || dState e == 0

/-- Replay a record: one already reflected changes nothing (R243). -/
def replayRec (r : LogRec) (s : State) : State := if recReflected s r then s else applySealed r s

/-- Apply a record to the resident directory. A resident key takes one index. -/
def applyResident (r : LogRec) (s : State) : State :=
  { s with ks := { s.ks with resDir := SMap.set 0 s.ks.resDir r.index (dirAfter s r true 0) } }

/-- Insert a record by SEQ. -/
def insertRec (r : LogRec) : List LogRec → List LogRec
  | [] => [r]
  | x :: xs => if r.seq ≤ x.seq then r :: x :: xs else x :: insertRec r xs

/-- Records in SEQ order. -/
def sortRecs (rs : List LogRec) : List LogRec := rs.foldl (fun l r => insertRec r l) []

/-- The latest counting record of a resident index. -/
def residentRec (s : State) (i : Nat) : Option LogRec :=
  (sortRecs ((logRecs s (resLogArea s)).filter fun r => r.index == i)).getLast?

/-- Flash address of the latest counting record of a resident index. -/
def residentPlace (s : State) (i : Nat) : Option Nat :=
  match residentRec s i with
  | none => none
  | some r =>
    ((usedSectors s (resLogArea s).1 (resLogArea s).2).flatMap fun x => sectorPlaces s x).findSome? fun p =>
      if p.2 == r then some p.1 else none

/-- The tag of engine unit `u`: 2 the key loaders, 3 the backup engine (R328). -/
def engineTag (u : Nat) : Tag := ⟨0, 0, 2, u, 0, 0, false⟩

/-- An engine reads gable 0's sealed memory through its gate (R218, R224, R336): the status, and the bytes where it is OK. -/
def readSealed0 (t : Tag) (off n : Nat) (s : State) : Nat × List Byte × State :=
  let q := gate t tgtSealed0 (off - gable0Base) n kRead s
  if q.1 = false then (stNotPermitted, [], q.2)
  else match msuRead off n true true q.2 with
    | (some b, s) => (stOk, b, s)
    | (none, s) => (stIntegrity, [], s)

/-- The key loader reads a resident key's record line by line (R349): the status, and the contents where it is OK. -/
def readResident (i : Nat) (s : State) : Nat × List Byte × State :=
  match residentPlace s i, residentRec s i with
  | some a, some r =>
    let q := gate (engineTag 2) tgtFlash0 a (16 + r.data.length) kRead s
    if q.1 = false then (stNotPermitted, [], q.2)
    else
      let l := readLines ((a % 64 + 16 + r.data.length + 63) / 64) (a / 64) q.2
      (l.1, r.data, l.2)
  | _, _ => (stIntegrity, [], s)

/-- The directory entries of `n` slots from `i` on are read and verified (R222): did they verify? -/
def readDir (resident : Bool) (i n : Nat) (s : State) : Bool × State :=
  if resident then (true, s) else verifyLines ((slotDir + 4 * i) / 64) true true (lineCount (slotDir + 4 * i) (4 * n)) s

/-- Open a stored key without its on-use check: resolve and authenticate (R106, R198, R235). -/
def openKey (g h : Nat) (s : State) : Nat × Option LoadedKey × State :=
  let i := hIndex h
  let d := readDir (hResident h) i 1 s
  if d.1 = false then (stIntegrity, none, d.2)
  else if handleResolves d.2 g h = false then (stInvalidKey, none, d.2)
  else
    let c := if hResident h then readResident i d.2
      else readSealed0 (engineTag 2) (slotTable + 64 * i) (64 * 2 ^ dSpan (dirEntry d.2 false i)) d.2
    if c.1 ≠ stOk then (c.1, none, c.2.2)
    else match unwrapSlot (ksrk s) g (hResident h) i (hGen h) c.2.1 with
      | none => (stIntegrity, none, c.2.2)
      | some k => (stOk, some k, c.2.2)

/-- Load the key that a handle names for gable `g`, with its on-use check (R237): the status, and the key where it is OK. -/
def loadKey (g h : Nat) (s : State) : Nat × Option LoadedKey × State :=
  match openKey g h s with
  | (st, none, t) => (st, none, t)
  | (_, some k, t) => if onUseOk k then (stOk, some k, t) else (stInvalidKey, none, t)

/-- Does a load of this handle wait: for sealed memory (R225), or for an erase that holds the array (R357)? -/
def loadWaits (s : State) (h : Nat) : Bool := if hResident h then readWaits s else !s.msu.inited

/-- May a sealed slot change now: the log has 16 free sectors (R248), and the buffer a place (R239)? -/
def logHasRoom (s : State) : Bool := decide (16 ≤ slotLogFree s)
def bufHasPlace (s : State) : Bool := decide ((bufRecs s).length < 60)

/-- May resident sectors be started: only erased ones. -/
def resSectorOk (s : State) (x : Nat) : Bool := sectorErased s x

/-- A resident-log append that leaves at least 16 erased sectors (R238): true where it was made. -/
def appendResident (r : LogRec) (s : State) : Bool × State :=
  let l := s.ks.resLog
  let starts := !(l.valid && decide (l.off + logRecLen r ≤ 4096) && !isWorn s l.sector)
  if r.store = true ∧ resErased s < 16 + b2n starts then (false, s)
  else match appendLog (resLogArea s) l resSectorOk r s with
  | (none, t) => (false, t)
  | (some pos, t) => (true, { t with ks := { t.ks with resLog := pos } })

/-- Commit a change: its log record, then contents and directory (R238, R239). False where the resident log has no
room. -/
def commitChange (resident : Bool) (r : LogRec) (s : State) : Bool × State :=
  let seqd := fun (t : State) => { t with ks := { t.ks with seq := max t.ks.seq r.seq } }
  if resident then
    let a := appendResident r s
    if a.1 then (true, applyResident r (seqd a.2)) else a
  else (true, applySealed r (setBuf (bufRecs s ++ [r]) (seqd s)))

/-- The record of a store by gable `g` at an index, under the next sequence (R239). -/
def storeRec (s : State) (g : Nat) (resident : Bool) (index : Nat) (policy : Word) (secret pub : List Byte) : LogRec :=
  let span := spanLog2 (pAlg policy) secret.length
  let gen := nextGen (dGen (dirEntry s resident index))
  let seq := s.ks.seq + 1
  ⟨index, true, gen, g, span, seq, wrapSlot (ksrk s) g resident index gen span seq policy secret pub⟩

/-- The record of a delete. -/
def deleteRec (s : State) (g : Nat) (resident : Bool) (index : Nat) : LogRec :=
  let e := dirEntry s resident index
  ⟨index, false, dGen e, g, dSpan e, s.ks.seq + 1, []⟩

end Sys2Proof.Machine
end

