-- ==== Sys2Proof/Machine/KeyStoreCmds.lean ====
section
/-! DEFINITION. Root records, the key-store commands of R242 and the key store's power-up
(07_key_store_sealed_memory.md), with the meanings of MSU accesses and log events. -/

namespace Sys2Proof.Machine

/-! ### The root record's copies (R244) -/

/-- Write a record to copies 0, 1 and 2: each is erased, programmed and read back before the next is begun. -/
def writeRoot (b : List Byte) (s : State) : State :=
  let s := [0, 1, 2].foldl (fun t k =>
    noteSectors (keySect0 + k) 1 (fwProg ((keySect0 + k) * 4096) b (fwErase (keySect0 + k) t).2).2) s
  { s with ks := { s.ks with root := some (parseRoot b) } }

/-! ### Power-up (R246, R247) -/

/-- Where a log goes on: after the last record of the sector that holds the highest SEQ, or nowhere yet. -/
def logEnd (s : State) (area : Nat × Nat) : LogPos :=
  let best := (usedSectors s area.1 area.2).foldl (fun (b : Option (Nat × Nat)) x =>
    let m := (sectorRecs s x).foldl (fun m r => max m r.seq) 0
    match b with
    | some (_, m') => if m' < m then some (x, m) else b
    | none => some (x, m)) none
  match best with
  | some (x, _) =>
    let used := sectorEnd s x
    { sector := x, off := max 16 (roundUp 16 (8 * used)), valid := true }
  | none => {}

/-- Rebuild the resident directory from the resident log (R238). -/
def rebuildResident (s : State) : State :=
  (sortRecs (logRecs s (resLogArea s))).foldl (fun t r =>
    let e := mkDir r.gable (if r.store then 1 else 0) r.span r.gen
    { t with ks := { t.ks with resDir := SMap.set 0 t.ks.resDir r.index e } }) { s with ks := { s.ks with resDir := [] } }

/-- The last key-store sequence that the logs and the root record show (R239). -/
def lastSeq (s : State) : Nat :=
  let b := match s.ks.root with
    | some r => r.bSeq
    | none => 0
  ((logRecs s slotLogArea) ++ (logRecs s (resLogArea s))).foldl (fun m r => max m r.seq) b

/-- The state that R246 gives for a selected record. -/
def phaseFor (s : State) (r : RootRec) : KsPhase :=
  if ksrkId s = r.ksrkId ∧ hasKsrk s = true then (if r.bGen = 0 then .starting else .closed) else .noRoot

/-- STATE and STATUS at step 5 of R247. -/
def ksSelect (s : State) : State :=
  let copies := [0, 1, 2].map fun k => rootCopy s k
  match selectRoot s with
  | .one r =>
    let s := if copies.all (· == r.raw) then { s with ks := { s.ks with root := some r } } else writeRoot r.raw s
    { s with ks := { s.ks with phase := phaseFor s r, status := stOk } }
  | .divergent =>
    raise srcDivergent [2] (cause .msu 7
      { s with ks := { s.ks with phase := .isSealed, status := stDivergent, root := none }, svc := { s.svc with diverg := true } })
  | .none =>
    if copies.all copyErased ∧ hasKsrk s = false then
      { s with ks := { s.ks with phase := .empty, status := stOk, root := none } }
    else { s with ks := { s.ks with phase := .isSealed, status := stIntegrity, root := none } }

/-- The key store's flash is read at power-up (R247, R349). -/
def noteKeyArea (s : State) : State := noteSectors keySect0 s.img.latched.partition.keys s

/-- KEY_STORE_POWER_UP (R247): the buffer is programmed, the root record selected, the resident directory rebuilt, and
STATE set. The boot leaves STATE STARTING; the key store runs this once. -/
def ksPowerUp (s : State) : State :=
  if wardenUp s = true ∧ s.ks.phase = .starting ∧ s.ks.root = none ∧ s.msu.inited = true then
    let s := noteKeyArea (flushRowWords s)
    let s := { s with ks := { s.ks with slotLog := logEnd s slotLogArea, resLog := logEnd s (resLogArea s) } }
    let s := ksSelect (flushAll 60 s)
    let s := rebuildResident s
    { s with ks := { s.ks with seq := lastSeq s } }
  else s

def execKeyStorePowerUp (s : State) : Res := .next (ksPowerUp s)

/-- Replay the slot-log records above a sequence, in order (R243, R246). -/
def replayLog (above : Nat) (s : State) : State :=
  ((sortRecs (logRecs s slotLogArea)).filter fun r => decide (above < r.seq)).foldl (fun t r => replayRec r t) s

/-- LOG_REPLAY_END (R246): the replay for a record with BACKUP_GEN 0 ends, and STATE becomes OPEN. -/
def logReplayEnd (s : State) : State :=
  match s.ks.root with
  | some _ =>
    if s.ks.phase = .starting then
      let s := replayLog 0 s
      { s with ks := { s.ks with phase := .isOpen, seq := max s.ks.seq (lastSeq s) } }
    else s
  | none => s

def execLogReplayEnd (s : State) : Res := .next (logReplayEnd s)

/-! ### Commands (R241 to R243) -/

/-- A key-store command ends: STATUS and KS_DONE. -/
def ksEnd (st : Nat) (s : State) : State := cause .msu 5 { s with ks := { s.ks with status := st } }

/-- The running command ends. -/
def ksFinish (st : Nat) (s : State) : State := ksEnd st { s with ks := { s.ks with run := .none } }

/-- Length of a backup (R241). -/
abbrev backupLen : Nat := 1141047360

/-- Page `k` of the slot table (R241). -/
def backupPage (s : State) (k : Nat) : List Byte :=
  sealedBytes s (slotDir + 16384 * k) 16384 ++ sealedBytes s (slotTable + 262144 * k) 262144

/-- The backup engine reads page `k` through the MSU (R222, R242): the status. -/
def readPage (k : Nat) (s : State) : Nat × State :=
  let d := readSealed0 (engineTag 3) (slotDir + 16384 * k) 16384 s
  if d.1 ≠ stOk then (d.1, d.2.2)
  else
    let p := readSealed0 (engineTag 3) (slotTable + 262144 * k) 262144 d.2.2
    (p.1, p.2.2)

/-- The engine reads `n` pages from page `k` on; the first status that is not OK ends it. -/
def readPages : Nat → Nat → State → Nat × State
  | 0, _, s => (stOk, s)
  | n + 1, k, s =>
    let r := readPage k s
    if r.1 = stOk then readPages n (k + 1) r.2 else r

/-- The first 0x3_0040 bytes of a backup. -/
def backupHead (s : State) (gen seq : Nat) : List Byte :=
  [0x4B, 0x53, 0x4B, 0x50] ++ leBytes 2 1 ++ leBytes 2 0 ++ leBytes 8 gen ++ leBytes 8 seq ++ serialBytes s ++ ksrkId s
    ++ List.replicate 8 0 ++ (List.range 4096).flatMap fun k => sha384 (backupPage s k)

/-- Generation of the next backup (R242). -/
def nextBackupGen (s : State) : Nat :=
  let r := match s.ks.root with
    | some r => r.bGen
    | none => 0
  let p := match s.ks.pending with
    | some b => b.gen
    | none => 0
  max r p + 1

/-- A value takes effect in MSU_KS_CTL (R242); in a cascade INIT is refused (R439). With the warden stopped it ends with no
status (R297). -/
def ksCommand (v : Nat) (s : State) : State :=
  let s := { s with ks := { s.ks with ctl := v % 16 } }
  let addr := s.ks.addr.toNat
  if wardenUp s = false then s
  else if v % 16 = 0 ∨ 4 < v % 16 then ksEnd stUnsupported s
  else if s.ks.run ≠ .none ∨ retiredLc s = true then ksEnd stStateRefused s
  else if v % 16 = 1 then
    if s.ks.phase = .empty ∧ (lifecycle s = lcOwned ∨ lifecycle s = lcDev) ∧ s.eav.rootLock = false
        ∧ s.btn.role = .solo then
      { s with ks := { s.ks with run := .init } }
    else ksEnd stStateRefused s
  else if v % 16 = 2 then
    if s.ks.phase ≠ .isOpen then ksEnd stStateRefused s
    else if addr % 4096 ≠ 0 then ksEnd stRange s
    else { s with ks := { s.ks with run := .backup addr s.ks.seq } }
  else if v % 16 = 3 then
    if s.ks.phase ≠ .closed then ksEnd stStateRefused s
    else if addr % 4096 ≠ 0 then ksEnd stRange s
    else issueRead .restore 0 addr backupLen { s with
      ks := { s.ks with run := .restore addr none }
      hqi := { s.hqi with reads := s.hqi.reads ++ [.restore] } }
  else
    match s.ks.pending with
    | some b =>
      if s.ks.phase = .isOpen ∧ s.ks.arg.toNat = b.gen then { s with ks := { s.ks with run := .confirm } }
      else ksEnd stStateRefused s
    | none => ksEnd stStateRefused s

/-- INIT ends: the KSRK and root record generation 1 (R242). -/
def ksInitDone (s : State) : State :=
  let d := drawBytes 32 s
  let s := putVault 0x40 d.1 d.2
  let s := writeRoot (rootBytes s 1 [] (ksrkId s) 0 0 []) s
  ksFinish stOk { s with ks := { s.ks with phase := .isOpen }, eav := { s.eav with vaultZero := false } }

/-- BACKUP ends: header, digests and pages go to host memory, and the backup is pending (R241, R242). -/
def ksBackupDone (addr seq : Nat) (s : State) : State :=
  let r := readPages 4096 0 s
  if r.1 = stOk then
    let s := r.2
    let gen := nextBackupGen s
    let head := backupHead s gen seq
    let s' := writeHost 0 addr head s
    let s' := (List.range 4096).foldl (fun t k => writeHost 0 (addr + 0x30040 + 278528 * k) (backupPage s k) t) s'
    ksFinish stOk { s' with ks := { s'.ks with pending := some ⟨gen, seq, sha384 head⟩ } }
  else ksFinish r.1 r.2

/-- Does the log hold every record from `b` + 1 on without a gap (R243, check 6)? The sequence counts resident changes
too, so a number that a resident record carries is none (DEDUCED, log 701). -/
def logWhole (s : State) (b : Nat) : Bool :=
  let sl := (logRecs s slotLogArea).map (·.seq)
  let rs := (logRecs s (resLogArea s)).map (·.seq)
  let top := sl.foldl max b
  (List.range (top - b)).all fun i => sl.contains (b + 1 + i) || rs.contains (b + 1 + i)

/-- Status of the first check of R243 that fails for a backup's bytes. -/
def restoreChecks (s : State) (b : List Byte) : Nat :=
  let dig := sha384 (b.take 0x30040)
  let r := s.ks.root.getD ⟨0, [], [], 0, 0, [], []⟩
  firstFail
    [(b.take 8 == [0x4B, 0x53, 0x4B, 0x50, 1, 0, 0, 0] && allZero (slice b 0x38 8), stUnsupported),
     (slice b 0x28 16 == ksrkId s, stInvalidKey),
     (leAt b 8 8 == r.bGen || s.ks.approved == some dig, stStateRefused),
     (dig == r.bDigest || s.ks.approved == some dig, stIntegrity),
     ((List.range 4096).all fun k => slice b (0x40 + 48 * k) 48 == sha384 (slice b (0x30040 + 278528 * k) 278528), stIntegrity),
     (logWhole s (leAt b 0x10 8), stIntegrity)]

/-- RESTORE ends (R97, R243). -/
def ksRestoreDone (res : HostData) (s : State) : State :=
  match res with
  | .poison => ksFinish stIntegrity s
  | .ecrc => ksFinish stIntegrity s
  | .ur => ksFinish stAborted s
  | .ca => ksFinish stAborted s
  | .ok b =>
    match restoreChecks s b with
    | 0 =>
      let s := (List.range 4096).foldl (fun t k =>
        (msuWrite (slotTable + 262144 * k) (slice b (0x30040 + 278528 * k + 16384) 262144) true true
          (msuWrite (slotDir + 16384 * k) (slice b (0x30040 + 278528 * k) 16384) true true t).2).2) s
      let s := replayLog (leAt b 0x10 8) s
      ksFinish stOk { s with ks := { s.ks with phase := .isOpen, approved := none, seq := max s.ks.seq (max (lastSeq s) (leAt b 0x10 8)) } }
    | st => ksFinish st s

/-- CONFIRM ends: a new root record names the pending backup (R242). -/
def ksConfirmDone (s : State) : State :=
  match s.ks.root, s.ks.pending with
  | some r, some b =>
    let s := writeRoot (rootBytes s (r.gen + 1) (rootDigest r) r.ksrkId b.gen b.seq b.digest) s
    ksFinish stOk { s with ks := { s.ks with pending := none } }
  | _, _ => ksFinish stStateRefused s

/-- KS_DONE: the running key-store command ends. A RESTORE ends once its data has come. Without the warden it ends with
no status (R297). -/
def ksDoneEffect (s : State) : State :=
  if wardenUp s = false then s
  else match s.ks.run with
  | .none => s
  | .init => ksInitDone s
  | .backup a q => ksBackupDone a q s
  | .restore _ none => s
  | .restore _ (some d) => ksRestoreDone d s
  | .confirm => ksConfirmDone s

def execKsDone (s : State) : Res := .next (ksDoneEffect s)

/-- A reset of the physical function or the endpoint, or a link down, ends BACKUP and RESTORE (R97). -/
def ksHostAbort (s : State) : State :=
  match s.ks.run with
  | .backup _ _ => ksFinish stAborted s
  | .restore _ _ => ksFinish stAborted (dropRead .restore false s)
  | _ => s

/-! ### Log events -/

/-- SLOT_LOG_RECORD_VERIFIED (R239): the oldest buffered record is programmed and its place freed. -/
def execSlotLogRecordVerified (s : State) : Res := .next (if wardenUp s then flushOne s else s)

/-- Is a resident record live: the latest of its index (R238)? -/
def residentLive (s : State) (r : LogRec) : Bool := residentRec s r.index == some r

/-- The oldest non-erased resident-log sector: the first after the one being filled. -/
def oldestResident (s : State) : Option Nat :=
  nextSector (resLogArea s) (if s.ks.resLog.valid then s.ks.resLog.sector else (resLogArea s).1) fun x =>
    !sectorErased s x && !(s.ks.resLog.valid && s.ks.resLog.sector == x)

/-- Copy records forward: false where one found no place. -/
def copyForward : List LogRec → State → Bool × State
  | [], s => (true, s)
  | r :: rs, s => match appendLog (resLogArea s) s.ks.resLog resSectorOk r s with
    | (some pos, t) => copyForward rs { t with ks := { t.ks with resLog := pos } }
    | (none, t) => (false, t)

/-- RESIDENT_LOG_RECLAIM (R238): the live records of the oldest sector are copied forward, and it is erased. -/
def residentReclaim (s : State) : State :=
  if wardenUp s = false then s
  else match oldestResident s with
  | none => s
  | some x =>
    let c := copyForward ((sectorRecs s x).filter fun r => residentLive s r) s
    if c.1 then
      let t := (fwErase x c.2).2
      { t with flash := { t.flash with logUses := SMap.set 0 t.flash.logUses x (sectorUses s x) } }
    else c.2

def execResidentLogReclaim (s : State) : Res := .next (residentReclaim s)

/-! ### MSU accesses (R222 to R230) -/

/-- An access of the MSU's own clients, which waits before INIT_DONE (R225). -/
def msuClient (a : MsuAccess) (s : State) : State :=
  if powered s = false ∨ 0xE0000000 < a.off + a.len then s
  else if s.msu.inited then msuAccess a s
  else { s with msu := { s.msu with waiting := s.msu.waiting ++ [a] } }

/-- MSU_READ: its lines verify as the outcomes say. -/
def execMsuRead (off len : Nat) (first second : Bool) (s : State) : Res :=
  .next (msuClient ⟨off, len, none, first, second⟩ s)

/-- MSU_WRITE. -/
def execMsuWrite (off : Nat) (data : List Byte) (first second : Bool) (s : State) : Res :=
  .next (msuClient ⟨off, data.length, some data, first, second⟩ s)

/-- MSU_INIT_DONE (R226): every line holds enciphered zeros and has been read back; `lines` are the data lines that failed at
first, each with the outcome of its second reading. -/
def msuInitDone (lines : List (Nat × Bool)) (s : State) : State :=
  if powered s = true ∧ s.msu.inited = false then msuInitialise lines s else s

def execMsuInitDone (lines : List (Nat × Bool)) (s : State) : Res := .next (msuInitDone lines s)

end Sys2Proof.Machine
end

