-- ==== Sys2Proof/Machine/Lifetime.lean ====
section
/-! DEFINITION. The lifetime record (16_system_control.md, R460 to R463, R471 to R474): the keys derived from the
identity seed, the rollback floor, snapshots and their place in flash. -/

namespace Sys2Proof.Machine

/-! ### Identity (R463) -/

/-- The identity seed; all ones while unprogrammed. -/
def seedBytes (s : State) : List Byte := s.ret.seed.getD (List.replicate 32 0xFF)

/-- The lifetime key. -/
def lifeKey (s : State) : List Byte := kdf108 (seedBytes s) (ascii "LA-LIFE") [] 32

/-- The device identity key: a brainpoolP384r1 scalar. -/
def identityScalar (s : State) : Nat := beNat (kdf108 (seedBytes s) (ascii "LA-DIDK") [] 64) % (bp384.n - 1) + 1

/-- A signature with the device identity key, r then s big-endian, through a Galliard sequencer's DRBG (R463); none
where it has no output. -/
def identitySign (h : List Byte) (s : State) : Option (List Byte) × State :=
  match drbgDraw 32 56 false s with
  | (some b, s) => ((ecdsaWith bp384 (identityScalar s) h (nonceOf bp384 b)).map fun q => beBytes 48 q.1 ++ beBytes 48 q.2, s)
  | (none, s) => (none, s)

/-- OWNER_DIGEST (R390): 48 bytes, byte 0 first. -/
def ownerDigest (s : State) : List Byte := leBytes 48 (fuseFld s 160 384)

/-- ROLLBACK (R460): one more than the number of the highest blown fuse among 607:544, counted from 544. -/
def rollback (s : State) : Nat :=
  (List.range 64).foldl (fun m i => if fuseFld s (544 + i) 1 = 1 then i + 1 else m) 0

/-! ### Snapshots (R472) -/

/-- Little-endian counts of `w` bytes, from keys 0 to `n` − 1, stopping at their largest value. -/
def countBytes (w n : Nat) (m : SMap Nat) : List Byte :=
  (List.range n).flatMap fun i => leBytes w (min (2 ^ (8 * w) - 1) (SMap.get 0 m i))

/-- Physical truss of a logical truss; 0x3F when vacant (R462). -/
def physOf (s : State) (t : Nat) : Nat := SMap.get 0x3F s.sys.map.phys t

/-- SPARE_LEFT: unused spares. -/
def spareLeft (s : State) : Nat := s.sys.map.spares.length

/-- The live snapshot without its TAG: 464 bytes, with sequence number `seq`. -/
def snapBody (s : State) (seq : Nat) : List Byte :=
  let c := s.tel.counts
  let n4 := fun (v : Nat) => leBytes 4 (min 0xFFFFFFFF v)
  leBytes 4 0x4546494C ++ leBytes 2 1 ++ [0, 0] ++ leBytes 8 seq ++ n4 c.onMin ++ n4 c.powerUps ++ n4 c.vaultIn ++ n4 c.colds
    ++ countBytes 4 14 c.tempHist ++ leBytes 8 c.eq85 ++ countBytes 4 8 c.vcore ++ countBytes 4 18 c.flWarn
    ++ countBytes 4 4 c.flRetire ++ countBytes 4 3 c.rowSpare ++ n4 c.quar ++ countBytes 4 22 c.evSrc
    ++ n4 c.ctrjPool ++ n4 c.ctrjLog ++ n4 c.drbg ++ n4 c.entropy ++ n4 c.watchdog
    ++ leBytes 2 s.sys.svn ++ leBytes 2 (rollback s) ++ leBytes 8 c.imgGen ++ padTo 48 c.imgDig ++ leBytes 2 c.galFloor
    ++ [BitVec.ofNat 8 (spareLeft s), 0] ++ (List.range 32).map (fun t => BitVec.ofNat 8 (physOf s t))
    ++ [BitVec.ofNat 8 (s.sys.map.spares.getD 0 0x3F), BitVec.ofNat 8 (s.sys.map.spares.getD 1 0x3F), 0, 0]
    ++ leBytes 8 s.sys.map.retired ++ List.replicate 16 0

/-- A snapshot with its TAG. -/
def snapBytes (s : State) (seq : Nat) : List Byte :=
  let b := snapBody s seq
  b ++ hmac 1 (lifeKey s) b

/-- Flash address of snapshot position `p` of 1,024 (R471). -/
def snapAddr (s : State) (p : Nat) : Nat := (lifeSect0 s + 8) * 4096 + 512 * (p % 1024)

/-- Write a snapshot at the next position; one that fails to program sets SNAPSHOT_FAIL and is written at the next position.
The first one in a sector erases the sector that follows, so that it stands erased in advance (R474). `outs` says how the lines
of the first try go. -/
def putSnapshotF : Nat → List FlashOutcome → State → State
  | 0, _, s => s
  | f + 1, outs, s =>
    let p := s.tel.snapPos
    let r := fwProgAs outs (snapAddr s p) (snapBytes s (s.tel.snapSeq + 1)) s
    let s := if p % 8 = 0 then (fwErase (lifeSect0 s + 8 + (p / 8 + 1) % 128) r.2).2 else r.2
    let s := { s with tel := { s.tel with snapPos := (p + 1) % 1024 } }
    if r.1 then { s with tel := { s.tel with snapSeq := s.tel.snapSeq + 1 } } else putSnapshotF f [] (cause .tel 0 s)

/-- Write a snapshot (R474). -/
def putSnapshot (s : State) : State := putSnapshotF 1024 [] s

/-- Counts read back from `n` fields of `w` bytes. -/
def readCounts (b : List Byte) (off w n : Nat) : SMap Nat :=
  (List.range n).foldl (fun m i => SMap.set 0 m i (leAt b (off + w * i) w)) []

/-- The counts that a snapshot holds. -/
def snapCounts (b : List Byte) : SnapCounts :=
  { onMin := leAt b 0x10 4, powerUps := leAt b 0x14 4, vaultIn := leAt b 0x18 4, colds := leAt b 0x1C 4,
    tempHist := readCounts b 0x20 4 14, eq85 := leAt b 0x58 8, vcore := readCounts b 0x60 4 8,
    flWarn := readCounts b 0x80 4 18, flRetire := readCounts b 0xC8 4 4, rowSpare := readCounts b 0xD8 4 3,
    quar := leAt b 0xE4 4, evSrc := readCounts b 0xE8 4 22, ctrjPool := leAt b 0x140 4, ctrjLog := leAt b 0x144 4,
    drbg := leAt b 0x148 4, entropy := leAt b 0x14C 4, watchdog := leAt b 0x150 4, galFloor := leAt b 0x190 2,
    imgGen := leAt b 0x158 8, imgDig := slice b 0x160 48 }

/-- The truss map that a snapshot holds (R462, R472). -/
def snapMap (b : List Byte) : TrussMap :=
  { mapped := true
    phys := (List.range 32).foldl (fun m t => SMap.set 0x3F m t (leAt b (0x194 + t) 1)) []
    spares := [leAt b 0x1B4 1, leAt b 0x1B5 1].filter fun x => decide (x ≠ 0x3F)
    retired := leAt b 0x1B8 8
    spared := 0 }

/-- Snapshot positions whose bytes begin with MAGIC. -/
def snapPlaces (s : State) : List Nat :=
  (List.range 1024).filter fun p => flashBytes s (snapAddr s p) 4 == leBytes 4 0x4546494C

/-- Is the snapshot at position `p` authentic: its TAG verifies, and every word reads (R459, R474)? -/
def snapAuthentic (s : State) (p : Nat) : Bool :=
  let b := flashBytes s (snapAddr s p) 512
  flashReads s (snapAddr s p) 512 && hmac 1 (lifeKey s) (b.take 464) == b.drop 464

/-- The current snapshot: the authentic one with the highest SNAP_SEQ (R474), with its position. -/
def currentSnapshot (s : State) : Option (Nat × List Byte) :=
  ((snapPlaces s).filter fun p => snapAuthentic s p).foldl (fun (m : Option (Nat × List Byte)) p =>
    let b := flashBytes s (snapAddr s p) 512
    match m with
    | some (_, c) => if leAt c 8 8 < leAt b 8 8 then some (p, b) else m
    | none => some (p, b)) none

/-- At power-up the counts, the truss map and the snapshot position come from the current snapshot (R462, R474). -/
def loadSnapshot (s : State) : State :=
  let s := noteSectors (lifeSect0 s + 8) 128 s
  match currentSnapshot s with
  | some (p, b) => { s with
      tel := { s.tel with
        counts := snapCounts b
        snapSeq := leAt b 8 8
        snapPos := (p + 1) % 1024 }
      sys := { s.sys with map := snapMap b } }
  | none => { s with
      tel := { s.tel with
        counts := {}
        snapSeq := 0
        snapPos := 0 }
      sys := { s.sys with map := {} } }

/-- Count something in the live snapshot. -/
def countLife (f : SnapCounts → SnapCounts) (s : State) : State := { s with tel := { s.tel with counts := f s.tel.counts } }

end Sys2Proof.Machine
end

