-- ==== Sys2Proof/Machine/Trusses.lean ====
section
/-! DEFINITION. Whole trusses (R61, R63, R256, R295, R296): release, stop, scrub and quarantine, and ending commands
in flight. -/

namespace Sys2Proof.Machine

/-! ### Ending commands in flight (R29) -/

/-- End a command that has not finished, from outside: its entry packet or its place before the commit goes, what the
engines hold of it is cleared (R29), its host read is no longer awaited, and its completion follows. -/
def abortCmd (r : CmdRef) (status : Nat) (s : State) : State :=
  match findCmd s r with
  | some c =>
    if c.finished then s
    else
      let k := ctxNum r.fn r.ring
      let waits := (ringOf s k).granted.filter fun x => x.1 == r.pos
      let s := if offRing r then s else subCells r.fn (2 * waits.length)
        (setRing k { ringOf s k with granted := (ringOf s k).granted.filter fun x => x.1 != r.pos } s)
      endCmd r status 0 [] (dropRead (.cmd r) false (takeEntryPacket r s))
  | none => s

/-- End every unfinished command for which `f` holds. -/
def abortCmds (f : Cmd → Bool) (status : Nat) (s : State) : State :=
  ((s.hqi.cmds.filter fun c => !c.finished && f c).map (·.ref)).foldl (fun t r => abortCmd r status t) s

/-! ### Release, stop, scrub -/

/-- A core's registers as a release leaves them (R252, R256); the program counter at release is the model's choice. -/
def releasedCore (c : Core) (precise : Bool) : Core :=
  { c with
    st := if precise then 0x800 else 0
    fxctl := 4
    xpc := 0
    xst := 0
    idx := 0
    cnt := 0
    pc := 0
    clock := 0
    phase := .running
    intWma := false
    intTick := false
    imprec := none }

/-- Release truss `t` to the gable that owns it, at Monitor level (R60, R172, R205, R256). -/
def releaseTruss (t : Nat) (s : State) : State :=
  let g := ownerOf s t
  let cores := (List.range (coresPer s g)).map (4 * t + ·)
  let s := cores.foldl (fun u n => u.updCore n fun c => releasedCore c (isPavane u g)) s
  combIfQuickstep t (drbgInstantiate t s).2

/-- The cores of truss `t` stop. -/
def stopTruss (t : Nat) (s : State) : State :=
  (coresOfTruss t).foldl (fun u n => dropWaiter n (u.updCore n fun c => { c with phase := .stopped })) s

/-- The scrub of a truss (R63, R256): SRAM, local data, instruction caches, registers, bit spaces, SHA-2 state and WMA
operand memory are cleared, its cores' chains are closed (R196), its WMA unit is aborted (R179), and the DRBG is reseeded.
It ends a quarantine (R296). -/
def scrubTruss (t : Nat) (s : State) : State :=
  let mine := fun (n : Nat) => n != wardenNum && trussOf n == t
  let s := (coresOfTruss t).foldl (fun u n => dropWaiter n (u.setCore n { fxctl := 0 })) s
  let s := abortSym mine (unitAbort t (s.updTruss t fun _ => {}))
  let s := setWma t { wmaOf s t with
    mem := []
    tags := [] } s
  let s := { s with
    sys := { s.sys with
      quar := s.sys.quar &&& ~~~(BitVec.ofNat 32 (2 ^ t))
      forge := s.sys.forge &&& ~~~(BitVec.ofNat 32 (2 ^ t)) } }
  (drbgReseed t s).2

/-! ### The dispatch core (R61, R296) -/

/-- The dispatch core of a gable: truss × 4 + core. -/
def dispatchOf (s : State) (g : Nat) : Nat := SMap.get 0 s.img.dispatch g

/-- Where the dispatch core's truss no longer serves, the core with the same index in the lowest-numbered remaining
truss takes over (R61, R296). -/
def moveDispatch (g : Nat) (s : State) : State :=
  let d := dispatchOf s g
  match liveTrusses s g with
  | t :: ts => if (t :: ts).contains (d / 4) then s
    else { s with img := { s.img with dispatch := SMap.set 0 s.img.dispatch g (4 * t + d % 4) } }
  | [] => s

/-! ### Quarantine (R295, R296) -/

/-- Steps 4 and 5 of R295: the truss's WMA unit, chains and compressor contexts are cleared, its commands end with
ABORTED, and the report's PRIV_FORGE bit is set. -/
def forgeClears (t : Nat) (s : State) : State :=
  let mine := fun (n : Nat) => n != wardenNum && trussOf n == t
  let s := abortSym mine (unitAbort t s)
  let s := abortCmds (fun c => c.truss == some t) stAborted s
  { s with sys := { s.sys with forge := setBit s.sys.forge t } }

/-- The truss is quarantined (R295 step 6, R296, R319): it executes nothing, its fabric contexts are discarded, and
dispatch passes it by. -/
def quarantineTruss (t : Nat) (s : State) : State :=
  let s := discardTruss t (stopTruss t s)
  let s := cause .sys 5 { s with
    sys := { s.sys with quar := setBit s.sys.quar t }
    tel := { s.tel with counts := { s.tel.counts with quar := satInc 0xFFFFFFFF s.tel.counts.quar } } }
  moveDispatch (ownerOf s t) s

end Sys2Proof.Machine
end

