-- ==== Sys2Proof/Machine/Batten.lean ====
section
/-! DEFINITION. The cascade (15_batten_cascade.md): ports that come up and go down, the cascade table, roles and
succession, key-store replication, counter leases, and forwarded commands. -/

namespace Sys2Proof.Machine

/-- Port 0 or 1 has come up (causes 0 and 2) or gone down (1 and 3). -/
def portCause (n : Nat) (up : Bool) (s : State) : State := cause .btn (2 * n + (if up then 0 else 1)) s

/-! ### The cascade table (R434) -/

/-- SUCC of a table that names no successor. -/
abbrev noSucc : Nat := 0xFF

/-- Bytes 0x000 to 0x12F of a table. -/
def tableBody (t : CascadeTable) : List Byte :=
  [0x42, 0x54, 0x4E, 0x43] ++ leBytes 2 1 ++ [BitVec.ofNat 8 t.n, BitVec.ofNat 8 t.ridge] ++ leBytes 8 t.epoch.toNat
    ++ [BitVec.ofNat 8 t.succ, BitVec.ofNat 8 t.leaseLog2, 0, 0] ++ leBytes 4 t.hold ++ leBytes 8 t.fwdMask.toNat
    ++ leBytes 16 t.ksrkId.toNat ++ padTo 256 (t.members.flatMap fun m => leBytes 16 m.toNat)

/-- A table's copy under this module's root-record key. -/
def tableBytes (s : State) (t : CascadeTable) : List Byte :=
  tableBody t ++ hmac 1 (rootRecordKey s) (tableBody t)

/-- Write both copies of the table into lifetime-area sectors 0 and 1 (R434, R471). -/
def writeTable (s : State) : State :=
  match s.btn.table with
  | some t =>
    let b := tableBytes s t
    [0, 1].foldl (fun u k => (fwProg ((lifeSect0 u + k) * 4096) b (fwErase (lifeSect0 u + k) u).2).2) s
  | none => [0, 1].foldl (fun u k => (fwErase (lifeSect0 u + k) u).2) s

/-- A table's fields from its bytes. -/
def parseTable (b : List Byte) : CascadeTable where
  n := leAt b 6 1
  ridge := leAt b 7 1
  epoch := BitVec.ofNat 64 (leAt b 8 8)
  succ := leAt b 0x10 1
  leaseLog2 := leAt b 0x11 1
  hold := leAt b 0x14 4
  fwdMask := BitVec.ofNat 64 (leAt b 0x18 8)
  ksrkId := BitVec.ofNat 128 (leAt b 0x20 16)
  members := (List.range 16).map fun m => BitVec.ofNat 128 (leAt b (0x30 + 16 * m) 16)

/-- The table that the copies hold: the authentic one, of two the one with the higher EPOCH. -/
def storedTable (s : State) : Option CascadeTable :=
  let ok := [0, 1].filterMap fun k =>
    let b := flashBytes s ((lifeSect0 s + k) * 4096) 0x160
    if flashReads s ((lifeSect0 s + k) * 4096) 0x160 = true ∧ b.take 4 = [0x42, 0x54, 0x4E, 0x43] ∧ slice b 0x130 48 = hmac 1 (rootRecordKey s) (b.take 0x130) then
      some (parseTable b) else none
  match ok with
  | [x, y] => some (if x.epoch.toNat < y.epoch.toNat then y else x)
  | x :: _ => some x
  | [] => none

/-- This module's number in a table. -/
def memberIn (s : State) (t : CascadeTable) : Option Nat :=
  (List.range t.n).find? fun m => t.members[m]? == some (BitVec.ofNat 128 (serialOf s))

/-! ### Range conflicts (R436) -/

/-- The ranges of a gable that the cascade compares. -/
def rangesOf (s : State) (g : Nat) : RangeRec :=
  let c := gableCfg s g
  ⟨c.keyBase, c.keyCount, c.ctrBase, c.ctrCount, c.resBase, c.resCount⟩

/-- Do the ranges of two gables share a number? -/
def rangesMeet (a b : RangeRec) : Bool :=
  overlaps a.keyBase a.keyCount b.keyBase b.keyCount || overlaps a.ctrBase a.ctrCount b.ctrBase b.ctrCount
    || overlaps a.resBase a.resCount b.resBase b.resCount

/-- Does gable `g` break R436 against the record that this member holds? -/
def rangeConflict (s : State) (g : Nat) : Bool :=
  s.btn.table.isSome && s.btn.ranges.any fun e => match e.2 with
    | some r => if e.1 = g then decide (r ≠ rangesOf s g) else rangesMeet r (rangesOf s g)
    | none => false

/-- Set or clear a suspension reason of a gable (R115): 0 HOST, 1 KEYSTORE, 2 RANGE. -/
def setReason (g bit : Nat) (on : Bool) (s : State) : State :=
  let r := SMap.get 0 s.svc.reasons g
  let v := if bitOf r bit = on then r else if on then r + 2 ^ bit else r - 2 ^ bit
  { s with svc := { s.svc with reasons := SMap.set 0 s.svc.reasons g v } }

/-- Does gable `g` conflict with the ridge's record (R436)? The ridge judges a gable that its own record holds. What
other members formed first, and what the ridge's record holds, no command brings here: there the verdict is free
(DESIGN CHOICE, log 413). -/
def judgeRanges (g : Nat) (s : State) : Bool × State :=
  if s.btn.table.isNone then (false, s)
  else if s.btn.role = .ridge ∧ (rangeConflict s g = true ∨ (SMap.get none s.btn.ranges g).isSome) then (rangeConflict s g, s)
  else
    let d := drawBelow 2 1 s
    (decide (d.1 = 1), d.2)

/-- Compare every formed gable with the record (R436): a conflict sets RANGE and RANGE_CONFLICT, and a gable without a
record enters it as first formed. -/
def checkRanges (s : State) : State :=
  (formedGables s).foldl (fun t g =>
    let v := judgeRanges g t
    let t := v.2
    if v.1 then
      let t' := setReason g 2 true t
      if bitOf (SMap.get 0 t.svc.reasons g) 2 then t' else cause .btn 10 t'
    else
      let t := setReason g 2 false t
      if t.btn.table.isSome ∧ (SMap.get none t.btn.ranges g).isNone then
        { t with btn := { t.btn with ranges := SMap.set none t.btn.ranges g (some (rangesOf t g)) } }
      else t) s

/-! ### Reachability (R435) -/

/-- Set BTN_REACH; a member that goes sets PEER_LOST. A route to the ridge that returns ends an election of the successor
(R443). -/
def setReach (w : Word) (s : State) : State :=
  let lost := s.btn.reach &&& ~~~w
  let back := match s.btn.table with
    | some t => s.btn.role != .ridge && bitOf w.toNat t.ridge
    | none => false
  let s := { s with btn := { s.btn with
    reach := w
    electing := s.btn.electing && !back } }
  if lost = 0 then s else cause .btn 5 s

/-- Members that port `n` with peer `p` leads to along the chain. -/
def beyond (s : State) (n p : Nat) : List Nat :=
  (List.range (memberCount s)).filter fun m => if n = 0 then decide (p ≤ m) else decide (m ≤ p)

/-- A port that carries flits to a member shows it and those beyond it reachable. -/
def reachUp (n p : Nat) (s : State) : State :=
  setReach ((beyond s n p ++ [s.btn.member]).foldl setBit s.btn.reach) s

/-- A member has been heard from over a port that is up. -/
def heardFrom (m : Nat) (s : State) : State :=
  if m < memberCount s ∧ ((btnPort s 0).phase = .up ∨ (btnPort s 1).phase = .up) then
    setReach (setBit s.btn.reach m) s else s

/-- After port `n` went down: without another port up only this member is reachable, otherwise the direct peer of that
port is no longer known to be. -/
def reachDown (n : Nat) (peer : Option Nat) (s : State) : State :=
  let self : Word := if s.btn.table.isSome then BitVec.ofNat 32 (2 ^ s.btn.member) else 0
  if (btnPort s (1 - n)).phase = .up then
    match peer with
    | some p => if (btnPort s (1 - n)).peer = some p then s else setReach (s.btn.reach &&& ~~~(BitVec.ofNat 32 (2 ^ p))) s
    | none => s
  else setReach (s.btn.reach &&& self) s

/-! ### Solo (R437, R438) -/

/-- The KSRK goes (R437, R438). -/
def zeroiseKsrk (s : State) : State := putVault 0x40 (List.replicate 32 0) s

/-- The module leaves every cascade. -/
def becomeSolo (s : State) : State :=
  let s := writeTable { s with btn := { s.btn with
    table := none
    member := 0
    role := .solo
    candidate := false
    reach := 0
    holdOut := false
    leases := []
    ranges := []
    ridgeV := []
    electing := false
    votes := [] } }
  cause .btn 4 (checkRanges s)

/-- A JOIN that ends before its table comes leaves the joiner solo without a KSRK (R438). -/
def abandonJoin (s : State) : State :=
  if s.btn.candidate then
    zeroiseKsrk { s with
      btn := { s.btn with candidate := false }
      ks := { s.ks with phase := .empty } }
  else s

/-! ### Ports (R431 to R433) -/

/-- A port goes down: routes are computed again, and what it carried is lost. -/
def portDown (n : Nat) (s : State) : State :=
  let p := btnPort s n
  let was := carries p
  let s := setBtnPort n { replays := p.replays, tagFail := p.tagFail, needGap := p.needGap } s
  let s := if p.phase = .candidate then abandonJoin s else s
  if was then portCause n false (reachDown n p.peer s) else s

/-- May ports come up (R429)? -/
def portsServe (s : State) : Bool := s.sys.power == .active || s.sys.power == .idle

/-- The lanes in use after deskew (R432): all four, lanes 0 and 1, or none. -/
def lanesUsed (lanes : Nat) : Nat := if lanes = 0xF then 0xF else if lanes % 4 = 3 then 3 else 0

/-- The HELLO that this module sends (R432): certificates, ephemeral key, owner digest, KSRK_ID, EPOCH and member, and
their signature. The order of these bytes is the model's own. -/
def helloBody (s : State) (d : Nat) : List Byte :=
  let e := match s.btn.table with
    | some t => t.epoch.toNat
    | none => 0
  s.sys.cert ++ publicOf bp384 d ++ ownerDigest s ++ ksrkId s ++ leBytes 8 e ++ [BitVec.ofNat 8 s.btn.member]

/-- PORT_TRAIN (R432): steps 1 to 3 and the HELLO that this end sends. -/
def portTrain (n : Nat) (lanes : BitVec 4) (s : State) : State :=
  let p := btnPort s n
  let use := lanesUsed lanes.toNat
  if portsServe s = false ∨ wardenUp s = false ∨ p.phase ≠ .down ∨ p.needGap = true then s
  else if use = 0 then s
  else match drbgDraw 36 56 false s with
    | (none, s) => s
    | (some b, s) =>
      let d := nonceOf bp384 b
      let body := helloBody s d
      match identitySign (sha384 body) s with
      | (none, s) => s
      | (some sig, s) =>
        emit (.hello n (body ++ sig)) (setBtnPort n { p with
          phase := .handshake
          lanes := use
          ephem := d } s)

def execPortTrain (n : Fin 2) (lanes : BitVec 4) (s : State) : Res := .next (portTrain n.val lanes s)

/-- Step 5's checks that both UP and CANDIDATE need (R433). -/
def helloCommon (s : State) (h : Hello) : Bool :=
  h.chainOk && h.sigOk && ((lifecycle s == lcOwned && h.lcOwned) || (lifecycle s == lcDev && h.lcDev))
    && h.ownerDigest == ownerDigest s

/-- Is the peer's serial in this module's table? -/
def inOurTable (s : State) (h : Hello) : Bool := match s.btn.table with
  | some t => (t.members.take t.n).contains h.serial
  | none => false

/-- Is this module a solo one that may join (R384, R433)? -/
def mayJoin (s : State) : Bool :=
  s.btn.table.isNone && (s.ks.phase == .empty || s.ks.phase == .noRoot) && !s.eav.rootLock

/-- A member that meets a higher EPOCH (R433, R443): a ridge becomes a rafter and keeps no ridge-owned state. -/
def meetEpoch (e : Nat) (s : State) : State :=
  match s.btn.table with
  | some t =>
    if t.epoch.toNat < e ∧ s.btn.role = .ridge then
      cause .btn 4 { s with btn := { s.btn with
        role := .rafter
        ridgeV := []
        electing := false } }
    else s
  | none => s

/-- Kinds of the model's control packets: a table, a vote request, a vote, a change, a request for missing records, a
lease request, a lease, a load report, an event, a join. -/
abbrev ctlTable : Nat := 1
abbrev ctlAskVote : Nat := 2
abbrev ctlVote : Nat := 3
abbrev ctlChange : Nat := 4
abbrev ctlMissing : Nat := 5
abbrev ctlAskLease : Nat := 6
abbrev ctlLoad : Nat := 8
abbrev ctlEvent : Nat := 9
abbrev ctlJoin : Nat := 10
abbrev ctlLeave : Nat := 11

/-- A member whose HELLO shows a lower EPOCH than this one's is sent this table (R433). -/
def tellTable (h : Hello) (s : State) : State :=
  match s.btn.table with
  | some t => if h.epoch.toNat < t.epoch.toNat then sendControl h.member ctlTable (tableBody t) s else s
  | none => s

/-- The session keys of the two directions (R432): the 64 bytes of the KDF, the first half from the lower serial. -/
def sessionKeys (s : State) (p : Port) (h : Hello) : List Byte × List Byte :=
  let x := match ecMul bp384 p.ephem (some (beNat ((leBytes 96 h.ephemeral.toNat).take 48),
      beNat ((leBytes 96 h.ephemeral.toNat).drop 48))) with
    | some q => q.1
    | none => 0
  let k := kdfHmac (beBytes 48 x) (ascii "LA-BTSK") [] 64
  if serialOf s < h.serial.toNat then (k.take 32, k.drop 32) else (k.drop 32, k.take 32)

/-- HELLO (R432 steps 4 and 5, R433, R443). -/
def helloEffect (n : Nat) (h : Hello) (s : State) : State :=
  let p := btnPort s n
  if p.phase ≠ .handshake ∨ portsServe s = false then s
  else
    let keys := sessionKeys s p h
    let open_ := { p with
      peerSer := h.serial.toNat
      txKey := keys.1
      rxKey := keys.2
      ephem := 0
      replays := 0
      tagFail := 0 }
    let member := inOurTable s h && h.inTheirTable
    let idOk := leBytes 16 h.ksrkId.toNat == ksrkId s
    if helloCommon s h && idOk && member then
      let s := setBtnPort n { open_ with
        phase := .up
        peer := some h.member } s
      tellTable h (meetEpoch h.epoch.toNat (portCause n true (reachUp n h.member s)))
    else if helloCommon s h && !member && ((mayJoin s && !h.soloEmpty) || (h.soloEmpty && s.btn.table.isSome)) then
      portCause n true (setBtnPort n { open_ with phase := .candidate } s)
    else
      let s := setBtnPort n { replays := p.replays, tagFail := p.tagFail, phase := .refused, needGap := true } s
      if h.chainOk && h.sigOk then s else cause .btn 7 s

def execHello (n : Fin 2) (h : Hello) (s : State) : Res := .next (helloEffect n.val h s)

/-- SIDEBAND_ABSENCE (R432): the port is down, and a refused one may train again. -/
def sidebandAbsence (n : Nat) (s : State) : State :=
  if portsServe s then
    let s := portDown n s
    setBtnPort n { btnPort s n with needGap := false } s
  else s

def execSidebandAbsence (n : Fin 2) (s : State) : Res := .next (sidebandAbsence n.val s)

/-- Send the flits after FSEQ `last` again from the replay buffer (R431). -/
def replayFrom (n last : Nat) (s : State) : State :=
  let p := btnPort s n
  let rest := p.replay.filter fun x => (x.1 + 65536 - last) % 65536 ≠ 0 ∧ (x.1 + 65536 - last) % 65536 ≤ 64
  rest.foldl (fun t x => putFlit n x.2.1 x.1 x.2.2 t)
    (setBtnPort n { p with replays := satInc 0xFFFF p.replays } s)

/-- A tag failure (R431): counted, and 16 of them within 1 ms take the port down. -/
def tagFailure (n : Nat) (s : State) : State :=
  let p := btnPort s n
  let times := (s.eav.aon :: p.tagTimes).take 16
  let s := setBtnPort n { p with
    tagFail := satInc 0xFFFF p.tagFail
    tagTimes := times } s
  if times.length = 16 ∧ s.eav.aon ≤ times.getLastD 0 + 32 then cause .btn 7 (portDown n s) else s

/-- FLIT_RECEIVED (R430, R431). Packets that the payload carries arrive as commands of their own. -/
def flitReceived (n : Nat) (f : Flit) (s : State) : State :=
  let p := btnPort s n
  if carries p = false then s
  else
    let good := f.tagOk && f.fseq.toNat == (p.rxSeq + 1) % 65536
    if good = false then
      let s := if f.tagOk then s else tagFailure n s
      if carries (btnPort s n) then sendFlit n 3 (leBytes 2 p.rxSeq) s else s
    else
      let s := setBtnPort n { p with
        rxSeq := f.fseq.toNat
        rxCtr := p.rxCtr + 1
        credits := min 64 (p.credits + f.credits.toNat)
        freed := if f.kind = 1 then p.freed + 1 else p.freed
        replay := p.replay.filter fun x => decide (32768 ≤ (f.ack.toNat + 65536 - x.1) % 65536) } s
      let s := if f.kind = 3 then replayFrom n (leAt f.payload 0 2) s else s
      pumpPort n (btnPort s n).waiting.length s

def execFlitReceived (n : Fin 2) (f : Flit) (s : State) : Res := .next (flitReceived n.val f s)

/-- IDLE_FLIT (R431). -/
def idleFlit (n : Nat) (s : State) : State :=
  if carries (btnPort s n) = true ∧ (btnPort s n).waiting = [] then sendFlit n 2 [] s else s

def execIdleFlit (n : Fin 2) (s : State) : Res := .next (idleFlit n.val s)

/-- PORT_TIMEOUT (R431): no intact flit for 100 µs takes the port down. A port whose HELLO does not come fails step 4
and is refused (R432; DEDUCED, log 1502). -/
def portTimeout (n : Nat) (s : State) : State :=
  let p := btnPort s n
  if carries p then portDown n s
  else if p.phase = .handshake then
    setBtnPort n { replays := p.replays, tagFail := p.tagFail, phase := .refused, needGap := true } s
  else s

def execPortTimeout (n : Fin 2) (s : State) : Res := .next (portTimeout n.val s)

/-- REKEY (R431): after every 2^32 flits of a direction its key is replaced. -/
def rekey (n : Nat) (tx : Bool) (s : State) : State :=
  let p := btnPort s n
  if carries p = false then s
  else if tx then
    if p.txRekeys < p.txCtr / 2 ^ 32 then
      setBtnPort n { p with
        txKey := flitRekey p.txKey
        txRekeys := p.txRekeys + 1 } s
    else s
  else if p.rxRekeys < p.rxCtr / 2 ^ 32 then
    setBtnPort n { p with
      rxKey := flitRekey p.rxKey
      rxRekeys := p.rxRekeys + 1 } s
  else s

def execRekey (n : Fin 2) (tx : Bool) (s : State) : Res := .next (rekey n.val tx s)

/-! ### Taking a table (R433, R436, R443, R444) -/

/-- Is there a route to the ridge? -/
def ridgeRoute (s : State) : Bool := match s.btn.table with
  | some t => s.btn.role == .ridge || reachable s t.ridge
  | none => true

/-- Ports whose peer's serial a table holds become UP with that member number (R438). -/
def admitPorts (t : CascadeTable) (s : State) : State :=
  [0, 1].foldl (fun u n =>
    let p := btnPort u n
    if carries p then
      match (List.range t.n).find? fun m => t.members[m]? == some (BitVec.ofNat 128 p.peerSer) with
      | some m => reachUp n m (setBtnPort n { p with
          phase := .up
          peer := some m } u)
      | none => u
    else u) s

/-- Hold a table: member number, role, both copies in flash, and the ranges compared anew. An isolated member stays so
until it has caught up (R444). -/
def holdTable (t : CascadeTable) (m : Nat) (s : State) : State :=
  let role : Role := if t.ridge = m then .ridge else if s.btn.role = .isolated then .isolated else .rafter
  let old := s.btn.table.map fun x => (x.ridge, x.succ)
  let changed := old ≠ some (t.ridge, t.succ) ∨ s.btn.role ≠ role
  let promote := role = .ridge ∧ s.btn.role ≠ .ridge
  let s := { s with btn := { s.btn with
    table := some t
    member := m
    role := role
    candidate := false
    electing := false
    votes := []
    reach := setBit s.btn.reach m } }
  let s := if promote then
      s.btn.ridgeV.foldl (fun u e => updCtr (fun c => { c with v := SMap.set 0 c.v e.1 (max (SMap.get 0 c.v e.1) e.2) }) u)
        { s with btn := { s.btn with leases := [] } }
    else s
  let s := checkRanges (writeTable (admitPorts t s))
  if changed then cause .btn 4 s else s

/-- The successor that R443 names: the lowest-numbered reachable member other than the ridge. -/
def nextSucc (s : State) (ridge : Nat) : Nat :=
  ((List.range (memberCount s)).find? fun m => m != ridge && reachable s m).getD noSucc

/-- The ridge makes a table its own and sends it to every reachable member. -/
def publishTable (t : CascadeTable) (s : State) : State :=
  let s := holdTable t s.btn.member s
  sendControls (reachables s) ctlTable (tableBody t) s

/-- This member becomes the ridge with the next EPOCH (R443). -/
def becomeRidge (s : State) : State :=
  match s.btn.table with
  | some t => publishTable { t with
      ridge := s.btn.member
      succ := nextSucc s s.btn.member
      epoch := t.epoch + 1 } s
  | none => s

/-- The member becomes ISOLATED (R444). -/
def becomeIsolated (s : State) : State :=
  match s.btn.table with
  | some t =>
    if s.btn.role = .isolated then { s with btn := { s.btn with electing := false } }
    else
      let s := { s with btn := { s.btn with
        role := .isolated
        electing := false
        holdOut := decide (t.hold = 0)
        holdEnd := s.eav.aon + 32768 * t.hold } }
      cause .btn 4 (cause .btn 8 s)
  | none => s

/-- HOLD_LEFT (R450). -/
def holdLeft (s : State) : Nat :=
  if s.btn.role = .isolated ∧ s.btn.holdOut = false then (s.btn.holdEnd - s.eav.aon + 32767) / 32768 else 0

/-- CASCADE_TABLE_UPDATE (R437, R443): a table with a higher EPOCH takes the place of this one; a removed member
zeroises its KSRK, latches the key-area erasure and becomes solo. -/
def cascadeTableUpdate (t : CascadeTable) (removed : Bool) (s : State) : State :=
  if wardenUp s = false then s
  else match s.btn.table with
    | some old =>
      if removed then
        let s := becomeSolo (zeroiseKsrk s)
        { s with eav := { s.eav with pend := s.eav.pend ||| 1 } }
      else match memberIn s t with
        | some m => if old.epoch.toNat < t.epoch.toNat then holdTable t m s else s
        | none => s
    | none =>
      if s.btn.candidate then
        match memberIn s t with
        | some m => holdTable t m s
        | none => s
      else s

def execCascadeTableUpdate (table : CascadeTable) (removed : Bool) (s : State) : Res :=
  .next (cascadeTableUpdate table removed s)

/-- JOIN_TRANSFER (R438 steps 1 and 2): the KSRK, roster and quorum table are taken over and an empty key store opens.
Root record generation 1 is written as INIT writes it (DEDUCED, log 1501). -/
def joinTransfer (root : List Byte) (roster : List (List Byte)) (quorum : List (Nat × Nat × Nat)) (t : CascadeTable)
    (s : State) : State :=
  match [0, 1].find? fun n => decide ((btnPort s n).phase = .candidate) with
  | none => s
  | some n =>
    if wardenUp s = false ∨ mayJoin s = false ∨ s.btn.candidate = true ∨ root.length ≠ 32 then s
    else
      let s := putVault 0x40 root s
      let s := writeRoot (rootBytes s 1 [] (ksrkId s) 0 0 []) s
      let entries := roster.map fun b => (⟨slice b 0 16, slice b 16 49, leAt b 65 1⟩ : Custodian)
      let s := { s with
        ks := { s.ks with
          phase := .isOpen
          seq := 0 }
        eav := { s.eav with vaultZero := false }
        slt := { s.slt with
          roster := entries
          quorum := quorum.foldl (fun m q => SMap.set (0, 0) m q.1 (q.2.1, q.2.2)) [] }
        btn := { s.btn with candidate := true } }
      linkSend n (packetBytes 0 0x18 0 t.ridge (BitVec.ofNat 32 t.ridge :: BitVec.ofNat 32 ctlMissing :: wordsOf (leBytes 8 0))) s

def execJoinTransfer (ksrk : List Byte) (roster : List (List Byte)) (quorum : List (Nat × Nat × Nat))
    (table : CascadeTable) (s : State) : Res := .next (joinTransfer ksrk roster quorum table s)

/-! ### The operations of CASCADE_JOIN (R437, R438) -/

/-- FORM: a table with this module alone. -/
def cascadeForm (lease hold fwd : Nat) (s : State) : State :=
  holdTable {
    n := 1
    ridge := 0
    epoch := 1
    succ := noSucc
    leaseLog2 := lease
    hold := hold
    fwdMask := BitVec.ofNat 64 (fwd / 2 * 2)
    ksrkId := BitVec.ofNat 128 (leNat (ksrkId s))
    members := BitVec.ofNat 128 (serialOf s) :: List.replicate 15 0 } 0 s

/-- JOIN on the ridge: what R438 step 1 sends, then the table with the joiner as member `m`. -/
def cascadeJoin (m serial : Nat) (s : State) : State :=
  match s.btn.table with
  | some t =>
    let roster := s.slt.roster.flatMap fun c => padTo 16 c.custId ++ padTo 49 c.pubKey ++ [BitVec.ofNat 8 c.group]
    let quorum := s.slt.quorum.flatMap fun e => [BitVec.ofNat 8 e.1, BitVec.ofNat 8 e.2.1, BitVec.ofNat 8 e.2.2]
    let body := leBytes 16 serial ++ ksrk s ++ leBytes 4 s.slt.roster.length ++ roster ++ leBytes 4 s.slt.quorum.length
      ++ quorum ++ tableBody t
    let port := [0, 1].find? fun n => decide ((btnPort s n).phase = .candidate ∧ (btnPort s n).peerSer = serial)
    let s := match port with
      | some n => linkSend n (packetBytes s.btn.member 0x18 0 m (BitVec.ofNat 32 m :: BitVec.ofNat 32 ctlJoin :: wordsOf body)) s
      | none => sendControls (reachables s) ctlJoin body s
    let n := max t.n (m + 1)
    publishTable { t with
      n := n
      epoch := t.epoch + 1
      succ := if n = 2 then m else t.succ
      members := t.members.set m (BitVec.ofNat 128 serial) } s
  | none => s

/-- REMOVE on the ridge: the last member's entry is cleared. -/
def cascadeRemove (m : Nat) (s : State) : State :=
  match s.btn.table with
  | some t =>
    let s := sendControl m ctlLeave [] s
    let s := setReach (s.btn.reach &&& ~~~(BitVec.ofNat 32 (2 ^ m))) s
    publishTable { t with
      n := t.n - 1
      epoch := t.epoch + 1
      succ := if t.succ = m then ((List.range (t.n - 1)).find? fun k => k != t.ridge && reachable s k).getD noSucc else t.succ
      members := t.members.set m 0 } s
  | none => s

/-- SETTINGS on the ridge. -/
def cascadeSettings (lease hold fwd : Nat) (s : State) : State :=
  match s.btn.table with
  | some t => publishTable { t with
      leaseLog2 := lease
      hold := hold
      fwdMask := BitVec.ofNat 64 (fwd / 2 * 2)
      epoch := t.epoch + 1 } s
  | none => s

/-! ### Succession (R443, R444) -/

/-- RIDGE_LOSS_TIMEOUT (R443, R444): the successor asks for votes; any other member becomes ISOLATED. -/
def ridgeLossTimeout (s : State) : State :=
  match s.btn.table with
  | some t =>
    if wardenUp s = false ∨ ridgeRoute s = true then s
    else if t.succ = s.btn.member then
      let s := { s with btn := { s.btn with
        electing := true
        votes := [s.btn.member] } }
      sendControls (reachables s) ctlAskVote (leBytes 8 t.epoch.toNat) s
    else becomeIsolated s
  | none => s

def execRidgeLossTimeout (s : State) : Res := .next (ridgeLossTimeout s)

/-- VOTE_REQUEST (R443): at the candidate the answers are in, `voters` being the members that voted for it; at any other
member without a route to the ridge the request is answered with its vote. -/
def voteRequest (voters : List Nat) (s : State) : State :=
  match s.btn.table with
  | some t =>
    if wardenUp s = false then s
    else if t.succ = s.btn.member then
      if s.btn.electing = false ∨ s.btn.role = .ridge ∨ ridgeRoute s = true then s
      else
        let vs := (s.btn.member :: voters.filter fun m => m != s.btn.member && decide (m < t.n) && reachable s m).eraseDups
        let s := { s with btn := { s.btn with votes := vs } }
        if t.n / 2 + 1 ≤ vs.length then becomeRidge s else becomeIsolated s
    else if ridgeRoute s then s
    else sendControl t.succ ctlVote (leBytes 8 t.epoch.toNat) s
  | none => s

def execVoteRequest (voters : List Nat) (s : State) : Res := .next (voteRequest voters s)

/-- SUCCESSOR_LOSS_TIMEOUT (R443): the ridge names the next successor in a new EPOCH, which commits at half of the
members, rounded up; until it does, ridge-owned changes wait. -/
def successorLossTimeout (s : State) : State :=
  match s.btn.table with
  | some t =>
    if wardenUp s = false ∨ s.btn.role ≠ .ridge ∨ (t.succ ≠ noSucc ∧ reachable s t.succ = true) then s
    else
      let c := nextSucc s s.btn.member
      let live := (reachables s).length + 1
      if (c ≠ noSucc ∨ t.n ≤ 2) ∧ (t.n + 1) / 2 ≤ live then
        if c = t.succ then { s with btn := { s.btn with electing := false } }
        else publishTable { t with
          succ := c
          epoch := t.epoch + 1 } s
      else { s with btn := { s.btn with electing := true } }
  | none => s

def execSuccessorLossTimeout (s : State) : Res := .next (successorLossTimeout s)

/-- HOLD_EXPIRY (R444). -/
def holdExpiry (s : State) : State :=
  if s.btn.role = .isolated then { s with btn := { s.btn with holdOut := true } } else s

def execHoldExpiry (s : State) : Res := .next (holdExpiry s)

/-- RIDGE_WAIT_TIMEOUT (R442, R443): requests that wait for a lease without a route to the ridge, and key changes that
wait for the ridge, end with LINK_LOST. -/
def ridgeWaitTimeout (s : State) : State :=
  let noRidge := !ridgeRoute s
  let leaseless := fun (c : Nat) => noRidge && (ctrNextValue s c).isNone
  let ports := (s.sym.ports.filter fun e => match e.2.req with
    | some r => (r.op == 11 || r.op == 12) && leaseless r.argA
    | none => false).map (·.1)
  let cmds := (s.hqi.cmds.filter fun c => !c.finished
    && ((match c.waits with
        | some k => leaseless k
        | none => false)
      || (match c.plan with
        | some p => p.agreed.isNone && (noRidge || s.btn.electing)
        | none => false)
      || (c.asked && !c.synced && noRidge))).map (·.ref)
  if wardenUp s = false ∨ s.btn.table.isNone then s
  else cmds.foldl (fun t r => endCmd r stLinkLost 0 [] t) (ports.foldl (fun t n => portEnd n stLinkLost none t) s)

def execRidgeWaitTimeout (s : State) : Res := .next (ridgeWaitTimeout s)

/-! ### Key-store replication (R440, R441) -/

/-- A change as a control packet carries it. -/
def changeBytes (member : Nat) (resident : Bool) (r : LogRec) : List Byte :=
  [BitVec.ofNat 8 member, if resident then 1 else 0] ++ logRecBytes r

/-- The log record of a change. -/
def changeRec (ch : KsChange) : LogRec :=
  ⟨ch.index, ch.store, ch.gen.toNat, ch.gable, ch.spanLog2 % 4, ch.seq, padTo (if ch.store then 64 * 2 ^ (ch.spanLog2 % 4) else 0) ch.contents⟩

/-- Make room in the slot log's buffer (R239). -/
def makeRoom (s : State) : State := if bufHasPlace s then s else flushOne s

/-- Plans that touch an index and wait, in the order in which they were sent. -/
def plansAt (s : State) (resident : Bool) (index : Nat) : List Plan :=
  (s.hqi.cmds.filterMap (·.plan)).filter fun p => p.index == index && p.resident == resident && p.agreed.isNone

/-- Commands of this member whose change touches an index: the first one sent that the change answers is agreed, and any
other is looked at anew, since the ridge's order decides (R111, R440). -/
def settlePlans (own resident : Bool) (r : LogRec) (s : State) : State :=
  let mine := (plansAt s resident r.index).filter fun p => own && p.store == r.store
  let first := mine.foldl (fun m p => match m with
    | some k => some (min k p.order)
    | none => some p.order) (none : Option Nat)
  { s with hqi := { s.hqi with cmds := s.hqi.cmds.map fun c => match c.plan with
      | some p =>
        if p.index = r.index ∧ p.resident = resident ∧ p.agreed.isNone then
          if own ∧ p.store = r.store ∧ first = some p.order then { c with plan := some { p with agreed := some r.gen } }
          else { c with plan := none }
        else c
      | none => c } }

/-- The ridge checks a member's change against its replica (R236), gives it the next sequence and generation, and sends
it on. The contents are wrapped anew, since their tag covers both. -/
def ridgeChange (ch : KsChange) (s : State) : State :=
  let refuse := fun (u : State) => sendControl ch.member ctlMissing (leBytes 8 u.ks.seq) u
  let d := readDir ch.resident ch.index (2 ^ (ch.spanLog2 % 4)) (makeRoom s)
  let s := d.2
  let rec_ : Option LogRec :=
    if d.1 = false then none
    else if ch.store then
      if slotFree s ch.resident ch.gable ch.index then
        (unwrapSlot (ksrk s) ch.gable ch.resident ch.index (leAt ch.contents 4 2) ch.contents).map fun k =>
          storeRec s ch.gable ch.resident ch.index k.policy k.secret k.pub
      else none
    else
      let e := dirEntry s ch.resident ch.index
      if dState e = 1 ∧ dGable e = ch.gable ∧ dGen e = ch.gen.toNat then some (deleteRec s ch.gable ch.resident ch.index) else none
  match rec_ with
  | none => refuse s
  | some r =>
    if ch.resident = false ∧ (logHasRoom s && bufHasPlace s) = false then refuse s
    else match commitChange ch.resident r s with
      | (false, t) => refuse t
      | (true, t) => sendControls (reachables t) ctlChange (changeBytes ch.member ch.resident r) (settlePlans false ch.resident r t)

/-- A rafter applies the change that follows its own sequence; beyond a gap it asks for the missing records. -/
def rafterChange (ch : KsChange) (s : State) : State :=
  if ch.seq ≤ s.ks.seq then s
  else if ch.seq ≠ s.ks.seq + 1 then
    match s.btn.table with
    | some t => sendControl t.ridge ctlMissing (leBytes 8 s.ks.seq) s
    | none => s
  else match commitChange ch.resident (changeRec ch) (makeRoom s) with
    | (true, t) => settlePlans (ch.member == s.btn.member) ch.resident (changeRec ch) t
    | (false, t) => t

/-- REPLICATION_CHANGE (R440). -/
def replicationChange (ch : KsChange) (s : State) : State :=
  if wardenUp s = false ∨ s.ks.phase ≠ .isOpen ∨ (s.btn.table.isNone ∧ s.btn.candidate = false) then s
  else if s.btn.role = .ridge then
    if s.btn.electing ∨ ch.member = s.btn.member ∨ reachable s ch.member = false then s else ridgeChange ch s
  else if s.btn.candidate ∨ ridgeRoute s then rafterChange ch s else s

def execReplicationChange (ch : KsChange) (s : State) : Res := .next (replicationChange ch s)

/-- Apply one change of a resynchronisation, whatever the sequence. -/
def applyAny (ch : KsChange) (s : State) : State := (commitChange ch.resident (changeRec ch) (makeRoom s)).2

/-- RESYNC (R440, R441, R444): at the receiving member the ridge's table and records are applied, and it then holds the
ridge's sequence; with nothing missed the ridge only confirms it. At the ridge its keys are streamed to the member. -/
def resync (member : Nat) (table : List KsChange) (seq : Nat) (s : State) : State :=
  if wardenUp s = false ∨ s.ks.phase ≠ .isOpen ∨ (s.btn.table.isNone ∧ s.btn.candidate = false) then s
  else if s.btn.role = .ridge then
    let d := msuRead slotDir 64 true true s
    match d.1 with
    | some b => sendControl member ctlChange (leBytes 8 s.ks.seq ++ b) d.2
    | none => d.2
  else if member = s.btn.member ∧ (s.btn.candidate ∨ ridgeRoute s) then
    let missed := !table.isEmpty || decide (s.ks.seq < seq)
    let s := table.foldl (fun t ch => applyAny ch t) s
    let s := { s with
      ks := { s.ks with seq := max s.ks.seq seq }
      hqi := { s.hqi with cmds := s.hqi.cmds.map fun c => if c.asked then { c with synced := true } else c } }
    let s := if s.btn.role = .isolated then
        cause .btn 4 { s with btn := { s.btn with
          role := .rafter
          holdOut := false } }
      else s
    if missed then cause .btn 6 s else s
  else s

def execResync (member : Nat) (table : List KsChange) (seq : Nat) (s : State) : Res := .next (resync member table seq s)

/-! ### Counter leases (R442) -/

/-- The ridge grants a block: V advances by it, the reservation is extended to cover it under R208, and the grant is sent once
that record has verified, or at once where the bound in force covers the block. One block of a counter is granted at a
time. -/
def grantLease (c member : Nat) (s : State) : State :=
  match s.btn.table with
  | some t =>
    let v := ctrV s c
    let n := min (2 ^ t.leaseLog2) (ctrTop - v)
    if n = 0 ∨ s.btn.electing = true ∨ member = s.btn.member ∨ reachable s member = false
        ∨ (s.btn.grants.any fun g => g.1 == c) = true then s
    else
      let advance := fun (u : State) => updCtr (fun k => { k with v := SMap.set 0 k.v c (v + n) }) u
      if v + n ≤ ctrB s c then sendGrant c member (v + 1) n (ctrReserve c (advance s))
      else if (SMap.get none s.sym.ctr.flight c).isSome then s
      else
        let bnew := min (max (ctrB s c) (v + n) + 256) ctrTop
        let r := appendJournal 1 bnew c s
        if r.1 then
          let u := advance (updCtr (fun k => { k with flight := SMap.set none k.flight c (some bnew) }) r.2)
          { u with btn := { u.btn with grants := u.btn.grants ++ [(c, member, v + 1, n)] } }
        else r.2
  | none => s

/-- LEASE_GRANT (R442): the ridge grants a block to `member`; that member takes it, at most two per counter; every other
member notes what has been leased out. -/
def leaseGrant (c member first count : Nat) (s : State) : State :=
  if wardenUp s = false ∨ s.btn.table.isNone ∨ c ≥ 65536 then s
  else if s.btn.role = .ridge then grantLease c member s
  else if count = 0 ∨ ctrTop < first + count - 1 ∨ ridgeRoute s = false then s
  else if member = s.btn.member then
    let ls := SMap.get [] s.btn.leases c
    if ls.length < 2 ∧ (ls.all fun l => decide (l.first + l.count ≤ first)) ∧ ctrV s c < first then
      { s with btn := { s.btn with leases := SMap.set [] s.btn.leases c (ls ++ [⟨first, count, first⟩]) } }
    else s
  else { s with btn := { s.btn with
    ridgeV := SMap.set 0 s.btn.ridgeV c (max (SMap.get 0 s.btn.ridgeV c) (first + count - 1)) } }

def execLeaseGrant (index member : Nat) (first : Dword) (count : Nat) (s : State) : Res :=
  .next (leaseGrant index member first.toNat count s)

/-! ### Forwarding (R447 to R449) -/

/-- Opcodes that may be forwarded. -/
def forwardable : List Nat :=
  [0x0100, 0x0101, 0x0110, 0x0111, 0x0120, 0x0128, 0x0129, 0x0130, 0x0131, 0x0150, 0x0151, 0x0160, 0x0161, 0x0180, 0x0190]

/-- Logical cores that serve a gable here. -/
def gableCores (s : State) (g : Nat) : Nat := (liveTrusses s g).length * coresPer s g

/-- The peer to which the runtime forwards a command of gable `g` (R447): fewest hops, lowest number on a tie. -/
def forwardPeer (s : State) (r : CmdRef) (e : List Byte) : Option Nat :=
  match s.btn.table with
  | none => none
  | some t =>
    if bitOf t.fwdMask.toNat r.fn && r.fn != 0 && forwardable.contains (eOpcode e) && !eFence e && eFirst e && eLast e
        && decide (eSrcLen e ≤ 4016) && decide (eDstLen e ≤ 4016) && decide (4 * gableCores s r.fn < fnInfl s r.fn) then
      let hops := fun (m : Nat) => match routeTo s m with
        | some 0 => hopsBy s 0 m
        | _ => hopsBy s 1 m
      let cand := (reachables s).filter fun m => (routeTo s m).isSome
        && (SMap.get [] s.btn.loads m).any fun x => x.1 == r.fn && decide (x.2 < 2)
      cand.foldl (fun (b : Option Nat) m => match b with
        | some k => if hops m < hops k then some m else some k
        | none => some m) none
    else none

/-- The runtime forwards a command with its source data. -/
def forwardCmd (r : CmdRef) (e src : List Byte) (m : Nat) (s : State) : State :=
  let id := s.btn.fwdNext
  let s := { s with btn := { s.btn with fwdNext := (id + 1) % 2 ^ 32 } }
  let ws := [BitVec.ofNat 32 m, BitVec.ofNat 32 id, BitVec.ofNat 32 (ringQueue s (ctxNum r.fn 0))] ++ wordsOf (padTo 64 e)
    ++ [BitVec.ofNat 32 src.length] ++ wordsOf src
  sendPacket 0x10 r.fn m ws (updCmd r (fun c => { c with fwd := some (m, id) }) s)

/-- FORWARD (R448): delivered to the gable's ring-0 queue, answered by the link, or sent on to its destination. -/
def forwardEffect (src g : Nat) (ws : List Word) (s : State) : State :=
  let dest := fld (ws.getD 0 0) 0 4
  let fwdId := ws.getD 1 0
  let entry := bytesOf ((ws.drop 3).take 16)
  let answer := fun (st : Nat) (u : State) => sendReturn src g fwdId (ws.getD 2 0) (completionBytes entry st 0 []) [] u
  match s.btn.table with
  | none => s
  | some t =>
    if powered s = false ∨ src = s.btn.member then s
    else if dest ≠ s.btn.member then relayPacket src 0x10 g dest ws (heardFrom src s)
    else
      let s := heardFrom src s
      if formed s g = false ∨ bitOf t.fwdMask.toNat g = false then answer stNotPermitted s
      else if ws.length < 20 ∨ 1024 < ws.length ∨ cellsFree s g < cellsOf ws.length then answer stSuspended s
      else
        let ref := servedRef src g fwdId
        let cmd : Cmd := { ref := ref, entry := entry, committed := true, src := .got (slice (bytesOf (ws.drop 20)) 0 (ws.getD 19 0).toNat),
                           reply := ws.getD 2 0 }
        let p : Packet := { typ := 0x10, words := ws, src := unitSource g 3 none, prod := g }
        enqueue (ringQueue s (ctxNum g 0)) p (addCells g (cellsOf ws.length)
          { s with hqi := { s.hqi with cmds := s.hqi.cmds ++ [cmd] } })

def execForward (src gable : Nat) (words : List Word) (s : State) : Res := .next (forwardEffect src gable words s)

/-- RETURN (R448): the origin writes the completion. SUSPENDED leaves the command to the origin. A RETURN without a
command goes to its REPLY_QUEUE where that belongs to the gable, unless the queue is the runtime's own, whose RETURN
came too late (R99). -/
def returnEffect (src g : Nat) (ws : List Word) (s : State) : State :=
  let dest := fld (ws.getD 0 0) 0 4
  let fwdId := ws.getD 1 0
  let b := bytesOf ((ws.drop 3).take 16)
  let res := slice (bytesOf (ws.drop 20)) 0 (ws.getD 19 0).toNat
  if powered s = false ∨ s.btn.table.isNone ∨ src = s.btn.member then s
  else if dest ≠ s.btn.member then relayPacket src 0x11 g dest ws (heardFrom src s)
  else
    let s := heardFrom src s
    match s.hqi.cmds.find? fun c => c.ref.fn == g && !c.finished && c.fwd == some (src, fwdId.toNat) with
    | some c =>
      let st := leAt b 0 2
      if st = stSuspended then updCmd c.ref (fun x => { x with fwd := none, here := true }) s
      else
        let s := if st = stOk then commitHostWrites c.ref (eDst c.entry) res s else s
        endCmd c.ref st (leAt b 8 8) (slice b 16 48) s
    | none =>
      let q := fld (ws.getD 2 0) 0 11
      if queueOwner s q = some g ∧ q ≠ ringQueue s (ctxNum g 0) ∧ cellsOf ws.length ≤ cellsFree s g then
        enqueue q { typ := 0x11, words := ws, src := unitSource g 3 none, prod := g } (addCells g (cellsOf ws.length) s)
      else s

def execReturnWork (src gable : Nat) (words : List Word) (s : State) : Res := .next (returnEffect src gable words s)

/-- CANCEL (R449): the peer aborts a forwarded command that it still holds. -/
def cancelEffect (src g : Nat) (fwdId : Word) (s : State) : State :=
  if powered s = false ∨ s.btn.table.isNone then s else abortCmd (servedRef src g fwdId) stAborted s

def execCancel (src gable : Nat) (fwdId : Word) (s : State) : Res := .next (cancelEffect src gable fwdId s)

/-- FORWARD_TIMEOUT (R449): the peer's route is lost and no RETURN has come. -/
def forwardTimeout (r : CmdRef) (s : State) : State :=
  match findCmd s r with
  | some c => match c.fwd with
    | some (m, _) => if c.finished ∨ reachable s m = true then s else endCmd r stLinkLost 0 [] s
    | none => s
  | none => s

def execForwardTimeout (r : CmdRef) (s : State) : Res := .next (forwardTimeout r s)

/-- The CANCELs of a function-level reset at the origin (R449). -/
def cancelForwards (f : Nat) (s : State) : State :=
  (s.hqi.cmds.filter fun c => c.ref.fn == f && !c.finished).foldl (fun t c => match c.fwd with
    | some (m, id) => sendPacket 0x12 f m [BitVec.ofNat 32 m, BitVec.ofNat 32 id] t
    | none => t) s

/-- LOAD_REPORT (R447): a peer's report is kept; this member's own goes to every peer. -/
def loadReport (member : Nat) (loads : List (Nat × Nat)) (s : State) : State :=
  if powered s = false ∨ s.btn.table.isNone then s
  else if member = s.btn.member then
    let own := (formedGables s).flatMap fun g =>
      [BitVec.ofNat 8 g, BitVec.ofNat 8 (fnInfl s g / max 1 (gableCores s g))]
    sendControls (reachables s) ctlLoad own s
  else if member < memberCount s then
    heardFrom member { s with btn := { s.btn with loads := SMap.set [] s.btn.loads member loads } }
  else s

def execLoadReport (member : Nat) (loads : List (Nat × Nat)) (s : State) : Res := .next (loadReport member loads s)

/-! ### Forwarded events (R446) -/

/-- EVENT_FWD: the ridge presents an event that a member sent. -/
def eventFwd (member : Nat) (event : List Byte) (s : State) : State :=
  if powered s = true ∧ s.btn.role = .ridge ∧ member < memberCount s ∧ member ≠ s.btn.member then
    cause .btn 9 { s with btn := { s.btn with
      evtSrc := member
      evt := padTo 32 event } }
  else s

def execEventFwd (member : Nat) (event : List Byte) (s : State) : Res := .next (eventFwd member event s)

/-- An event whose NOTIFY bit 1 is set goes to the ridge (R446); on the ridge itself it is presented at once. -/
def notifyRidge (event : List Byte) (s : State) : State :=
  match s.btn.table with
  | some t =>
    if s.btn.role = .ridge then
      cause .btn 9 { s with btn := { s.btn with
        evtSrc := s.btn.member
        evt := padTo 32 event } }
    else sendControl t.ridge ctlEvent event s
  | none => s

end Sys2Proof.Machine
end

