-- ==== Sys2Proof/Machine/CerJournal.lean ====
section
/-! DEFINITION. The ceremony journal and the end of a ceremony (14_slate_port_ceremonies.md, R415, R416, R421, R423 to
R426). -/

namespace Sys2Proof.Machine

/-! ### Journal records (R423) -/

/-- Kinds of journal records. -/
abbrev cjOpen : Nat := 1
abbrev cjApprove : Nat := 2
abbrev cjEnrolled : Nat := 3
abbrev cjWriteStart : Nat := 4
abbrev cjConfirmed : Nat := 5
abbrev cjUnconfirmed : Nat := 6
abbrev cjShareRead : Nat := 7
abbrev cjExecuted : Nat := 8
abbrev cjAborted : Nat := 9
abbrev cjExpired : Nat := 10
abbrev cjRoster : Nat := 11
abbrev cjQuorum : Nat := 12
abbrev cjRefused : Nat := 13

/-- The variable fields of a record. -/
structure CerRec where
  kind   : Nat
  ctype  : Nat := 0
  slot   : Nat := 0xFF
  step   : Nat := 0
  group  : Nat := 0
  custId : List Byte := []
  detail : List Byte := []
deriving DecidableEq, Repr

/-- A record's 128 bytes. -/
def cerRecBytes (s : State) (r : CerRec) : List Byte :=
  let b := leBytes 4 (s.slt.jSeq + 1) ++ leBytes 4 s.slt.cerNo ++ leBytes 8 (s.eav.aon % 2 ^ 48)
    ++ [BitVec.ofNat 8 r.kind, BitVec.ofNat 8 r.ctype, BitVec.ofNat 8 r.slot, BitVec.ofNat 8 r.step, BitVec.ofNat 8 r.group,
        0, 0, 0] ++ padTo 16 r.custId ++ padTo 80 r.detail ++ List.replicate 7 0
  b ++ [crc8 b]

/-- Number of the area's sectors. -/
def cerSectors (s : State) : Nat := s.img.latched.partition.cerj

/-- Program a record's words 0 to 14 and then word 15 (R423). -/
def progCer (a : Nat) (b : List Byte) (s : State) : Bool × State :=
  let p := fwProg a (b.take 120) s
  if p.1 then fwProg (a + 120) (b.drop 120) p.2 else p

/-- Program a record at the next place, moving to the next sector at the end of one, or where the record does not program
(R362). -/
def putCerF (r : CerRec) : Nat → State → State
  | 0, s => s
  | f + 1, s =>
    let s := if 4096 ≤ s.slt.jOff then
        { s with slt := { s.slt with
          jSector := (s.slt.jSector + 1) % cerSectors s
          jOff := 0 } }
      else s
    let p := progCer ((cerjSect0 s + s.slt.jSector) * 4096 + s.slt.jOff) (cerRecBytes s r) s
    if p.1 then { p.2 with slt := { p.2.slt with
      jOff := s.slt.jOff + 128
      jSeq := s.slt.jSeq + 1 } }
    else putCerF r f { p.2 with slt := { p.2.slt with jOff := 4096 } }

/-- Program a record at the next place that takes it: at most one try for each sector. -/
def putCer (r : CerRec) (s : State) : State := putCerF r (cerSectors s + 1) s

/-- Roster and quorum table as records (R424); CTYPE 0 marks them as copies, which hold as they stand. -/
def rosterRecs (s : State) : List CerRec :=
  s.slt.roster.map (fun c => { kind := cjRoster, group := c.group, custId := c.custId, detail := c.pubKey })
    ++ s.slt.quorum.map fun e =>
      { kind := cjQuorum, detail := [BitVec.ofNat 8 e.1, BitVec.ofNat 8 e.2.1, BitVec.ofNat 8 e.2.2] }

/-- Control packets with a journal record and with a changed roster and quorum table (R439). -/
abbrev ctlJournal : Nat := 12
abbrev ctlRoster : Nat := 13

/-- In a cascade the ridge and the successor take each record of a ceremony (R439). -/
def shareRecord (b : List Byte) (s : State) : State :=
  match s.btn.table with
  | some t => sendControls ([t.ridge, t.succ].eraseDups.filter fun m => m != s.btn.member && reachable s m) ctlJournal b s
  | none => s

/-- Journal a record. Two sectors ahead stay erased: when a sector is entered and the one two ahead holds records, roster
and quorum table are rewritten and that oldest sector is erased (R424). -/
def journalCer (r : CerRec) (s : State) : State :=
  let enters := decide (4096 ≤ s.slt.jOff)
  let s := shareRecord (cerRecBytes s r) s
  let s := putCer r s
  let x := cerjSect0 s + (s.slt.jSector + 2) % cerSectors s
  if enters ∧ sectorErased s x = false then (fwErase x ((rosterRecs s).foldl (fun t q => putCer q t) s)).2 else s

/-- A record of the ceremony in progress. -/
def cerLog (kind slot : Nat) (group : Nat) (custId detail : List Byte) (s : State) : State :=
  match s.slt.cer with
  | some c => journalCer { kind := kind, ctype := c.typ, slot := slot, step := c.stepNo, group := group, custId := custId,
                           detail := detail } s
  | none => s

/-! ### The end of a ceremony -/

/-- A ceremony command ends: STATUS, BUSY and CER_DONE (R428). -/
def cerEnd (st : Nat) (s : State) : State :=
  cause .slt 0 { s with slt := { s.slt with
    status := st
    busy := false } }

/-- Slot `n`. -/
def slotOf (s : State) (n : Nat) : Slot := SMap.get {} s.slt.slots n

/-- Put a slot. -/
def setSlot (n : Nat) (x : Slot) (s : State) : State := { s with slt := { s.slt with slots := SMap.set {} s.slt.slots n x } }

/-- RESET and power-off of a slot (R419, R426): its session ends and its supply goes. -/
def slotOff (n : Nat) (s : State) : State :=
  let x := slotOf s n
  setSlot n { x with
    powered := false
    session := none
    stage := .off
    step := false
    request := []
    reply := []
    ephem := 0
    rxSeg := []
    txSeg := []
    found := []
    resume := .auth
    rate := 0 } s

/-- A STEP that runs stops with a status: it is counted nowhere, its slot is powered off, and STEP_DONE is set. -/
def stopStep (st : Nat) (s : State) : State :=
  match s.slt.cer with
  | some c => match c.stepSlot with
    | some n => cause .slt 1 (cerEnd st (slotOff n { s with slt := { s.slt with cer := some { c with
        stepSlot := none
        stepNo := c.stepNo + 1 } } }))
    | none => s
  | none => s

/-- A write whose confirmation is still open becomes unconfirmed (R425): journalled, counted, UNCONFIRMED. -/
def markUnconfirmed (n : Nat) (s : State) : State :=
  match s.slt.cer with
  | some c =>
    let x := slotOf s n
    let s := cerLog cjUnconfirmed n 0 x.custId ([BitVec.ofNat 8 x.writeB] ++ leBytes 2 x.expect ++ [BitVec.ofNat 8 x.writeX]) s
    let s := setSlot n { x with unconf := true } s
    cause .slt 6 { s with slt := { s.slt with cer := some { c with
      pendingW := (c.pendingW.filter fun p => p.1 != x.custId) ++ [(x.custId, x.writeX)]
      unconf := ((c.pendingW.filter fun p => p.1 != x.custId).length + 1) } } }
  | none => s

/-- Is a stage one between the start of a WRITE and its confirmation? -/
def writeStage (st : SlotStage) : Bool := match st with
  | .writeCmd _ => true
  | .writeToken _ => true
  | .busy _ => true
  | .postStatus _ => true
  | _ => false

/-- Is a slot between the start of a WRITE and its confirmation, be it in a tuning on the way? -/
def midWrite (x : Slot) : Bool := match x.stage with
  | .tune _ => writeStage x.resume
  | .tuneBlock _ => writeStage x.resume
  | .setRate => writeStage x.resume
  | st => writeStage st

/-- Stop a running STEP, leaving a write in progress unconfirmed (R425, R426). -/
def breakStep (st : Nat) (s : State) : State :=
  match s.slt.cer with
  | some c => match c.stepSlot with
    | some n => stopStep st (if midWrite (slotOf s n) then markUnconfirmed n s else s)
    | none => s
  | none => s

/-- The ceremony ends with a journal record, without its action: shares are zeroised (R421), and no approval remains. -/
def endCeremony (kind : Nat) (s : State) : State :=
  let s := cerLog kind 0xFF 0 [] [] (breakStep stAborted s)
  { s with slt := { s.slt with
    cer := none
    phase := .idle
    exportG := none } }

/-- A ceremony that an event ends with ABORTED (R426). -/
def abortCeremony (s : State) : State := if s.slt.cer.isSome then endCeremony cjAborted s else s

/-- The ceremony in progress has type `t`. -/
def cerIs (s : State) (t : Nat) : Bool := match s.slt.cer with
  | some c => c.typ == t
  | none => false

/-! ### Power-up (R424) -/

/-- A counting record read back: SEQ, CER_NO and its variable fields. -/
structure CerBack where
  seq   : Nat
  cerNo : Nat
  rec_  : CerRec
deriving DecidableEq, Repr

/-- The record in 128 bytes, where it counts. -/
def parseCer (b : List Byte) : Option CerBack :=
  if (b.drop 120).all (· == 0xFF) ∨ slice b 127 1 ≠ [crc8 (b.take 127)] then none
  else some ⟨leAt b 0 4, leAt b 4 4, ⟨leAt b 0x10 1, leAt b 0x11 1, leAt b 0x12 1, leAt b 0x13 1, leAt b 0x14 1, slice b 0x18 16,
    slice b 0x28 80⟩⟩

/-- Insert by SEQ. -/
def insertCer (r : CerBack) : List CerBack → List CerBack
  | [] => [r]
  | x :: xs => if r.seq ≤ x.seq then r :: x :: xs else x :: insertCer r xs

/-- Places (sector in the area, offset) that hold anything. -/
def cerPlaces (s : State) : List (Nat × Nat) :=
  (((usedWords s).filter fun w => decide (cerjSect0 s ≤ w / 512) && decide (w / 512 < cerjSect0 s + cerSectors s)).map
    fun w => (w / 512 - cerjSect0 s, w % 512 / 16 * 128)).eraseDups

/-- The record at a place, where it reads and counts. -/
def cerAt (s : State) (p : Nat × Nat) : Option CerBack :=
  let a := (cerjSect0 s + p.1) * 4096 + p.2
  if flashReads s a 128 then parseCer (flashBytes s a 128) else none

/-- Every counting record in SEQ order. -/
def cerAll (s : State) : List CerBack := ((cerPlaces s).filterMap fun p => cerAt s p).foldl (fun l r => insertCer r l) []

/-- Roster and quorum table after one record, for ceremonies in `done` and for copies. -/
def applyCer (done : List Nat) (r : CerBack) (s : State) : State :=
  let v := r.rec_
  let q := fun (c m k : Nat) (t : State) => { t with slt := { t.slt with quorum := SMap.set (0, 0) t.slt.quorum c (m, k) } }
  if v.ctype ≠ 0 ∧ done.contains r.cerNo = false then s
  else if v.kind = cjEnrolled ∨ v.kind = cjRoster then
    { s with slt := { s.slt with
      roster := (s.slt.roster.filter fun c => c.custId != v.custId) ++ [⟨v.custId, v.detail.take 49, v.group⟩] } }
  else if v.kind = cjQuorum then q (leAt v.detail 0 1) (leAt v.detail 1 1) (leAt v.detail 2 1) s
  else if v.kind = cjExecuted ∧ v.ctype = 3 then
    { s with slt := { s.slt with roster := s.slt.roster.filter fun c => c.custId != v.custId } }
  else s

/-- The warden rebuilds the roster and the quorum table, and closes a ceremony that was open (R424). A quorum table with entries
shows that an OWNERSHIP ceremony has executed (R416). -/
def cerRebuild (s : State) : State :=
  let s := noteSectors (cerjSect0 s) (cerSectors s) s
  let all := cerAll s
  let ends := fun (k : Nat) => k == cjExecuted || k == cjAborted || k == cjExpired
  let done := (all.filter fun r => r.rec_.kind == cjExecuted).map (·.cerNo)
  let s := all.foldl (fun t r => applyCer done r t) { s with slt := { s.slt with
    roster := []
    quorum := [] } }
  let last := all.getLast?
  let place := match last with
    | some r => ((cerPlaces s).find? fun p => cerAt s p == some r).getD (0, 0)
    | none => (0, 0)
  let sameSect := (cerPlaces s).filter fun (p : Nat × Nat) => p.1 == place.1
  let off := sameSect.foldl (fun m p => max m (p.2 + 128)) 0
  let s := { s with slt := { s.slt with
    jSector := place.1
    jOff := off
    jSeq := (last.map (·.seq)).getD 0
    cerNo := all.foldl (fun m r => max m r.cerNo) 0
    owned := !s.slt.quorum.isEmpty } }
  match (all.filter fun r => r.rec_.kind == cjOpen).getLast? with
  | some o =>
    let mine := all.filter fun r => r.cerNo == o.cerNo
    if mine.any fun r => ends r.rec_.kind then s
    else
      let open_ := (mine.filter fun r => r.rec_.kind == cjWriteStart).filter fun w =>
        !(mine.any fun r => r.rec_.kind == cjConfirmed && r.rec_.custId == w.rec_.custId && decide (w.seq < r.seq))
      let s := open_.foldl (fun t w => journalCer { w.rec_ with kind := cjUnconfirmed } t) s
      journalCer { kind := cjAborted, ctype := o.rec_.ctype } s
  | none => s

end Sys2Proof.Machine
end

