-- ==== Sys2Proof/Machine/EaveTable.lean ====
section
/-! DEFINITION. The tamper sources (13_eave_supervisor.md, R368 to R371, R382, R391, R392): classes, permitted and
default levels, monitoring, and the level and notification in force. -/

namespace Sys2Proof.Machine

/-- A row of R368: class (0 ENVIRONMENT, 1 PHYSICAL, 2 INTEGRITY, 3 OPERATIONAL), permitted range, default in FACTORY
and SHIPPED, default later, certified minimum. -/
structure SourceRow where
  cls     : Nat
  lo      : Nat
  hi      : Nat
  early   : Nat
  later   : Nat
  certMin : Nat
deriving DecidableEq, Repr

/-- The table of R368 by source number. -/
def sourceRow (n : Nat) : SourceRow :=
  match n with
  | 0x00 => ⟨1, 3, 5, 4, 4, 4⟩
  | 0x01 | 0x02 => ⟨1, 4, 5, 4, 4, 4⟩
  | 0x03 | 0x04 | 0x05 | 0x06 | 0x07 | 0x08 | 0x09 => ⟨1, 0, 5, 0, 4, 4⟩
  | 0x0A | 0x0B => ⟨0, 1, 5, 3, 3, 4⟩
  | 0x0C => ⟨0, 2, 5, 4, 4, 4⟩
  | 0x0D => ⟨0, 2, 5, 3, 3, 3⟩
  | 0x0E => ⟨0, 1, 5, 1, 1, 4⟩
  | 0x0F => ⟨0, 2, 5, 4, 4, 4⟩
  | 0x10 => ⟨2, 1, 5, 3, 3, 3⟩
  | 0x11 => ⟨2, 2, 5, 3, 3, 3⟩
  | 0x12 => ⟨2, 0, 5, 2, 2, 2⟩
  | 0x13 => ⟨3, 0, 2, 0, 0, 0⟩
  | 0x14 => ⟨2, 0, 5, 0, 0, 0⟩
  | 0x15 => ⟨2, 0, 2, 0, 0, 0⟩
  | _ => ⟨3, 0, 0, 0, 0, 0⟩

/-- The number of sources. -/
abbrev srcCount : Nat := 22

/-- Either CERT fuse is blown (R390, R392). -/
def certBlown (s : State) : Bool := fuseFld s 143 2 != 0

/-- The lowest level that an ALARM entry may give a source (R368, R392). -/
def levelLow (s : State) (n : Nat) : Nat :=
  let r := sourceRow n
  if certBlown s then max r.lo r.certMin else r.lo

/-- A source's default level (R368, R392). -/
def defaultLevel (s : State) (n : Nat) : Nat :=
  let r := sourceRow n
  let d := if lifecycle s = lcFactory ∨ lifecycle s = lcShipped then r.early else r.later
  if certBlown s then max d r.certMin else d

/-- The DISABLE fuse of a source is blown (R390, R391). -/
def srcDisabled (s : State) (n : Nat) : Bool := decide (3 ≤ n ∧ n ≤ 9) && fuseFld s (145 + (n - 3)) 1 == 1

/-- Is a source monitored only with main power (R368)? -/
def mainOnly (n : Nat) : Bool := [0x01, 0x0A, 0x0B, 0x10, 0x12, 0x14, 0x15].contains n

/-- The main die has its supplies. -/
def mainPower (s : State) : Bool := s.sys.power != .vault && s.sys.power != .standby

/-- MONITORED of EAV_SRCn. -/
def srcMonitored (s : State) (n : Nat) : Bool := !srcDisabled s n && (mainPower s || !mainOnly n)

/-- The response table in force (R368, R382): the latched ALARM section, without main power the retained table, else
none (the defaults). -/
def alarmTable (s : State) : Option (List AlarmEntry) :=
  if mainPower s then (if s.img.locked && !s.img.latched.alarm.isEmpty then some s.img.latched.alarm else none)
  else s.eav.retained

/-- The LEVEL in force of a source, raised to the certified minimum under a CERT fuse (R392); 5 where its latch word
is mismatched (R371). -/
def levelOf (s : State) (n : Nat) : Nat :=
  match alarmTable s with
  | some t =>
    if mainPower s && latchBad s (.level n) then 5
    else
      let l := (t.getD n ⟨0, 0⟩).level
      if certBlown s then max l (sourceRow n).certMin else l
  | none => defaultLevel s n

/-- The NOTIFY in force of a source. -/
def notifyOf (s : State) (n : Nat) : Nat :=
  match alarmTable s with
  | some t => (t.getD n ⟨0, 1⟩).notify
  | none => 1

end Sys2Proof.Machine
end

