-- ==== Sys2Proof/Machine/Galliard.lean ====
section
/-! DEFINITION. The Galliard sequencers (05_public_key_engines.md, R180 to R187): commands, microprogram packages and
services. -/

namespace Sys2Proof.Machine

/-! ### Signature blocks (R50) -/

/-- A signature block is laid out as R50 says: TYPE, reserved bytes and LENGTH. -/
def sigBlockForm (b : List Byte) : Bool := leAt b 0 2 == 0x00F0 && leAt b 2 2 == 0 && leAt b 4 4 == 192

/-- The signer's public key, x then y. -/
def sigBlockKey (b : List Byte) : List Byte := slice b 8 96

/-- Does a signature block's signature verify over the SHA-384 digest of `body`? -/
def sigBlockOk (b body : List Byte) : Bool :=
  onCurve bp384 (beNat (slice b 8 48)) (beNat (slice b 56 48)) && ecdsaCheck bp384 (sigBlockKey b) (sha384 body) (slice b 104 96)

/-! ### Operand memory (R180, R185) -/

/-- `n` bytes of a sequencer's operand memory, as a little-endian number. -/
def galNat (g : Galliard) (off n : Nat) : Nat :=
  leNat (slice ((List.range ((off % 8 + n + 7) / 8)).flatMap fun i => leBytes 8 (SMap.get (0, false) g.mem (off / 8 + i)).1.toNat) (off % 8) n)

/-- Write a number of `n` bytes, a multiple of 8, at an offset, without the KEY tag (DESIGN CHOICE, log 514). -/
def galPut (g : Galliard) (off n v : Nat) : Galliard :=
  { g with mem := (List.range (n / 8)).foldl (fun m i => SMap.set (0, false) m (off / 8 + i) (BitVec.ofNat 64 (v / 2 ^ (64 * i)), false)) g.mem }

/-! ### Packages (R183, R184) -/

/-- The entry table of a package. -/
def galEntries (b : List Byte) : List (Nat × Nat) :=
  (List.range (leAt b 0x0A 2)).map fun k => (leAt b (0x20 + 8 * k) 2, leAt b (0x24 + 8 * k) 4)

/-- Check 3 of R184: lengths, reserved bytes and entries. -/
def galForm (b : List Byte) (len : Nat) : Bool :=
  let n := leAt b 0x0A 2
  let code := leAt b 0x0C 4
  let es := galEntries b
  decide (1 ≤ n ∧ n ≤ 64) && decide (code % 16 = 0 ∧ 16 ≤ code ∧ code ≤ 16384) && decide (len = 32 + 8 * n + code + 200)
    && allZero (slice b 0x10 16) && (List.range n).all (fun k => leAt b (0x22 + 8 * k) 2 == 0)
    && es.all (fun e => decide (1 ≤ e.1 ∧ e.1 ≤ 0xFEFF) && decide (e.2 < code / 16)) && distinct (es.map (·.1))
    && sigBlockForm (b.drop (len - 200))

/-- Checks 2 to 6 of R184 on the package's bytes. -/
def galChecks (s : State) (b : List Byte) (len : Nat) : Nat :=
  let sig := b.drop (len - 200)
  firstFail
    [(leAt b 0 4 == 0x4C4C4147 && leAt b 4 2 == 1, stUnsupported), (galForm b len, stRange),
     (sha384 (sigBlockKey sig) == Config.novquinMicroprogramDigest, stInvalidKey),
     (sigBlockOk sig (b.take (len - 200)), stVerifyFailed),
     (decide (s.tel.counts.galFloor ≤ leAt b 8 2), stPolicyRefused)]

/-- Tag of a sequencer's fetch (R327). -/
def galTag : Tag := ⟨0, 0, 2, 4, 0, 0, false⟩

/-- LOAD ends (R184). The fetch leaves out bits 2:0 of the address, which must be zero. -/
def galLoadEnd (n : Nat) (s : State) : State :=
  let g := galOf s n
  let len := g.len.toNat
  let off := g.addr.toNat / 8 * 8
  if len % 8 ≠ 0 ∨ len < 256 ∨ 17128 < len then galEnd n stRange s
  else
    let q := gate galTag tgtSealed0 off len kRead s
    if q.1 = false then galEnd n stNotPermitted q.2
    else
      match msuRead (0x80000000 + off) len true true q.2 with
      | (none, s) => galEnd n stIntegrity s
      | (some b, s) =>
        let st := galChecks s b len
        if st ≠ stOk then galEnd n st s
        else
          let k := leAt b 0x0A 2
          galEnd n stOk (setGal n { galOf s n with
            code := slice b (32 + 8 * k) (leAt b 0x0C 4)
            entries := galEntries b
            loaded := true
            mpId := leAt b 6 2
            mpVer := leAt b 8 2 } s)

/-- GALLIARD_LOAD_COMPLETE (R182, R184): the fetch waits for sealed memory (R225). -/
def execGalliardLoadComplete (n : Fin 4) (s : State) : Res :=
  .next (if (galOf s n.val).run = .load ∧ s.msu.inited = true then galLoadEnd n.val s else s)

/-! ### Services (R185) -/

/-- Core clocks of a Montgomery multiplication of `l` words (R181). -/
def galMul (l : Nat) : Nat := (l * l + 7) / 8 + 2 * l + 16

/-- Is N a modulus length of R185? -/
def galBits (n : Nat) : Bool := decide (n % 128 = 0 ∧ 1024 ≤ n ∧ n ≤ 8192)

/-- RSA private operation with CRT (service 0x0001). -/
def galRsaPrivate (g : Galliard) : Nat × Galliard :=
  let n := g.arg.toNat
  let h := n / 16
  let part := fun (i : Nat) => galNat g (0x400 + i * h) h
  let x := galNat g 0 (n / 8)
  let p := part 0
  let q := part 1
  if galBits n = false ∨ p * q ≤ x then (stRange, g)
  else
    let m1 := powMod p (x % p) (part 2) (8 * h)
    let m2 := powMod q (x % q) (part 3) (8 * h)
    let d := (part 4 * ((m1 + p - m2 % p) % p)) % p
    (stOk, galPut g 0 (n / 8) (m2 + d * q))

/-- RSA public operation with e = 65,537 (service 0x0002). -/
def galRsaPublic (g : Galliard) : Nat × Galliard :=
  let n := g.arg.toNat
  let x := galNat g 0 (n / 8)
  let m := galNat g 0x400 (n / 8)
  if galBits n = false ∨ m ≤ x then (stRange, g)
  else (stOk, galPut g 0 (n / 8) (powMod m x 65537 17))

/-- The digest operand as its big-endian bytes. -/
def galDigest (g : Galliard) : List Byte := beBytes 48 (galNat g 0 48)

/-- ECDSA verify (services 0x0000 and 0x0003). -/
def galVerify (g : Galliard) : Nat :=
  let qx := galNat g 0xC0 48
  let qy := galNat g 0x100 48
  if onCurve bp384 qx qy = false then stInvalidKey
  else if ecdsaVerifyNat bp384 qx qy (galDigest g) (galNat g 0x40 48) (galNat g 0x80 48) then stOk else stVerifyFailed

/-- What a service answers: a status, the sequencer, and its core clocks; none where a signature draws a new k. -/
abbrev GalAnswer := Option (Nat × Galliard × Nat) × State

/-- ECDSA sign (services 0x0004 and 0xFF00): k from the sequencer's DRBG (R138). A DRBG without output ends the
service with INTEGRITY. -/
def galSign (n clocks : Nat) (g : Galliard) (s : State) : GalAnswer :=
  match drbgDraw (32 + n) 48 false s with
  | (none, s) => (some (stIntegrity, g, clocks), s)
  | (some kb, s) =>
    if beNat kb = 0 ∨ bp384.n ≤ beNat kb then (none, s)
    else match ecdsaWith bp384 (galNat g 0x40 48) (galDigest g) (beNat kb) with
    | some (r, v) => (some (stOk, galPut (galPut g 0x80 48 r) 0xC0 48 v, clocks), s)
    | none => (none, s)

/-- A service of a microprogram other than the standard one: the spec states nothing of what it leaves, so status,
operand memory and clocks are free. -/
def galUnknown (g : Galliard) (s : State) : GalAnswer :=
  let r := drawBytes 32768 s
  let st := drawBelow 14 1 r.2
  let c := drawWord st.2
  (some (st.1, galPut { g with mem := [] } 0 32768 (leNat r.1), c.1.toNat), c.2)

/-- Carry out the service that RUN started. The clocks of an RSA service are fixed by N (R181, R185); for an N outside R185
they are not given, and free. The working storage keeps what it held (DESIGN CHOICE, log 513). -/
def galService (n svc : Nat) (g : Galliard) (s : State) : GalAnswer :=
  let bits := g.arg.toNat
  let timed := fun (r : Nat × Galliard) (c : Nat) =>
    if galBits bits = false then
      let d := drawWord s
      ((some (r.1, r.2, d.1.toNat), d.2) : GalAnswer)
    else (some (r.1, r.2, c), s)
  if svc = 0 then (some (galVerify g, g, 440000), s)
  else if svc = 0xFF00 then galSign n 880000 g s
  else if g.mpId ≠ 1 then galUnknown g s
  else if svc = 1 then timed (galRsaPrivate g) (2 * (5 * bits / 8 + 16) * galMul (bits / 128) + 4 * galMul (bits / 64))
  else if svc = 2 then timed (galRsaPublic g) (19 * galMul (bits / 64))
  else if svc = 3 then (some (galVerify g, g, 440000), s)
  else if svc = 4 then galSign n 220000 g s
  else galUnknown g s

/-- A service ends (R182, R185, R186). -/
def galRunDone (n : Nat) (s : State) : State :=
  match (galOf s n).run with
  | .run svc =>
    match galService n svc (galOf s n) s with
    | (some (st, g, clocks), s) => galEnd n st (setGal n { g with cycles := BitVec.ofNat 32 clocks } s)
    | (none, s) => s
  | _ => s

/-- GALLIARD_RUN_DONE (R182, R185). -/
def execGalliardRunDone (n : Fin 4) (s : State) : Res := .next (galRunDone n.val s)

/-! ### The command register (R182, R185, R186) -/

/-- A command that ends at once without touching what runs. -/
def galRefuse (n st : Nat) (s : State) : State :=
  cause .pke (4 + n) (cause .pke n (setGal n { galOf s n with status := st } s))

/-- A value takes effect in PKE_GALn_CTL. -/
def galCommand (n v : Nat) (s : State) : State :=
  let g := galOf s n
  let start := fun (c : Nat) (r : GalRun) (u : State) => setGal n { galOf u n with
    ctl := c
    run := r } u
  if v = 0 ∨ 3 < v then galRefuse n (if g.run = .none then stUnsupported else stStateRefused) s
  else if v = 3 then
    match g.run with
    | .load => galRefuse n stStateRefused s
    | _ => galAbort n (setGal n { g with ctl := 3 } s)
  else if g.run ≠ .none then galRefuse n stStateRefused s
  else if v = 1 then setGal n { g with
    ctl := 1
    run := .load
    loaded := false
    code := []
    entries := [] } s
  else if g.service ≠ 0 ∧ g.service ≠ 0xFF00 ∧ g.loaded = false then galEnd n stStateRefused (start 2 .none s)
  else if g.service ≠ 0 ∧ g.service ≠ 0xFF00 ∧ (g.entries.any fun e => e.1 == g.service) = false then
    galEnd n stUnsupported (start 2 .none s)
  else start 2 (.run g.service) s

end Sys2Proof.Machine
end

