-- ==== Sys2Proof/Machine/ImageForm.lean ====
section
/-! DEFINITION. What an Aqley element says (02_aqley_image.md, R36 to R50) and the acceptance checks of R53. -/

namespace Sys2Proof.Machine

/-! ### Parsing (R36, R39, R40) -/

/-- Sections from the bytes of a body after its header, up to the first whose length does not fit, and whether every one
fits. -/
def parseSections : Nat → List Byte → List ImgSection × Bool
  | _, [] => ([], true)
  | 0, _ => ([], false)
  | f + 1, bs =>
    let n := leAt bs 4 4
    if bs.length < 8 ∨ n % 8 ≠ 0 ∨ bs.length < 8 + n then ([], false)
    else
      let r := parseSections f (bs.drop (8 + n))
      (⟨leAt bs 0 2, leAt bs 2 2, slice bs 8 n⟩ :: r.1, r.2)

/-- The sections of an element's bytes (R36, R40). -/
def bodySections (b : List Byte) : List ImgSection × Bool := parseSections 8192 ((b.take (leAt b 0x54 4)).drop 128)

/-- An element's fields, with the sections up to the first that does not parse. -/
def parseElement (b : List Byte) : Element where
  magic := leAt b 0 4
  version := leAt b 4 2
  kind := leAt b 6 1
  target := leAt b 7 1
  gen := leAt b 8 8
  parent := slice b 0x10 48
  serial := leAt b 0x40 16
  signer := leAt b 0x50 1
  sectCount := leAt b 0x52 2
  bodyLen := leAt b 0x54 4
  label := leAt b 0x58 8
  reserved := allZero (slice b 0x51 1) && allZero (slice b 0x60 32)
  sections := (bodySections b).1
  raw := b

/-- The element digest (R36). -/
def elementDigest (e : Element) : List Byte := sha384 (e.raw.take e.bodyLen)

/-- Is the element partial? -/
def isPartial (e : Element) : Bool := e.kind == 2

/-! ### Section payloads (R42 to R49) -/

def secPartition (d : List Byte) : Partition := ⟨leAt d 0 4, leAt d 4 4, leAt d 8 4, leAt d 12 4⟩

def secGable (d : List Byte) : GableCfg where
  mode := leAt d 0 1
  dispatch := leAt d 1 1
  ringCount := leAt d 2 1
  pipeWeight := leAt d 3 1
  trussMask := leAt d 4 4
  keyBase := leAt d 8 4
  keyCount := leAt d 0xC 4
  ctrBase := leAt d 0x10 4
  ctrCount := leAt d 0x14 4
  queueBase := leAt d 0x18 2
  queueCount := leAt d 0x1A 2
  cellQuota := leAt d 0x1C 2
  sealedBase := leAt d 0x20 8
  sealedLen := leAt d 0x28 8
  flashBase := leAt d 0x30 4
  flashSectors := leAt d 0x34 4
  resBase := leAt d 0x38 2
  resCount := leAt d 0x3A 2

def secRings (d : List Byte) : List RingCfg :=
  (chunks 8 d).map fun b => ⟨leAt b 0 1, leAt b 1 1, leAt b 2 1, leAt b 3 1, leAt b 4 2, leAt b 6 2⟩

def secWindows (d : List Byte) : List WindowCfg := (chunks 24 d).map fun b => ⟨leAt b 0 8, leAt b 8 8, leAt b 16 1⟩

def secGates (g : Nat) (d : List Byte) : List GateEntry :=
  (chunks 24 d).map fun b => ⟨g, leAt b 0 1, leAt b 1 1, leAt b 2 1, leAt b 3 1, leAt b 4 1, leAt b 8 8, leAt b 16 8, true⟩

def secPipe (d : List Byte) : PipeCfg := ⟨leAt d 0 1, (slice d 8 16).map (·.toNat)⟩

def secAlarm (d : List Byte) : List AlarmEntry := (chunks 4 d).map fun b => ⟨leAt b 1 1, leAt b 2 1⟩

/-- The element's section of a type and instance. -/
def sectionOf (e : Element) (typ inst : Nat) : Option (List Byte) :=
  (e.sections.find? fun x => x.typ == typ && x.inst == inst).map (·.data)

/-- The GABLE payload of gable `g` in an element. -/
def elemGable (e : Element) (g : Nat) : Option GableCfg := (sectionOf e 2 g).map secGable

/-! ### The structure after an element (R38, R63) -/

/-- Does the element vacate its gable (R41, R63)? -/
def vacates (e : Element) : Bool := isPartial e && ((elemGable e e.target).map (·.trussMask)) == some 0

/-- Take gable `g` out of a structure: its entries, rings, windows and gates go, and its pipeline slots become idle. -/
def dropGable (g : Nat) (l : Latches) : Latches :=
  { l with
    gables := SMap.set {} l.gables g {}
    rings := SMap.set [] l.rings g []
    windows := SMap.set [] l.windows g []
    gates := l.gates.filter fun x => x.gable != g }

/-- Put a gable's sections into a structure. -/
def putGable (e : Element) (g : Nat) (l : Latches) : Latches :=
  { l with
    gables := SMap.set {} l.gables g ((elemGable e g).getD {})
    rings := SMap.set [] l.rings g (((sectionOf e 3 g).map secRings).getD [])
    windows := SMap.set [] l.windows g (((sectionOf e 4 g).map secWindows).getD [])
    gates := l.gates ++ ((sectionOf e 5 g).map (secGates g)).getD [] }

/-- Put the element's PIPE sections into a structure; slots of a vacated gable become idle. -/
def putPipes (e : Element) (l : Latches) : Latches :=
  let gone := fun (g : Nat) => vacates e && g == e.target
  { l with pipes := (List.range 4).map fun p =>
      let old := l.pipes.getD p {}
      let new := ((sectionOf e 6 p).map secPipe).getD old
      { new with slots := new.slots.map fun g => if gone g then 0 else g } }

/-- Apply an element to a structure. -/
def applyElement (e : Element) (l : Latches) : Latches :=
  if isPartial e then
    let l := dropGable e.target l
    let l := if ((elemGable e e.target).map (·.trussMask)).getD 0 = 0 then l else putGable e e.target l
    putPipes e l
  else
    let base : Latches := {
      partition := ((sectionOf e 1 0).map secPartition).getD {}
      gates := ((sectionOf e 5 0).map (secGates 0)).getD []
      alarm := ((sectionOf e 7 0).map secAlarm).getD [] }
    putPipes e ((e.sections.filter fun x => x.typ == 2).foldl (fun l x => putGable e x.inst l) base)

/-- Is logical truss `t` occupied (R6, R462)? -/
def occupied (s : State) (t : Nat) : Bool := physOf s t != 0x3F

/-- A pipeline's slots as they are assigned: those of a gable that is not formed stay unassigned, and so idle (R61). -/
def slotsInForce (s : State) (p : PipeCfg) : PipeCfg := { p with slots := p.slots.map fun g => if formed s g then g else 0 }

/-- The structure in force: formed gables with the trusses and pipeline slots they have (R61). -/
def inForce (s : State) : Latches :=
  let l := s.img.latched
  { l with
    gables := l.gables.filterMap fun e =>
      if formed s e.1 then some (e.1, { e.2 with trussMask := trussMaskOf s e.1 }) else none
    pipes := l.pipes.map (slotsInForce s) }

/-! ### Check 10: sections (R40, R41) -/

/-- Index of the first section for which `f` fails. -/
def badSection (e : Element) (f : Nat → ImgSection → Bool) : Option Nat :=
  (e.sections.zipIdx.find? fun p => !f p.2 p.1).map (·.2)

/-- A section's type, instance and length, and its place after the one before it. -/
def sectionForm (e : Element) (i : Nat) (x : ImgSection) : Bool :=
  let g := elemGable e x.inst
  let after := match i with
    | 0 => true
    | k + 1 => match e.sections[k]? with
      | some y => decide (y.typ < x.typ) || (y.typ == x.typ && decide (y.inst < x.inst))
      | none => true
  let n := x.data.length
  let kind := if isPartial e then x.typ != 1 && x.typ != 7 && (x.typ == 6 || x.inst == e.target) else true
  let form := match x.typ with
    | 1 => x.inst == 0 && n == 32
    | 2 => decide (1 ≤ x.inst ∧ x.inst ≤ 63) && n == 64
    | 3 => (match g with
      | some c => n == 8 * c.ringCount
      | none => false)
    | 4 => g.isSome && decide (n % 24 = 0 ∧ 24 ≤ n ∧ n ≤ 384)
    | 5 => (x.inst == 0 || g.isSome) && decide (n % 24 = 0)
    | 6 => decide (x.inst ≤ 3) && n == 24
    | 7 => x.inst == 0 && n == 88
    | _ => false
  after && kind && form

/-- The sections that must be there. -/
def sectionsComplete (e : Element) : Bool :=
  let has := fun (t i : Nat) => (sectionOf e t i).isSome
  let gs := (e.sections.filter fun x => x.typ == 2).map (·.inst)
  (vacates e || gs.all fun g => has 3 g && has 4 g)
    && (if isPartial e then has 2 e.target else has 1 0 && has 7 0 && [0, 1, 2, 3].all fun p => has 6 p)

/-- Check 10: the section that fails, one whose length does not fit included (0xFFFF: the header). -/
def check10 (e : Element) : Option Nat :=
  if e.bodyLen % 8 ≠ 0 ∨ e.bodyLen < 128 then some 0xFFFF
  else match badSection e (sectionForm e) with
    | some i => some i
    | none =>
      if (bodySections e.raw).2 = false then some e.sections.length
      else if e.sectCount = e.sections.length ∧ sectionsComplete e = true then none
      else some 0xFFFF

/-! ### Check 11: field values (R42 to R49) -/

/-- Field values of a GABLE payload; `part` gives the service-program area. -/
def gableFields (e : Element) (p : Partition) (d : List Byte) : Bool :=
  let c := secGable d
  decide (c.mode ≤ 2) && decide (c.dispatch < 128) && (c.mode != 2 || decide (c.dispatch % 4 ≤ 1))
    && (if c.trussMask = 0 then isPartial e && decide (c.ringCount ≤ 64) else decide (1 ≤ c.ringCount ∧ c.ringCount ≤ 64))
    && (if c.mode = 2 then c.pipeWeight == 0 else decide (1 ≤ c.pipeWeight))
    && decide (c.keyBase < 2 ^ 24) && decide (c.keyBase + c.keyCount ≤ 2 ^ 24)
    && decide (c.ctrBase < 65536) && decide (c.ctrBase + c.ctrCount ≤ 65536)
    && decide (32 ≤ c.queueBase ∧ c.queueBase ≤ 2047) && decide (1 ≤ c.queueCount ∧ c.queueCount ≤ 2016)
    && decide (c.queueBase + c.queueCount ≤ 2048) && decide (64 ≤ c.cellQuota)
    && decide (c.sealedBase % 0x200000 = 0) && decide (c.sealedLen % 0x200000 = 0)
    && decide (c.sealedBase + c.sealedLen ≤ 0x80000000)
    && decide (16 ≤ c.flashSectors)
    && decide (c.flashBase + c.flashSectors ≤ 16384 - (5120 + p.keys + p.ctrj + p.cerj + p.life))
    && decide (c.resBase + c.resCount ≤ 65536)
    && allZero (slice d 0x1E 2) && allZero (slice d 0x3C 4)

/-- Field values of a RING payload. -/
def ringFields (d : List Byte) : Bool :=
  (secRings d).zipIdx.all fun p => p.1.ring == p.2 && decide (1 ≤ p.1.weight) && decide (1 ≤ p.1.burst ∧ p.1.burst ≤ 64)
    && decide (p.1.flags ≤ 1) && decide (4 ≤ p.1.maxLog2 ∧ p.1.maxLog2 ≤ 16)

/-- Field values of a WINDOW payload; windows of one function do not overlap (R45), which R53 gives to no check by name:
it is judged here, in check 11, and so is a window whose end lies beyond 2^64 (DESIGN CHOICE, logs 215, 216). -/
def windowFields (d : List Byte) : Bool :=
  let ws := secWindows d
  ws.all (fun w => decide (w.base % 4096 = 0) && decide (w.length % 4096 = 0) && decide (0 < w.length)
      && decide (w.base + w.length ≤ 2 ^ 64) && decide (1 ≤ w.access ∧ w.access ≤ 3))
    && (chunks 24 d).all (fun b => allZero (slice b 17 7))
    && ws.zipIdx.all (fun p => ws.zipIdx.all fun q => p.2 == q.2 || !overlaps p.1.base p.1.length q.1.base q.1.length)

/-- Field values of a GATE payload. -/
def gateFields (d : List Byte) : Bool :=
  (secGates 0 d).all (fun x => (decide (x.target ≤ 0x41) || decide (0x50 ≤ x.target ∧ x.target ≤ 0x5B))
      && decide (x.entry ≤ 15) && decide (x.perm ≤ 7) && decide (x.priv ≤ 2) && decide (x.cls ≤ 15) && decide (x.base ≤ x.limit))
    && (chunks 24 d).all fun b => allZero (slice b 5 3)

/-- Field values of a PIPE payload. -/
def pipeFields (d : List Byte) : Bool :=
  let p := secPipe d
  decide (p.kind ≤ 1) && allZero (slice d 1 7) && p.slots.all fun g => decide (g ≤ 63) && (p.kind == 1 || g == 0)

/-- Field values of an ALARM payload. A LEVEL above 5 is refused for a disabled source too (DESIGN CHOICE, log 212). -/
def alarmFields (d : List Byte) : Bool :=
  (chunks 4 d).zipIdx.all fun p => leAt p.1 0 1 == p.2 && decide (leAt p.1 1 1 ≤ 5) && decide (leAt p.1 2 1 ≤ 3)
    && leAt p.1 3 1 == 0

/-- Field values of a PARTITION payload. -/
def partitionFields (d : List Byte) : Bool :=
  let p := secPartition d
  decide (2048 ≤ p.keys ∧ p.keys ≤ 4096) && decide (256 ≤ p.ctrj ∧ p.ctrj ≤ 512) && decide (256 ≤ p.cerj ∧ p.cerj ≤ 512)
    && decide (512 ≤ p.life ∧ p.life ≤ 1024) && allZero (slice d 16 16)

/-- Check 11: the section that fails. -/
def check11 (s : State) (e : Element) : Option Nat :=
  let part := ((sectionOf e 1 0).map secPartition).getD s.img.latched.partition
  let head := (e.kind == 1 && e.target == 0) || (e.kind == 2 && decide (1 ≤ e.target ∧ e.target ≤ 63))
  if head = false then some 0xFFFF
  else badSection e fun _ x => match x.typ with
    | 1 => partitionFields x.data
    | 2 => gableFields e part x.data
    | 3 => ringFields x.data
    | 4 => windowFields x.data
    | 5 => gateFields x.data
    | 6 => pipeFields x.data
    | 7 => alarmFields x.data
    | _ => false

/-! ### Check 12: consistency (R46 to R48, R54) -/

/-- Do two gables share a range? -/
def gablesMeet (a b : GableCfg) : Bool :=
  a.trussMask &&& b.trussMask != 0
    || overlaps a.keyBase a.keyCount b.keyBase b.keyCount || overlaps a.ctrBase a.ctrCount b.ctrBase b.ctrCount
    || overlaps a.queueBase a.queueCount b.queueBase b.queueCount || overlaps a.resBase a.resCount b.resBase b.resCount
    || overlaps a.flashBase a.flashSectors b.flashBase b.flashSectors
    || overlaps a.sealedBase a.sealedLen b.sealedBase b.sealedLen

/-- A gable of the element against the structure: occupied trusses, the dispatch core's truss, no shared range. -/
def gableConsistent (s : State) (l : Latches) (g : Nat) (c : GableCfg) : Bool :=
  c.trussMask == 0
    || ((maskList c.trussMask).all (fun t => occupied s t) && bitOf c.trussMask (c.dispatch / 4)
      && l.gables.all fun q => q.1 == g || !gablesMeet c q.2)

/-- A tenant gable's gate entry names its own trusses, window or flash region; only gable 0's name a management block. -/
def gateOwn (c : GableCfg) (x : GateEntry) : Bool :=
  x.gable == 0
    || (decide (x.target < 0x40) && bitOf c.trussMask (x.target % 0x20))
    || (x.target == 0x40 && inside x.base (x.limit - x.base + 1) c.sealedBase c.sealedLen)
    || (x.target == 0x41 && inside x.base (x.limit - x.base + 1) (c.flashBase * 4096) (c.flashSectors * 4096))

/-- At most 16 entries on a target, and no two with one index (R46). -/
def gatesDistinct (l : Latches) (t : Nat) : Bool :=
  let es := (l.gates.filter fun x => x.target == t).map (·.entry)
  decide (es.length ≤ 16) && distinct es

/-- Pipelines of a structure (R48). -/
def pipesConsistent (e : Element) (l : Latches) : Bool :=
  let pav := fun (g : Nat) => (SMap.get {} l.gables g).trussMask != 0 && (SMap.get {} l.gables g).mode == 2
  let gs := l.gables.filter fun q => q.2.trussMask != 0
  l.pipes.all (fun p => p.slots.all fun g => g == 0 || pav g)
    && (isPartial e || !(gs.any fun q => q.2.mode != 2) || l.pipes.any fun p => p.kind == 0)
    && gs.all (fun q => q.2.mode != 2 || l.pipes.any fun p => p.kind == 1 && p.slots.contains q.1)

/-- Check 12: the first section at which the structure after the element breaks R54; 0xFFFF where no section names it.
The sections of a gable that the element vacates are no part of that structure. -/
def check12 (s : State) (e : Element) : Option Nat :=
  let l := applyElement e (inForce s)
  let bad := badSection e fun _ x => (vacates e && decide (x.typ ≠ 6)) || match x.typ with
    | 2 => gableConsistent s l x.inst (secGable x.data)
    | 3 => let c := SMap.get {} l.gables x.inst
      (secRings x.data).all fun r => inside r.queue 1 c.queueBase c.queueCount
    | 5 => (secGates x.inst x.data).all fun y => gateOwn (SMap.get {} l.gables x.inst) y && gatesDistinct l y.target
    | _ => true
  match bad with
  | some i => some i
  | none =>
    if (l.gables.map fun q => q.2.cellQuota).sum ≤ 31744 ∧ pipesConsistent e l = true then none else some 0xFFFF

/-! ### Checks 13 to 16 and the signature (R50, R53) -/

/-- Check 13: PIPE sections of a partial element change only slots of TARGET or idle ones, and keep KIND; its resources
are unassigned or TARGET's own by check 12. -/
def check13 (s : State) (e : Element) : Option Nat :=
  if isPartial e = false then none
  else badSection e fun _ x =>
    if x.typ = 6 then
      let old := slotsInForce s (s.img.latched.pipes.getD x.inst {})
      let new := secPipe x.data
      old.kind == new.kind && (List.range 16).all fun k =>
        let a := old.slots.getD k 0
        let b := new.slots.getD k 0
        a == b || ((a == 0 || a == e.target) && (b == 0 || b == e.target))
    else true

/-- Check 14: modes at or above the fused minimum, levels in their ranges (a disabled source's is ignored). -/
def check14 (s : State) (e : Element) : Option Nat :=
  badSection e fun _ x => match x.typ with
    | 2 => (secGable x.data).trussMask == 0 || decide (minMode s ≤ (secGable x.data).mode)
    | 7 => (secAlarm x.data).zipIdx.all fun p =>
      srcDisabled s p.2 || decide (levelLow s p.2 ≤ p.1.level ∧ p.1.level ≤ (sourceRow p.2).hi)
    | _ => true

/-- Check 15. -/
def check15 (s : State) (e : Element) : Option Nat :=
  if lifecycle s = lcFactory ∨ lifecycle s = lcShipped then none
  else badSection e fun _ x => x.typ != 1 || secPartition x.data == s.img.latched.partition

/-- May the signer's key sign in the present lifecycle state (check 4)? -/
def signerAllowed (s : State) (signer : Nat) : Bool :=
  if lifecycle s = lcDev then decide (signer ≤ 1)
  else if lifecycle s = lcFactory ∨ lifecycle s = lcShipped then signer == 0
  else lifecycle s == lcOwned && signer == 1

/-- The image-key digest of a signer (R50). -/
def imageKeyDigest (s : State) (signer : Nat) : List Byte := if signer = 0 then Config.novquinImageDigest else ownerDigest s

/-- The 200 bytes after the signed body. -/
def sigBlock (e : Element) : List Byte := slice e.raw e.bodyLen 200

/-- Check 5: the signature block's form and its key. R53 names no check for the form; that a wrong TYPE, reserved bits or
LENGTH fails here, with INVALID_KEY, is the model's choice (DESIGN CHOICE, log 211). -/
def keyMatches (s : State) (e : Element) : Bool :=
  sigBlockForm (sigBlock e) && sha384 (sigBlockKey (sigBlock e)) == imageKeyDigest s e.signer

/-- Check 6. -/
def signatureOk (e : Element) : Bool := sigBlockOk (sigBlock e) (e.raw.take e.bodyLen)

/-- Checks 2 and 3 on an element's own bytes. -/
def headerOk (e : Element) : Bool := e.magic == 0x594C5141 && e.version == 1
def lengthOk (e : Element) : Bool := e.raw.length == e.bodyLen + 200 && e.reserved

/-! ### Structure records in flash (R37, R57) -/

/-- Flash address of an image slot: 0 A, 1 B. -/
def slotAddr (k : Nat) : Nat := (4096 + 512 * k) * 4096

/-- Bytes of an image slot. -/
abbrev slotSize : Nat := 2097152

/-- The elements of a slot's record from offset `o`: the list ends at a word of all ones, and an element that runs out of
the slot ends it too. An element that does not read is none that passes a check (R349). -/
def readRecord (s : State) (k : Nat) : Nat → Nat → List Element
  | 0, _ => []
  | f + 1, o =>
    if slotSize ≤ o ∨ flashWord s ((slotAddr k + o) / 8) = erasedWord then []
    else if flashReads s (slotAddr k + o) (min 128 (slotSize - o)) = false then [parseElement []]
    else
      let n := leAt (flashBytes s (slotAddr k + o) (min 128 (slotSize - o))) 0x54 4 + 200
      let m := min n (slotSize - o)
      parseElement (if flashReads s (slotAddr k + o) m then flashBytes s (slotAddr k + o) m else []) :: readRecord s k f (o + roundUp 8 (max 8 m))

/-- The record of a slot. -/
def slotRecord (s : State) (k : Nat) : List Element := readRecord s k 257 0

/-- Bytes that a slot's record occupies. -/
def recordLen (es : List Element) : Nat := (es.map fun e => e.raw.length).sum

/-- An element of a record passes checks 2, 3, 5, 6, 7 and 10 (R57). -/
def elementAuthentic (s : State) (e : Element) : Bool :=
  headerOk e && lengthOk e && keyMatches s e && signatureOk e && (e.serial == 0 || e.serial == serialOf s) && (check10 e).isNone

/-- The chain rule of R37 from an element on. -/
def chainOk : List Element → Bool
  | [] => true
  | [_] => true
  | x :: y :: es => y.gen == x.gen + 1 && y.parent == elementDigest x && isPartial y && chainOk (y :: es)

/-- Is a record authentic (R57)? -/
def recordAuthentic (s : State) (es : List Element) : Bool :=
  (match es.head? with
    | some e => !isPartial e
    | none => false)
    && decide (es.length ≤ 256) && es.all (fun e => elementAuthentic s e) && chainOk es

/-- Check 16: a partial element fits in both slots, and the record then holds at most 255 partial elements. -/
def check16 (s : State) (e : Element) : Bool :=
  !isPartial e || [0, 1].all fun k =>
    let es := slotRecord s k
    decide (recordLen es + e.raw.length ≤ slotSize) && decide (es.length ≤ 255)

/-! ### The checks in order (R53) -/

/-- The first check of R53 that fails for the bytes of a STAGE of `len`: number, SECTION and status. -/
def stageChecks (s : State) (len : Nat) (b : List Byte) : Option (Nat × Nat × Nat) :=
  let e := parseElement b
  let hdr := fun (ok : Bool) (n st : Nat) => (if ok then none else some (n, 0xFFFF, st) : Option (Nat × Nat × Nat))
  let sec := fun (r : Option Nat) (n st : Nat) => r.map fun i => (n, i, st)
  [ hdr (decide (len % 8 = 0 ∧ 336 ≤ len ∧ len ≤ 1048576)) 1 stRange,
    hdr (headerOk e) 2 stUnsupported,
    hdr (lengthOk e) 3 stRange,
    hdr (signerAllowed s e.signer) 4 stNotPermitted,
    hdr (keyMatches s e) 5 stInvalidKey,
    hdr (signatureOk e) 6 stVerifyFailed,
    hdr (e.serial == 0 || e.serial == serialOf s) 7 stNotPermitted,
    hdr (!retiredLc s && s.img.wasIdle) 8 stStateRefused,
    hdr (e.gen == s.img.gen + 1 && e.parent == s.img.digest) 9 stStateRefused,
    sec (check10 e) 10 stRange,
    sec (check11 s e) 11 stRange,
    sec (check12 s e) 12 stRange,
    sec (check13 s e) 13 stNotPermitted,
    sec (check14 s e) 14 stPolicyRefused,
    sec (check15 s e) 15 stStateRefused,
    hdr (check16 s e) 16 stExhausted ].findSome? id

end Sys2Proof.Machine
end

