-- ==== Sys2Proof/Machine/Resets.lean ====
section
/-! DEFINITION. Resets (R98, R377, R379, R384, R452, R456): function-level reset of a tenant function, the vault's
zeroisation, device reset, and the loss of main power. -/

namespace Sys2Proof.Machine

/-- A function-level reset of function `f` (R98, R449): engines are cleared, forwarded commands are cancelled, and the
HQI forgets the function's commands and rings. -/
def functionReset (f : Nat) (s : State) : State := flrHqi f (cancelForwards f (flrEngines f s))

/-- Vault zeroisation (R377): from here on sealed memory cannot be read. -/
def zeroiseVault (s : State) : State :=
  { s with
    eav := { s.eav with
      vault := []
      vaultZero := true }
    msu := { s.msu with rootOk := false } }

/-- Latch pending work (R377, R378, R394): bit 0 key-area erasure, 1 LC to TERMINAL, 2 terminal erasure, 3 LC to
DECOMMISSIONED. -/
def latchPending (v : BitVec 4) (s : State) : State := { s with eav := { s.eav with pend := s.eav.pend ||| v } }

/-- Is source `n` active (R369)? An event detection makes it so for its arbitration step. One whose DISABLE fuse is blown is
not active (R391). -/
def srcActive (s : State) (n : Nat) : Bool :=
  (s.eav.active.getLsbD n || s.eav.detected.any fun e => e.1 == n) && !srcDisabled s n

/-- Is any active source's level at or above `l`? -/
def activeAt (s : State) (l : Nat) : Bool := (List.range srcCount).any fun n => srcActive s n && decide (l ≤ levelOf s n)

/-- Does any active source have exactly level `l`? -/
def activeWith (s : State) (l : Nat) : Bool := (List.range srcCount).any fun n => srcActive s n && levelOf s n == l

/-- ROOT_LOCK (R384): while a source at ZEROIZE or above is active, the storage root and the KSRK stay zero. -/
def refreshLock (s : State) : State :=
  if activeAt s 4 then
    { (putVault 0x20 (List.replicate 64 0) s) with
      eav := { (putVault 0x20 (List.replicate 64 0) s).eav with rootLock := true } }
  else { s with eav := { s.eav with rootLock := false } }

/-- HELD after a device reset (R379): formed from the sources that are still active, capped at PURGE. -/
def reformHeld (s : State) : State :=
  { s with eav := { s.eav with
    holdThr := activeWith s 1
    holdSus := activeWith s 2
    holdPurge := activeAt s 3 } }

/-- What a slot keeps when the main die is reset: whether a slate is present. -/
def slotsReset (s : State) : SltState :=
  { slots := s.slt.slots.foldl (fun m e => SMap.set {} m e.1 { present := e.2.present }) [] }

/-- The main die without what it held: the Eave die, the flash die, retained fields and lands stay. The boot ROM goes on
with the partition that was latched last (DESIGN CHOICE, log 1601). -/
def clearMainDie (s : State) : State :=
  let s := abandonFlash s
  { s with
    hqi := {}
    rfb := {}
    img := { latched := { partition := s.img.latched.partition } }
    gte := {}
    msu := {}
    ks := {}
    flc := {}
    slt := slotsReset s
    btn := {}
    sys := {}
    tel := {}
    cores := []
    trusses := []
    pke := {}
    sym := {}
    svc := {}
    pairs := []
    eav := { s.eav with
      cause := 0
      mask := 0
      isrc := 0
      ackRef := false
      lastLevel := 0
      aonLatch := 0
      ackCtl := 0
      ringCtl := 0 }
    elec := { s.elec with
      vidUse := .none
      vidOld := none
      vidTry := 0 } }

/-- A device reset (R456) with its reason: the main die is reset and waits for its boot ROM. The lifetime counts and the
truss map are lost only with main power (R474). -/
def deviceReset (reason : Nat) (s : State) : State :=
  let tel := { s.tel with
    cause := 0
    mask := 0 }
  let map := s.sys.map
  let s := clearMainDie s
  refreshLock (reformHeld { s with
    tel := tel
    sys := { s.sys with
      power := .inReset
      rstReason := reason
      map := map } })

/-- Main power goes (R452): sources monitored only with it become inactive, and the Eave die runs on in Standby, or in
Vault without VAON. The MSU root is lost (R231). -/
def powerLoss (p : PowerPhase) (s : State) : State :=
  let s := putVault 0 (List.replicate 32 0) (clearMainDie s)
  { s with
    sys := { s.sys with power := p }
    elec := { s.elec with
      mainOk := false
      jtag := .idcode }
    eav := { s.eav with
      active := BitVec.ofNat 22 (((List.range srcCount).filter fun n => s.eav.active.getLsbD n && !srcDisabled s n && !mainOnly n).foldl (fun a n => a + 2 ^ n) 0)
      holdThr := false
      holdSus := false
      holdPurge := false } }

/-- The staging buffer and any approval go, and STATE is IDLE (R55). -/
def clearStaging (s : State) : State :=
  let s := clearStageBuf s
  { s with img := { s.img with
    phase := .idle
    staging := []
    staged := none
    fetched := none
    sdig := List.replicate 48 0 } }

end Sys2Proof.Machine
end

