-- ==== Sys2Proof/Machine/Packages.lean ====
section
/-! DEFINITION. Service packages (04_transaction_services.md, R152 to R156): their form, where they are stored, and
their installation. -/

namespace Sys2Proof.Machine

/-- One opcode entry of a package: OPCODE, FLAGS, ENTRY, BUDGET. -/
def pkgOpcode (b : List Byte) (k : Nat) : Nat × Nat × Nat × Nat :=
  let o := 0x20 + 16 * k
  (leAt b o 2, leAt b (o + 2) 2, leAt b (o + 4) 4, leAt b (o + 8) 4)

/-- Ascending and unique. -/
def ascending : List Nat → Bool
  | [] => true
  | [_] => true
  | x :: y :: xs => decide (x < y) && ascending (y :: xs)

/-- Length of the package that a header announces. -/
def pkgLen (b : List Byte) : Nat := 32 + 16 * leAt b 6 2 + leAt b 8 4 + 96

/-- A package whose every field obeys R152, and whose length is what they give. -/
def parsePackage (b : List Byte) : Option Package :=
  let n := leAt b 6 2
  let img := leAt b 8 4
  let ops := (List.range n).map (pkgOpcode b)
  let ok := b.take 4 == leBytes 4 0x4D475250 && leAt b 4 2 == 1 && decide (1 ≤ n ∧ n ≤ 256)
    && decide (img % 8 = 0 ∧ 8 ≤ img ∧ img ≤ 131072) && leAt b 0xC 4 != 0 && allZero (slice b 0x18 8)
    && b.length == pkgLen b
    && ascending (ops.map (·.1))
    && ops.all (fun o => decide (0x8000 ≤ o.1) && decide (o.2.1 ≤ 1) && decide (o.2.2.1 % 4 = 0 ∧ o.2.2.1 < img)
      && decide (1 ≤ o.2.2.2))
    && (List.range n).all (fun k => allZero (slice b (0x2C + 16 * k) 4))
  if ok then some ⟨leAt b 0xC 4, slice b (32 + 16 * n) img, ops⟩ else none

/-- Does a package's signature verify under a brainpoolP384r1 public key? -/
def pkgSigOk (pub b : List Byte) : Bool :=
  ecdsaCheck bp384 pub (sha384 (b.take (b.length - 96))) (b.drop (b.length - 96))

/-- First flash address of a gable's region. -/
def regionAddr (s : State) (g : Nat) : Nat := (svcAreaBase s.img.latched.partition + (gableCfg s g).flashBase) * 4096

/-- The bytes of the package that the gable's region holds. -/
def storedPackage (s : State) (g : Nat) : List Byte :=
  let h := flashBytes s (regionAddr s g) 32
  if h.take 4 = leBytes 4 0x4D475250 ∧ pkgLen h ≤ (gableCfg s g).flashSectors * 4096 ∧ flashReads s (regionAddr s g) (pkgLen h) = true then
    flashBytes s (regionAddr s g) (pkgLen h)
  else []

/-- Put bytes at offset 0x0002_0000 of the SRAM of every truss of the gable, and invalidate the instruction caches of
its cores (R154, R283). -/
def putImage (g : Nat) (img : List Byte) (s : State) : State :=
  (maskList (trussMaskOf s g)).foldl (fun t n =>
    (coresOfTruss n).foldl (fun u k => u.updCore k fun c => { c with icache := [] })
      (t.updTruss n fun x => { x with sram := Memory.write 0 x.sram 0x20000 img })) s

/-- Install a package's image (R154). -/
def installPackage (g : Nat) (p : Package) (s : State) : State :=
  let s := putImage g p.image s
  { s with svc := { s.svc with pkgs := SMap.set none s.svc.pkgs g (some p) } }

/-- Does the gable's region hold a package, whatever its state? -/
def holdsPackage (s : State) (g : Nat) : Bool :=
  !(SMap.get [] s.flash.pkgKeys g).isEmpty
    || (decide (0 < (gableCfg s g).flashSectors) && flashBytes s (regionAddr s g) 4 == leBytes 4 0x4D475250)

/-- The runtime of gable `g` raises the gable's integrity event (R153). -/
def packageAlarm (g : Nat) (s : State) : State :=
  if s.svc.alarms.contains g then s else { s with svc := { s.svc with alarms := s.svc.alarms ++ [g] } }

/-- The gable runtime starts (R153): it verifies the stored package again and installs it; a package that fails there is not
installed, and the gable's integrity event is raised. -/
def startRuntime (g : Nat) (s : State) : State :=
  let s := { s with svc := { s.svc with
    pkgs := SMap.set none s.svc.pkgs g none
    waiting := SMap.set none s.svc.waiting g none } }
  let c := gableCfg s g
  let s := noteSectors (svcAreaBase s.img.latched.partition + c.flashBase) c.flashSectors s
  let b := storedPackage s g
  match parsePackage b with
  | some p => if pkgSigOk (SMap.get [] s.flash.pkgKeys g) b then installPackage g p s else packageAlarm g s
  | none => if holdsPackage s g then packageAlarm g s else s

end Sys2Proof.Machine
end

