-- ==== Sys2Proof/Machine/Sym.lean ====
section
/-! DEFINITION. The symmetric ports' shared operations (06_symmetric_hash_counters.md): requests, sources, chains,
key loads. -/

namespace Sys2Proof.Machine

/-! ### Requests (R189 to R191) -/

/-- Is a FLAGS value free of bits that OP reserves (R191)? -/
def flagsOk (op flags : Nat) : Bool :=
  if op = 1 ∨ op = 3 ∨ op = 5 ∨ op = 10 then decide (flags < 2)
  else if op = 4 then decide (flags < 3)
  else if op = 6 then decide (flags < 256) && decide (flags % 8 < 4) && decide (flags / 8 % 8 < 3)
  else if op = 7 then decide (flags < 8) && decide (flags % 4 < 3)
  else if op = 8 ∨ op = 9 then decide (flags < 4)
  else decide (flags = 0)

/-- The request that the port's fields describe. -/
def portRequest (p : SymPort) : PortReq :=
  let b := Memory.read 0 p.mem 0 0x80
  let cmd := leAt b 0 4
  { op := cmd % 256, ch := cmd / 256 % 2, flags := cmd / 65536, resv := decide (cmd / 512 % 128 ≠ 0 ∨ leAt b 4 4 ≠ 0), argA := leAt b 8 8,
    argB := leAt b 16 8, len := leAt b 0x18 4, use := leAt b 0x1C 4, data := slice b 0x40 64 }

/-- Source kind of a request, where its OP has one. -/
def sourceKind (r : PortReq) : Option Nat := if r.op = 6 ∨ r.op = 8 ∨ r.op = 9 then some (r.flags % 8) else none

/-! ### Chains (R194 to R197) -/

/-- The chain bound to core `n` as its chain `ch`. -/
def boundChain (s : State) (n ch : Nat) : Option Nat :=
  (s.sym.chains.find? fun e => e.2.core == some (n, ch)).map (·.1)

/-- Chains of pipeline `p` that are free. -/
def freeChains (s : State) (p : Nat) : List Nat :=
  ((List.range 30).map (30 * p + ·)).filter fun k => (chainOf s k).core.isNone

/-- Pipeline `p` (R26). -/
def pipeOf (s : State) (p : Nat) : Pipe := SMap.get {} s.sym.pipes p

/-- Put a pipeline. -/
def setPipe (p : Nat) (x : Pipe) (s : State) : State := { s with sym := { s.sym with pipes := SMap.set {} s.sym.pipes p x } }

/-- Frame slots of pipeline `p` that gable `g` owns. -/
def slotsOwned (s : State) (p g : Nat) : Nat := ((pipeOf s p).slots.filter (· == g)).length

/-- Chains of pipeline `p` that gable `g` holds. -/
def gableChains (s : State) (p g : Nat) : Nat :=
  ((List.range 30).filter fun i => match (chainOf s (30 * p + i)).core with
    | some (n, _) => gableOfCore s n == g
    | none => false).length

/-- May gable `g` take `k` chains of pipeline `p` now (R195)? -/
def pipeOffers (s : State) (g k p : Nat) : Bool :=
  decide (k ≤ (freeChains s p).length)
    && (if isPavane s g then
        (pipeOf s p).kind == 1 && decide (0 < slotsOwned s p g)
          && decide (gableChains s p g + k ≤ max 2 (30 * slotsOwned s p g / 16))
      else (pipeOf s p).kind == 0)

/-- The pipeline that CHAIN_OPEN binds on: the one with the most free chains, the lowest number on a tie (R195). -/
def openPipe (s : State) (g k : Nat) : Option Nat :=
  ((List.range 4).filter fun p => pipeOffers s g k p).foldl (fun (b : Option Nat) p =>
    match b with
    | some q => if (freeChains s q).length < (freeChains s p).length then some p else some q
    | none => some p) none

/-- Bind `k` chains of pipeline `p` to core `n`. -/
def bindChains (n k p : Nat) (s : State) : State :=
  (((freeChains s p).take k).zipIdx).foldl (fun t q => setChain q.1 { core := some (n, q.2) } t) s

/-- Does the pipeline's current frame slot belong to the gable, or is it work-conserving (R197)? -/
def slotAdmits (s : State) (k g : Nat) : Bool :=
  let p := pipeOf s (k / 30)
  p.kind == 0 || p.slots.getD p.slot 0 == g

/-! ### Sources (R192) -/

/-- The tag of a port's source fetch (R327, R328): the level is the core's as it wrote GO. -/
def portTag (s : State) (n : Nat) (r : PortReq) : Tag := ⟨gableOfCore s n, r.pl, 2, 1, 0, 0, false⟩

/-- May a request read host memory: its function is the core's gable's, and the extent lies in a READ window (R192, R94)? -/
def hostSourceOk (s : State) (n : Nat) (r : PortReq) : Bool :=
  r.argB % 64 == gableOfCore s n && inWindow s (gableOfCore s n) r.argA r.len 0

/-- Fetch a source of `len` bytes: a status, the bytes where it is OK, and the state. `host` is what the HQI read. No bytes need no access. The
warden has no truss SRAM: its gate finds nothing there. -/
def fetchSource (n : Nat) (r : PortReq) (kind : Nat) (host : HostData) (s : State) : Nat × List Byte × State :=
  if r.len = 0 then (stOk, [], s)
  else if kind = 0 then
    let a := gate (portTag s n r) (if n = wardenNum then tgtNone else trussOf n) r.argA r.len kRead s
    if a.1 then (stOk, Memory.read 0 (s.truss (trussOf n)).sram r.argA r.len, a.2) else (stNotPermitted, [], a.2)
  else if kind = 1 then
    if hostSourceOk s n r = false then (stNotPermitted, [], s)
    else match host with
      | .ok b => (stOk, padTo r.len b, s)
      | .poison => (stIntegrity, [], s)
      | .ecrc => (stIntegrity, [], s)
      | .ur => (stAborted, [], s)
      | .ca => (stAborted, [], s)
  else if kind = 2 then
    let a := gate (portTag s n r) tgtSealed r.argA r.len kRead s
    if a.1 then
      match msuRead r.argA r.len true true a.2 with
      | (some b, t) => (stOk, b, t)
      | (none, t) => (stIntegrity, [], t)
    else (stNotPermitted, [], a.2)
  else if 64 < r.len then (stRange, [], s)
  else (stOk, r.data.take r.len, s)

/-! ### Key loads (R193, R198, R202) -/

/-- The policy check of a load (R198, step 3): usage, mode bit, PAVANE_ONLY. -/
def loadPolicy (s : State) (g usage mode : Nat) (k : LoadedKey) : Bool :=
  pUsage k.policy == usage
    && (if mode = 0 then pBit k.policy 16 else if mode = 1 then pBit k.policy 17 else if mode = 2 then pBit k.policy 20
        else pBit k.policy 18 || pBit k.policy 19)
    && (!pBit k.policy 23 || isPavane s g)

/-- A comparison of the two Pavane loaders fails (R202). -/
def loaderMismatch (p : Nat) (s : State) : State := raise srcLockstep [3, BitVec.ofNat 8 p] (cause .sym 1 s)

/-- A whole key load for core `n` of a handle in range: resolution, authentication, policy, comparison, on-use check. `p`
is the pipeline whose loaders work. -/
def portLoad (n h usage mode p : Nat) (mismatch : Bool) (s : State) : Nat × Option LoadedKey × State :=
  let g := gableOfCore s n
  match openKey g h s with
    | (st, none, t) => (st, none, t)
    | (_, some k, t) =>
      if loadPolicy t g usage mode k = false then (stPolicyRefused, none, t)
      else if isPavane t g = true ∧ mismatch = true then (stIntegrity, none, loaderMismatch p t)
      else if onUseOk k then (stOk, some k, t) else (stInvalidKey, none, t)

/-- Does a counter index belong to a gable (R193)? -/
def ctrOwned (s : State) (g c : Nat) : Bool :=
  let mine := fun (x : Nat) => inside c 1 (gableCfg s x).ctrBase (gableCfg s x).ctrCount
  if g = 0 then decide (c < 65536) && !((formedGables s).any mine) else mine g

/-! ### Derived keys (R198) -/

/-- Is a policy word an allowed combination (R109)? -/
def policyAllowed (p : Word) : Bool :=
  let a := pAlg p
  let u := pUsage p
  let enc := pBit p 16
  let dec := pBit p 17
  let wrap := pBit p 18
  let unwrap := pBit p 19
  let der := pBit p 20
  let ed := !wrap && !unwrap && !der
  let d := !wrap && !unwrap && !enc && !dec
  fld p 24 8 == 0 && (enc || dec || wrap || unwrap || der)
    && (if u = 1 ∨ u = 2 then (algTdes a || algAes a) && ed
        else if u = 3 ∨ u = 4 then (a == 1 || algAes a) && d
        else if u = 5 ∨ u = 6 then algTdes a && ed
        else if u = 7 then (algTdes a || algAes a) && ed
        else if u = 8 then a == 6 && ed
        else if u = 9 then a == 1 && ed
        else if u = 0xA then (a == 1 || algAes a) && d
        else if u = 0xB then algAes a && !enc && !dec && !der
        else if u = 0xC ∨ u = 0xD then ed && ((algPrivate a && enc && !dec) || (algPublic a && dec && !enc))
        else if u = 0xE then ed && algPublic a && dec && !enc
        else if u = 0xF then ed && a == 0x13 && dec && !enc
        else if u = 0x10 then (algTdes a || algAes a || a == 6) && !wrap && !unwrap
        else false)
    && (!(pBit p 21 || pBit p 22)
      || algTdes a || algAes a || a == 6 || (algPrivate a && (u == 0xC || u == 0xD)))

/-- The bytes that DERIVE computes from LEN bytes of input (R198). -/
def deriveBytes (k : KeyMat) (form len : Nat) (data : List Byte) : List Byte :=
  let key := if form = 2 then xorBytes k.secret (slice data 32 32) else k.secret
  let f := blockEnc (pAlg k.policy) key
  let n := algBlock (pAlg k.policy)
  (chunks n (data.take len)).flatMap fun b => if form = 1 then xorBytes (f b) b else f b

/-- What a DERIVE refuses before a loader takes it up (R198, R109); OK where it may go on. -/
def deriveChecks (s : State) (n : Nat) (r : PortReq) : Nat :=
  match (boundChain s n r.ch).bind fun c => (chainOf s c).key with
  | none => stStateRefused
  | some k =>
    let policy : Word := BitVec.ofNat 32 r.use
    firstFail
      [(pBit k.policy 20 && (algTdes (pAlg k.policy) || algAes (pAlg k.policy)), stPolicyRefused),
       ((boundChain s n (1 - r.ch)).isSome, stStateRefused),
       (decide (8 ≤ r.len ∧ r.len ≤ 32) && decide (r.len % algBlock (pAlg k.policy) = 0), stRange),
       (policyAllowed policy, stPolicyRefused), (keyLenOk (pAlg policy) r.len, stRange)]

/-- What KEY_LOAD and an HMAC's SHA_INIT refuse before a loader takes them up: a handle outside the gable's range (R193),
then a chain that is not bound, or the warden's WMA unit, which does not exist. -/
def loadChecks (s : State) (n : Nat) (r : PortReq) : Nat :=
  let wma := r.op == 3 && bitOf r.flags 0
  firstFail
    [(handleInRange s (gableOfCore s n) r.argA, stNotPermitted),
     (if wma then decide (n ≠ wardenNum) else (boundChain s n r.ch).isSome, stStateRefused)]

/-! ### The loaders (R16, R26, R197) -/

/-- Does a request of core `n` need a key loader? -/
def needsLoader (s : State) (n : Nat) (r : PortReq) : Bool :=
  if r.op = 3 ∨ (r.op = 7 ∧ bitOf r.flags 2 = true) then loadChecks s n r == stOk
  else r.op == 4 && deriveChecks s n r == stOk

/-- The pipeline whose loaders serve a gable's load without a chain: the lowest-numbered one that the gable may use. -/
def gablePipe (s : State) (g : Nat) : Option Nat :=
  (List.range 4).find? fun p => if isPavane s g then (pipeOf s p).kind == 1 && decide (0 < slotsOwned s p g)
    else (pipeOf s p).kind == 0

/-- The pipeline whose loaders serve a request of core `n`: its chains' one, or the gable's. -/
def loaderPipe (s : State) (n : Nat) (r : PortReq) : Nat :=
  match boundChain s n r.ch with
  | some k => k / 30
  | none => (gablePipe s (gableOfCore s n)).getD 0

/-- A load that waits for the loaders of a pipeline: its gable, its place among the gable's chains, and who asks. -/
structure LoadAsk where
  gable : Nat
  rank  : Nat
  who   : Asker
deriving DecidableEq, Repr

/-- The loads that wait for pipeline `p`. Loads of ports come by their chain; those without one follow by core, and those of
native commands after them. -/
def loadAsks (s : State) (p : Nat) : List LoadAsk :=
  (s.sym.ports.filterMap fun e => match e.2.req with
      | some r => if r.begun.isNone && needsLoader s e.1 r && loaderPipe s e.1 r == p then
          some ⟨gableOfCore s e.1, match boundChain s e.1 r.ch with
            | some k => k % 30
            | none => 30 + e.1, .port e.1⟩
        else none
      | none => none)
    ++ (s.hqi.cmds.filter fun c => c.load == some p && !c.begun && !c.finished).map
      (fun c => ⟨c.ref.fn, 200 + c.core.getD 0, .cmd c.ref⟩)

/-- Loads that the loaders of pipeline `p` carry out now. -/
def liveLoads (s : State) (p : Nat) : Nat :=
  (s.sym.ports.filter fun e => match e.2.req with
      | some r => r.begun == some p
      | none => false).length
    + (s.hqi.cmds.filter fun c => c.load == some p && c.begun && !c.finished).length

/-- LOADS of R216: loaders busy. A load of a Pavane pipeline occupies both. -/
def loadersBusy (s : State) (p : Nat) : Nat :=
  if (pipeOf s p).kind = 1 then (if liveLoads s p = 0 then 0 else 2) else min 2 (liveLoads s p)

/-- The next ask of a gable in ascending chain order; `last` is one above the place last served. -/
def firstAsk (last : Nat) (g : Nat) (asks : List LoadAsk) : Option LoadAsk :=
  let least := fun (l : List LoadAsk) => l.foldl (fun (b : Option LoadAsk) x => match b with
    | some y => if x.rank < y.rank then some x else some y
    | none => some x) none
  let mine := asks.filter fun x => x.gable == g
  (least (mine.filter fun x => decide (last ≤ x.rank))).or (least mine)

/-- A load begins on pipeline `p`. -/
def beginLoad (p : Nat) (x : LoadAsk) (s : State) : State :=
  match x.who with
  | .port n => setPort n { portOf s n with req := (portOf s n).req.map fun r => { r with begun := some p } } s
  | .cmd r => { s with hqi := { s.hqi with cmds := s.hqi.cmds.map fun c => if c.ref = r then { c with begun := true } else c } }

/-- Loads of a gable in each round of a work-conserving pipeline (R197); gable 0, which has no PIPE section, takes one. -/
def pipeShare (s : State) (g : Nat) : Nat := if g = 0 then 1 else max 1 (gableCfg s g).pipeWeight

/-- One choice of a work-conserving pipeline (R197): the first gable from `pos` on, around the 64, that has a load waiting
and loads left in this round; where none has, a new round begins. -/
def nextAsk (s : State) (q : RoundRobin) (asks : List LoadAsk) : Option (LoadAsk × RoundRobin) :=
  let order := (List.range 64).map fun i => (q.pos + i) % 64
  let from_ := fun (q : RoundRobin) => (order.find? fun g =>
    (asks.any fun x => x.gable == g) && decide (0 < SMap.get 0 q.tokens g)).bind fun g =>
      (firstAsk (SMap.get 0 q.last g) g asks).map fun x => (x, { q with
        pos := (g + 1) % 64
        tokens := SMap.upd 0 q.tokens g (· - 1)
        last := SMap.set 0 q.last g (x.rank + 1) })
  (from_ q).or (from_ { q with tokens := order.foldl (fun m g => SMap.set 0 m g (pipeShare s g)) [] })

/-- A work-conserving pipeline's two loaders take up waiting loads while one is free (R197). -/
def startLoads (p : Nat) : Nat → State → State
  | 0, s => s
  | f + 1, s =>
    if (pipeOf s p).kind ≠ 0 ∨ 2 ≤ liveLoads s p then s
    else match nextAsk s (pipeOf s p).served (loadAsks s p) with
      | some (x, q) => startLoads p f (beginLoad p x (setPipe p { pipeOf s p with served := q } s))
      | none => s

/-- Every work-conserving pipeline's loaders take up waiting loads. -/
def serveLoads (s : State) : State := (List.range 4).foldl (fun t p => startLoads p 2 t) s

/-- A slot starts on Pavane pipeline `p` (R26, R197): the first waiting load of the gable that owns it begins on both
loaders; where the gable has none waiting, the loaders stay idle. -/
def slotStart (p : Nat) (s : State) : State :=
  let x := pipeOf s p
  let g := x.slots.getD x.slot 0
  match (if x.kind ≠ 1 ∨ g = 0 then none else firstAsk (SMap.get 0 x.served.last g) g (loadAsks s p)) with
  | some y => beginLoad p y (setPipe p { x with served := { x.served with last := SMap.set 0 x.served.last g (y.rank + 1) } } s)
  | none => s

/-! ### GO (R189 to R191) -/

/-- A write of GO starts the request (R189 to R191); while BUSY is 1 it is discarded. A request whose chains a change of
the pipelines closed ends with ABORTED (R196). A source in host memory is read where its window admits it (R192), a
request for a counter's next value reaches the vault (R209), and a key load reaches its loaders (R197). -/
def portGo (n : Nat) (s : State) : State :=
  let p := portOf s n
  if p.req.isSome then s
  else
    let r := { portRequest p with pl := (s.core n).pl }
    if r.op = 0 ∨ 13 < r.op ∨ r.resv = true ∨ flagsOk r.op r.flags = false then portEnd n stUnsupported none s
    else if p.closed then portEnd n stAborted none (setPort n { p with closed := false } s)
    else
      let s := setPort n { p with req := some r } s
      if sourceKind r = some 1 ∧ hostSourceOk s n r = true ∧ 0 < r.len then issueRead (.port n) (r.argB % 64) r.argA r.len s
      else if (r.op = 11 ∨ r.op = 12) ∧ ctrOwned s (gableOfCore s n) r.argA = true then reachVault (.port n) r.argA s
      else serveLoads s

end Sys2Proof.Machine
end

