-- ==== Sys2Proof/Machine/SymCmds.lean ====
section
/-! DEFINITION. Meanings of the symmetric port's requests, the counter journal's events, the DRBG's retries and the
entropy sources (06_symmetric_hash_counters.md, R466, R467). -/

namespace Sys2Proof.Machine

/-! ### What each request does when it ends -/

/-- CHAIN_OPEN (R195): it waits until one pipeline has the chains it asks for. -/
def endChainOpen (n : Nat) (r : PortReq) (s : State) : State :=
  let k := if bitOf r.flags 0 then 2 else 1
  if (boundChain s n 0).isSome then portEnd n stStateRefused none s
  else match openPipe s (gableOfCore s n) k with
    | some p => portEnd n stOk none (bindChains n k p s)
    | none => s

/-- CHAIN_CLOSE (R191, R196, R203). -/
def endChainClose (n : Nat) (s : State) : State := portEnd n stOk none (clearSha (· == n) (clearChains (· == n) s))

/-- Hand a key to the truss's WMA unit under a fresh loader tag (R191). -/
def giveWma (n : Nat) (k : LoadedKey) (s : State) : State :=
  let w := wmaOf s (trussOf n)
  let tag := w.next % 65536
  let bytes := if k.secret.isEmpty then k.pub else k.secret
  let priv : Byte := if k.secret.isEmpty then 0 else 1
  portEnd n stOk (some (leBytes 2 tag)) (setWma (trussOf n) { w with
    tags := SMap.set [] w.tags tag (priv :: bytes)
    next := tag + 1 } s)

/-- A key goes into chain `c`; the state register starts at zero. -/
def installChain (c : Nat) (k : KeyMat) (s : State) : State :=
  setChain c { chainOf s c with
    key := some k
    state := List.replicate 16 0 } s

/-- KEY_LOAD (R193, R198): what needs no loader ends it at once, and otherwise it waits until a loader has begun it. -/
def endKeyLoad (n : Nat) (r : PortReq) (mismatch : Bool) (s : State) : State :=
  if loadChecks s n r ≠ stOk then portEnd n (loadChecks s n r) none s
  else match r.begun with
    | none => s
    | some p => match portLoad n r.argA (r.use / 256 % 256) (r.use / 65536 % 4) p mismatch s with
      | (_, some k, t) =>
        if bitOf r.flags 0 then giveWma n k t
        else match boundChain s n r.ch with
          | some c => portEnd n stOk none (installChain c ⟨k.policy, k.secret⟩ t)
          | none => portEnd n stStateRefused none t
      | (st, none, t) => portEnd n st none t

/-- The last block that chain `c` computed stays in its state register (R194). -/
def chainState (c : Nat) (b : List Byte) (s : State) : State := setChain c { chainOf s c with state := padTo 16 b } s

/-- DERIVE (R198). -/
def endDerive (n : Nat) (r : PortReq) (mismatch : Bool) (s : State) : State :=
  if deriveChecks s n r ≠ stOk then portEnd n (deriveChecks s n r) none s
  else match r.begun, boundChain s n r.ch, boundChain s n (1 - r.ch) with
    | some p, some c, some d => match (chainOf s c).key with
      | some k =>
        if isPavane s (gableOfCore s n) = true ∧ mismatch = true then portEnd n stIntegrity none (loaderMismatch p s)
        else
          let policy : Word := BitVec.ofNat 32 r.use
          let out := deriveBytes k (r.flags % 4) r.len r.data
          let key := if algTdes (pAlg policy) then setParity out else out
          portEnd n stOk none
            (installChain d ⟨policy, key⟩ (chainState c (out.drop (out.length - algBlock (pAlg k.policy))) s))
      | none => s
    | _, _, _ => s

/-- BLOCK (R199). -/
def endBlock (n : Nat) (r : PortReq) (s : State) : State :=
  match boundChain s n r.ch with
  | none => portEnd n stStateRefused none s
  | some c =>
    if slotAdmits s c (gableOfCore s n) = false then s
    else match (chainOf s c).key with
    | none => portEnd n stStateRefused none s
    | some k =>
      let u := pUsage k.policy
      let a := pAlg k.policy
      let dec := bitOf r.flags 0
      if u = 3 ∨ u = 4 ∨ u = 0xA ∨ u = 0xB ∨ (algTdes a || algAes a) = false ∨ pBit k.policy (if dec then 17 else 16) = false then
        portEnd n stPolicyRefused none s
      else
        let b := (if dec then blockDec a k.secret else blockEnc a k.secret) (r.data.take (algBlock a))
        portEnd n stOk (some (padTo 16 b)) (chainState c b s)

/-- The usage that a MAC algorithm needs (R110, R200). -/
def macUsage (alg : Nat) : Nat := if alg = 0 then 7 else if alg = 1 then 5 else 6

/-- The check value of R200. -/
def macValue (alg a : Nat) (pad2 : Bool) (key m : List Byte) : List Byte :=
  if alg = 0 then cmacAlg a key m
  else if alg = 1 then macAlg1 key (pad9797 8 pad2 m)
  else macAlg3 key (pad9797 8 pad2 m)

/-- MAC (R200). -/
def endMac (n : Nat) (r : PortReq) (host : HostData) (s : State) : State :=
  let alg := r.flags / 8 % 8
  let pad2 := bitOf r.flags 6
  let verify := bitOf r.flags 7
  match boundChain s n r.ch with
  | none => portEnd n stStateRefused none s
  | some c =>
    if slotAdmits s c (gableOfCore s n) = false then s
    else match (chainOf s c).key with
    | none => portEnd n stStateRefused none s
    | some k =>
      let a := pAlg k.policy
      let outLen := algBlock a
      if pUsage k.policy ≠ macUsage alg then portEnd n stPolicyRefused none s
      else if (r.len = 0 ∧ alg ≠ 0 ∧ pad2 = false) ∨ (verify = true ∧ (r.use < 4 ∨ outLen < r.use)) then portEnd n stRange none s
      else match fetchSource n r (r.flags % 8) host s with
        | (0, m, t) =>
          let v := macValue alg a pad2 k.secret m
          let t := chainState c v t
          if verify then portEnd n (if v.take r.use = (slice r.data 32 16).take r.use then stOk else stVerifyFailed) none t
          else portEnd n stOk (some v) t
        | (st, _, t) => portEnd n st none t

/-- The compressor context of core `n`. -/
def shaOf (s : State) (n : Nat) : ShaCtx := SMap.get {} s.sym.sha n

/-- Put a compressor context. -/
def setSha (n : Nat) (c : ShaCtx) (s : State) : State := { s with sym := { s.sym with sha := SMap.set {} s.sym.sha n c } }

/-- A Pavane compressor mismatch (R204). -/
def shaMismatch (n : Nat) (s : State) : State :=
  let d : List Byte := [4, BitVec.ofNat 8 (trussOf n), BitVec.ofNat 8 (coreInTruss n)]
  portEnd n stIntegrity none (raise srcLockstep d (cause .sym 2 (setSha n {} s)))

/-- SHA_INIT (R203). -/
def endShaInit (n : Nat) (r : PortReq) (mismatch : Bool) (s : State) : State :=
  let alg := r.flags % 4
  if bitOf r.flags 2 = false then portEnd n stOk none (setSha n { active := true, alg := alg, state := shaInit alg } s)
  else if loadChecks s n r ≠ stOk then portEnd n (loadChecks s n r) none (setSha n {} s)
  else match r.begun with
    | none => s
    | some p => match portLoad n r.argA 8 0 p mismatch s with
      | (_, some k, t) =>
        let st := shaBlocks alg (shaInit alg) (hmacKey alg k.secret 0x36)
        portEnd n stOk none (setSha n { active := true, alg := alg, state := st, count := shaBlockLen alg, outer := some (hmacKey alg k.secret 0x5C) } t)
      | (st, none, t) => portEnd n st none (setSha n {} t)

/-- SHA_BLOCKS (R203). -/
def endShaBlocks (n : Nat) (r : PortReq) (host : HostData) (mismatch : Bool) (s : State) : State :=
  let c := shaOf s n
  if c.active = false then portEnd n stStateRefused none s
  else if r.len % shaBlockLen c.alg ≠ 0 then portEnd n stRange none s
  else match fetchSource n r (r.flags % 8) host s with
    | (0, m, t) =>
      if isPavane t (gableOfCore t n) = true ∧ mismatch = true then shaMismatch n t
      else portEnd n stOk none (setSha n { c with state := shaBlocks c.alg c.state m, count := c.count + r.len } t)
    | (st, _, t) => portEnd n st none t

/-- SHA_FINAL (R203): the digest, and the context is cleared. -/
def endShaFinal (n : Nat) (r : PortReq) (host : HostData) (mismatch : Bool) (s : State) : State :=
  let c := shaOf s n
  if c.active = false then portEnd n stStateRefused none s
  else if shaBlockLen c.alg ≤ r.len then portEnd n stRange none s
  else match fetchSource n r (r.flags % 8) host s with
    | (0, m, t) =>
      if isPavane t (gableOfCore t n) = true ∧ mismatch = true then shaMismatch n t
      else
        let h := shaOut c.alg (shaBlocks c.alg c.state (shaPad c.alg (c.count + r.len) m))
        let h := match c.outer with
          | some o => sha c.alg (o ++ h)
          | none => h
        portEnd n stOk (some h) (setSha n {} t)
    | (st, _, t) => portEnd n st none t

/-- DRBG (R205, R206). -/
def endDrbg (n : Nat) (r : PortReq) (s : State) : State :=
  if r.len = 0 ∨ 64 < r.len then portEnd n stRange none s
  else match drbgDraw (drbgNum n) r.len (bitOf r.flags 0) s with
    | (some b, t) => portEnd n stOk (some b) t
    | (none, t) => portEnd n stIntegrity none t

/-- CTR_NEXT (R207, R208): it waits where the value is not covered yet. -/
def endCtrNext (n : Nat) (r : PortReq) (s : State) : State :=
  if ctrOwned s (gableOfCore s n) r.argA = false then portEnd n stNotPermitted none s
  else if vaultTurn s (.port n) r.argA = false then s
  else match ctrDraw r.argA s with
    | (.value v, t) => portEnd n stOk (some (leBytes 8 v)) t
    | (.ended st, t) => portEnd n st none t
    | (.waits, t) => t

/-- CTR_NEXT_TIME (R209, R210). -/
def endCtrNextTime (n : Nat) (r : PortReq) (s : State) : State :=
  if ctrOwned s (gableOfCore s n) r.argA = false then portEnd n stNotPermitted none s
  else if vaultTurn s (.port n) r.argA = false then s
  else match ctrDrawTime r.argA s with
    | (.value v, time, t) => portEnd n stOk (some (leBytes 8 v ++ leBytes 8 time ++ [BitVec.ofNat 8 (timeByte t)])) t
    | (.ended st, _, t) => portEnd n st none t
    | (.waits, _, t) => t

/-- CTR_READ (R207). -/
def endCtrRead (n : Nat) (r : PortReq) (s : State) : State :=
  if ctrOwned s (gableOfCore s n) r.argA = false then portEnd n stNotPermitted none s
  else match ctrReadValue r.argA s with
    | (some v, s) => portEnd n stOk (some (leBytes 8 v)) s
    | (none, s) => portEnd n stLinkLost none s

/-- The request of core `n` does what it does when it ends. -/
def portFinish (n : Nat) (r : PortReq) (host : HostData) (mismatch : Bool) (s : State) : State :=
  match r.op with
  | 1 => endChainOpen n r s
  | 2 => endChainClose n s
  | 3 => endKeyLoad n r mismatch s
  | 4 => endDerive n r mismatch s
  | 5 => endBlock n r s
  | 6 => endMac n r host s
  | 7 => endShaInit n r mismatch s
  | 8 => endShaBlocks n r host mismatch s
  | 9 => endShaFinal n r host mismatch s
  | 10 => endDrbg n r s
  | 11 => endCtrNext n r s
  | 12 => endCtrNextTime n r s
  | _ => endCtrRead n r s

/-- Does a request wait for sealed memory (R225), or for a flash array that an erase holds (R357)? -/
def portWaits (s : State) (r : PortReq) : Bool :=
  if r.op = 3 ∨ (r.op = 7 ∧ bitOf r.flags 2 = true) then r.begun.isSome && loadWaits s r.argA
  else (r.op == 6 || r.op == 8 || r.op == 9) && r.flags % 8 == 2 && !s.msu.inited

/-- PORT_REQUEST_COMPLETE: the request of core `n` ends, or still waits for what it needs; loaders that are free take up
the next loads. -/
def portComplete (n : Nat) (host : HostData) (mismatch : Bool) (s : State) : State :=
  match (portOf s n).req with
  | none => s
  | some r => serveLoads (if portWaits s r then s else portFinish n r host mismatch s)

def execPortRequestComplete (c : CoreId) (src : HostData) (mismatch : Bool) (s : State) : Res :=
  .next (if powered s then portComplete (coreNum c) src mismatch s else s)

/-! ### Pavane pipelines (R26, R196, R197) -/

/-- Does a request work with a chain or a key loader? -/
def usesChain (r : PortReq) : Bool := decide (2 ≤ r.op ∧ r.op ≤ 6) || (r.op == 7 && bitOf r.flags 2)

/-- Close the chains of pipeline `p` for whose gable `gone` holds (R196, R203): a request that works with one ends with
ABORTED, and so does the next request of their core. -/
def closePipeChains (p : Nat) (gone : Nat → Bool) (s : State) : State :=
  let hit := ((List.range 30).map (30 * p + ·)).filter fun k => match (chainOf s k).core with
    | some (n, _) => gone (gableOfCore s n)
    | none => false
  hit.foldl (fun t k => match (chainOf t k).core with
    | some (n, _) =>
      let t := match (portOf t n).req with
        | some r => if usesChain r then portEnd n stAborted none t else t
        | none => t
      clearSha (· == n) (setChain k {} (setPort n { portOf t n with closed := true } t))
    | none => t) s

/-- Pipeline `p` at a frame boundary (R26): a change of its assignment takes effect, the chains that it closes are closed
(R196), and slot 0 starts. -/
def pipeBoundary (p : Nat) (s : State) : State :=
  let x := pipeOf s p
  let y := match x.nextCfg with
    | some (k, sl) => { x with
      kind := k
      slots := sl
      nextCfg := none }
    | none => x
  let t := setPipe p { y with slot := 0 } s
  let owned := fun (sl : List Nat) (g : Nat) => (sl.filter (· == g)).length
  let gone := fun (g : Nat) => x.kind != y.kind || (y.kind == 1 && decide (owned y.slots g < owned x.slots g))
  slotStart p (if x.nextCfg.isSome then closePipeChains p gone t else t)

/-- PAVANE_FRAME_BOUNDARY (R26): a frame begins on every pipeline. -/
def pavaneBoundary (s : State) : State := serveLoads ((List.range 4).foldl (fun t p => pipeBoundary p t) s)

def execPavaneFrameBoundary (s : State) : Res :=
  .next (if powered s = true ∧ s.img.locked = true then pavaneBoundary s else s)

/-- The next slot of pipeline `p` starts, where its frame has one: the frame's first slot starts at the boundary. -/
def pipeSlot (p : Nat) (s : State) : State :=
  let x := pipeOf s p
  if x.kind = 1 ∧ x.slot < 15 then slotStart p (setPipe p { x with slot := x.slot + 1 } s) else s

/-- PAVANE_SLOT_START (R26, R197): the next slot of every Pavane pipeline starts. -/
def pavaneSlot (s : State) : State := (List.range 4).foldl (fun t p => pipeSlot p t) s

def execPavaneSlotStart (s : State) : Res := .next (if powered s = true ∧ s.img.locked = true then pavaneSlot s else s)

/-! ### The journal's events -/

/-- RESERVE_RECORD_VERIFIED (R208). -/
def execReserveRecordVerified (index : Nat) (s : State) : Res :=
  .next (if powered s then reserveVerified index s else s)

/-- TIME_RECORD_VERIFIED (R210). -/
def execTimeRecordVerified (s : State) : Res := .next (if powered s then timeVerified s else s)

/-- PAGE_REWRITE (R213). -/
def execPageRewrite (s : State) : Res := .next (pageRewriteEffect s)

/-- Does a port request wait for a new reservation: of counter `c`, or of the trusted time (R208, R210)? -/
def waitsFor (s : State) (c : Nat) (r : PortReq) : Bool :=
  (r.op == 11 || r.op == 12) && r.argA == c
    && (decide (ctrV s c = ctrB s c) || (r.op == 12 && decide (s.sym.ctr.ceiling < s.sys.time)))

/-- JOURNAL_STALL_TIMEOUT (R215): requests that have waited 1 ms for a reservation of the counter end with SUSPENDED and
draw nothing. -/
def stallTimeout (c : Nat) (s : State) : State :=
  if s.sym.ctr.stalled then
    let late := decide (ctrV s c = ctrB s c) || decide (s.sym.ctr.ceiling < s.sys.time)
    let cmds := (s.hqi.cmds.filter fun x => x.waits == some c && !x.finished && late).map (·.ref)
    let s := ((s.sym.ports.filter fun e => match e.2.req with
      | some r => waitsFor s c r
      | none => false).map (·.1)).foldl (fun t n => portEnd n stSuspended none t) s
    cmds.foldl (fun t r => endCmd r stSuspended 0 [] t) s
  else s

def execJournalStallTimeout (index : Nat) (s : State) : Res := .next (if powered s then stallTimeout index s else s)

/-! ### DRBG and entropy -/

/-- DRBG_RESEED_RETRY (R206): the truss Monitor tries to leave the error state. -/
def execDrbgReseedRetry (truss : Fin 32) (s : State) : Res :=
  .next (if powered s = true ∧ (drbgOf s truss.val).err = true then (drbgReseed truss.val s).2 else s)

/-- ENTROPY_BLOCK (R466, R467): a source yields a conditioned block, or fails a health test and is excluded until
device reset. -/
def entropyBlock (k : Nat) (healthy : Bool) (s : State) : State :=
  if s.sys.entOn.getLsbD k = false ∨ s.sys.entFail.getLsbD k = true then s
  else if healthy then
    if 256 ≤ s.sys.pool.length ∨ entropyGood s = false then s
    else
      let d := drawBytes 48 s
      { d.2 with sys := { d.2.sys with pool := d.2.sys.pool ++ [d.1] } }
  else
    let s := { s with
      sys := { s.sys with entFail := s.sys.entFail ||| BitVec.ofNat 4 (2 ^ k) }
      tel := { s.tel with counts := { s.tel.counts with entropy := satInc 0xFFFFFFFF s.tel.counts.entropy } } }
    cause .sys 6 s

def execEntropyBlock (source : Fin 4) (healthy : Bool) (s : State) : Res :=
  .next (if powered s then entropyBlock source.val healthy s else s)

end Sys2Proof.Machine
end

