-- ==== Sys2Proof/Machine/Image.lean ====
section
/-! DEFINITION. The image registers' commands, the power-up load and the commit of an element (02_aqley_image.md, R51 to
R66). -/

namespace Sys2Proof.Machine

/-- An image command ends: STATUS, BUSY and IMG_DONE (R52). -/
def imgEnd (st : Nat) (s : State) : State :=
  cause .gte 31 { s with img := { s.img with
    status := st
    busy := false } }

/-- What GTE_IMG_REFUSE reports. -/
def imgRefuse (sect check : Nat) (s : State) : State :=
  { s with img := { s.img with
    refSect := sect
    refCheck := check } }

/-- An image-approval ceremony ends with the staged element (R426). -/
def dropApproval (s : State) : State := if cerIs s 4 then abortCeremony s else s

/-- A running STAGE ends without success (R53, R97). -/
def stageFail (st : Nat) (s : State) : State :=
  imgEnd st (clearStaging (dropRead .stage false s))

/-! ### STAGE, COMMIT, DISCARD (R51 to R56, R97) -/

/-- A value takes effect in the GTE_IMG_CTL pair; with the warden stopped it ends with no status (R297). A misaligned SRC is judged before PENDING_RESET (DESIGN CHOICE, log
214). -/
def imgCommand (v : Nat) (s : State) : State :=
  let s := if s.img.busy = false ∧ 1 ≤ v ∧ v ≤ 3 then { s with img := { s.img with cmd := v } } else s
  if wardenUp s = false then s
  else if s.img.busy then cause .gte 31 { s with img := { s.img with status := stStateRefused } }
  else if v = 1 then
    if s.img.src.toNat % 8 ≠ 0 then imgEnd stRange (imgRefuse 0xFFFF 0 s)
    else if s.img.phase = .pendingReset then imgEnd stStateRefused s
    else
      let len := s.img.len.toNat
      let idle := decide (s.img.phase = .idle)
      let s := dropApproval s
      let s := { s with img := { s.img with
        busy := true
        phase := .staging
        wasIdle := idle
        staging := []
        staged := none
        fetched := none
        sdig := List.replicate 48 0
        refSect := 0
        refCheck := 0 } }
      if len % 8 = 0 ∧ 336 ≤ len ∧ len ≤ 1048576 then
        issueRead .stage 0 s.img.src.toNat len { s with hqi := { s.hqi with reads := s.hqi.reads ++ [.stage] } }
      else stageFail stRange (imgRefuse 0xFFFF 1 s)
  else if v = 2 then
    if s.img.phase = .approved then
      { s with img := { s.img with
        busy := true
        phase := .committing
        slotsDone := 0 } }
    else imgEnd stStateRefused s
  else if v = 3 then
    if s.img.phase = .pendingReset then imgEnd stStateRefused s
    else if s.img.phase = .idle then imgEnd stOk s
    else imgEnd stOk (clearStaging (dropApproval s))
  else imgEnd stUnsupported s

/-- STAGE_FETCH_DONE (R53, R97): the data have come, and the checks run. -/
def stageFetchDone (s : State) : State :=
  if wardenUp s = false ∨ s.img.busy = false ∨ s.img.phase ≠ .staging ∨ s.msu.inited = false then s
  else match s.img.fetched with
    | none => s
    | some (.ok b) =>
      let b := padTo s.img.len.toNat b
      let w := fillStageBuf b s
      let s := w.2
      if w.1 ≠ stOk then stageFail w.1 s
      else match stageChecks s s.img.len.toNat b with
      | some (k, i, st) => stageFail st (imgRefuse i k s)
      | none =>
        let e := parseElement b
        imgEnd stOk { s with img := { s.img with
          phase := .staged
          staging := b
          staged := some e
          fetched := none
          sdig := elementDigest e } }
    | some .poison => stageFail stIntegrity s
    | some .ecrc => stageFail stIntegrity s
    | some .ur => stageFail stAborted s
    | some .ca => stageFail stAborted s

def execStageFetchDone (s : State) : Res := .next (stageFetchDone s)

/-- A reset of the physical function or the endpoint, or a link down, while STAGE fetches (R97). -/
def imgHostAbort (s : State) : State :=
  if s.img.busy = true ∧ s.img.phase = .staging then stageFail stAborted s else s

/-- An Eave response of SUSPEND or PURGE (R55, R65). -/
def imgSuspend (s : State) : State :=
  match s.img.phase with
  | .staging => stageFail stAborted s
  | .staged => clearStaging s
  | .approved => clearStaging s
  | .committing => if s.img.slotsDone < 2 then imgEnd stAborted (clearStaging s) else s
  | _ => s

/-! ### Latching (R60, R61, R63, R64) -/

/-- Trusses of a latched gable that are occupied, and whether the gable is formed at all (R61, R394). -/
def trussesInForce (s : State) (g : Nat) (c : GableCfg) : Nat :=
  if g = 0 ∨ retiredLc s = true ∨ c.mode < minMode s then 0
  else (maskList c.trussMask).foldl (fun m t => if occupied s t then m + 2 ^ t else m) 0

/-- Put gable `g`'s trusses and dispatch core in force (R61). -/
def formGable (g : Nat) (s : State) : State :=
  let c := SMap.get {} s.img.latched.gables g
  let m := trussesInForce s g c
  let first := (maskList m).headD 0
  let d := if bitOf m (c.dispatch / 4) then c.dispatch else 4 * first + c.dispatch % 4
  { s with img := { s.img with
    trusses := SMap.set 0 s.img.trusses g m
    dispatch := SMap.set 0 s.img.dispatch g (if m = 0 then 0 else d)
    degraded := s.img.degraded || m != c.trussMask } }

/-- The pipelines of a structure, in force at once (power-up) or due at the next frame boundary; slots of a gable that is
not formed are idle (R61). -/
def formPipes (atOnce : Bool) (s : State) : State :=
  (List.range 4).foldl (fun t p =>
    let c := slotsInForce t (t.img.latched.pipes.getD p {})
    let x := pipeOf t p
    if atOnce then setPipe p { x with kind := c.kind, slots := c.slots, nextCfg := none } t
    else if x.kind = c.kind ∧ x.slots = c.slots ∧ x.nextCfg.isNone then t
    else setPipe p { x with nextCfg := some (c.kind, c.slots) } t) s

/-- The alarm table as the Eave die takes it (R60 step 5, R382, R392): levels raised to the certified minimum. -/
def retainedTable (s : State) (a : List AlarmEntry) : List AlarmEntry :=
  a.zipIdx.map fun p => ⟨if certBlown s then max p.1.level (sourceRow p.2).certMin else p.1.level, p.1.notify⟩

/-- What a record latches at step 5 of R60; an empty list latches a structure with no tenant gable. -/
def latchRecord (es : List Element) (s : State) : State :=
  let l := es.foldl (fun l e => applyElement e l) ({ partition := s.img.latched.partition } : Latches)
  let s := { s with img := { s.img with
    latched := l
    locked := true
    trusses := []
    dispatch := [] } }
  let s := latchGates none (l.gables.foldl (fun t q => formGable q.1 t) s)
  let s := formPipes true s
  let p := l.partition
  { s with
    eav := { s.eav with retained := if es.isEmpty then none else some (retainedTable s l.alarm) }
    flc := { s.flc with critEnd := svcAreaBase p - 1 }
    hqi := { s.hqi with
      deal := dealList s
      nextDeal := none } }

/-- GEN and DIGEST show an element. -/
def showElement (e : Element) (s : State) : State :=
  { s with img := { s.img with
    gen := e.gen
    digest := elementDigest e } }

/-- What the selection rule of R57 finds: a record with the slots that hold it, divergence, or nothing. -/
inductive ImgSel where
  | slots (src : Nat) (es : List Element)
  | divergent
  | none
deriving DecidableEq, Repr

/-- The selection rule of R57. -/
def selectRecord (s : State) : ImgSel :=
  let a := slotRecord s 0
  let b := slotRecord s 1
  let oa := recordAuthentic s a
  let ob := recordAuthentic s b
  let last := fun (es : List Element) => es.getLastD (parseElement [])
  let floor := fun (src : Nat) (es : List Element) =>
    if (last es).gen < s.tel.counts.imgGen then ImgSel.divergent else .slots src es
  if oa = false ∧ ob = false then .none
  else if ob = false then floor 1 a
  else if oa = false then floor 2 b
  else if elementDigest (last a) = elementDigest (last b) then floor 3 a
  else if (last b).gen < (last a).gen ∧ (last a).parent = elementDigest (last b) then floor 1 a
  else if (last a).gen < (last b).gen ∧ (last b).parent = elementDigest (last a) then floor 2 b
  else .divergent

/-- Copy image slot `k` over the other. -/
def copySlot (k : Nat) (s : State) : State :=
  let n := (List.range 512).foldl (fun m i => let e := sectorEnd s (4096 + 512 * k + i); if e = 0 then m else 512 * i + e) 0
  let b := flashBytes s (slotAddr k) (8 * n)
  (fwProg (slotAddr (1 - k)) b (fwEraseAll (4096 + 512 * (1 - k)) 512 s)).2

/-- Do the two image slots hold the same words? -/
def slotsEqual (s : State) : Bool :=
  let ws := fun (k : Nat) => (usedWords s).filterMap fun w =>
    if slotAddr k / 8 ≤ w ∧ w < slotAddr k / 8 + slotSize / 8 then some (w - slotAddr k / 8, flashWord s w) else none
  decide ((ws 0).length = (ws 1).length) && (ws 0).all fun x => (ws 1).contains x

/-- Release every formed gable's trusses and start its runtime (R60 step 6). -/
def startGables (s : State) : State :=
  (formedGables s).foldl (fun t g => startRuntime g ((maskList (trussMaskOf t g)).foldl (fun u n => releaseTruss n u) t)) s

/-- IMAGE_LOAD (R57 to R61): once per release of the warden. Under DIVERGENT, GEN and DIGEST show the lifetime record's
values (DESIGN CHOICE, log 213). -/
def imageLoad (s : State) : State :=
  if wardenUp s = false ∨ s.img.locked = true then s
  else
    let s := noteSectors 4096 1024 s
    match selectRecord s with
    | .divergent =>
      let s := latchRecord [] { s with
        img := { s.img with
          divergent := true
          status := stDivergent
          gen := s.tel.counts.imgGen
          digest := s.tel.counts.imgDig }
        ks := { s.ks with
          phase := .isSealed
          status := stDivergent } }
      raise srcDivergent [1] s
    | .none => latchRecord [] { s with img := { s.img with
        source := 0
        status := stOk
        gen := s.tel.counts.imgGen
        digest := s.tel.counts.imgDig } }
    | .slots src es =>
      let s := latchRecord es { s with img := { s.img with
        source := src
        status := stOk } }
      let s := showElement (es.getLastD (parseElement [])) s
      let s := startGables (checkRanges s)
      if slotsEqual s then s else copySlot (if src = 2 then 1 else 0) s

/-- IMAGE_LOAD; the levels that then hold also decide ROOT_LOCK (R384). -/
def execImageLoad (s : State) : Res := .next (refreshLock (imageLoad s))

/-! ### Commit (R62, R63, R65) -/

/-- Write an element alone into an image slot. -/
def writeSlot (k : Nat) (e : Element) (s : State) : State :=
  (fwProg (slotAddr k) e.raw (fwEraseAll (4096 + 512 * k) 512 s)).2

/-- Append an element to the record of a slot. -/
def appendSlot (k : Nat) (e : Element) (s : State) : State :=
  (fwProg (slotAddr k + recordLen (slotRecord s k)) e.raw s).2

/-- The lifetime record takes the element's generation and digest, and a snapshot is written (R62 step 4, R63 step 3). -/
def commitLifetime (e : Element) (s : State) : State :=
  putSnapshot (countLife (fun c => { c with
    imgGen := e.gen
    imgDig := elementDigest e }) s)

/-- Steps 4 to 8 of R63: the TARGET gable is re-formed or vacated. -/
def reformGable (e : Element) (s : State) : State :=
  let g := e.target
  let old := trussMaskOf s g
  let s := discardGable g (functionReset g s)
  let new := trussesInForce s g ((elemGable e g).getD {})
  let s := (maskList (old ||| new)).foldl (fun t n => scrubTruss n (stopTruss n t)) s
  let bads := s.img.latchBad.filter fun w => match w with
    | .range k _ => k != g
    | .gate t n => (s.img.latched.gates.any fun x => x.target == t && x.entry == n && x.gable != g)
    | .level _ => true
    | .retained _ => true
  let s := { s with img := { s.img with
    latched := applyElement e s.img.latched
    latchBad := bads } }
  let s := formPipes false (latchGates (some g) (formGable g s))
  let s := { s with
    svc := { s.svc with
      pkgs := SMap.set none s.svc.pkgs g none
      early := SMap.set [] s.svc.early g []
      stale := SMap.set [] s.svc.stale g [] }
    hqi := { s.hqi with nextDeal := some (dealList s) } }
  let s := checkRanges (setReason g 0 false s)
  let s := (maskList (trussMaskOf s g)).foldl (fun t n => releaseTruss n t) s
  if formed s g then startRuntime g s else s

/-- The end of a commit of a partial element. -/
def endPartial (e : Element) (s : State) : State :=
  imgEnd stOk (clearStaging (showElement e (reformGable e s)))

/-- COMMIT_SLOT_WRITTEN (R62, R63, R455): slot A, then slot B with the lifetime record; a partial element then re-forms
its gable, after a wake where the module is Idle. -/
def commitSlotWritten (s : State) : State :=
  if wardenUp s = false ∨ s.img.phase ≠ .committing then s
  else match s.img.staged with
    | none => s
    | some e =>
      let put := fun (k : Nat) (t : State) => if isPartial e then appendSlot k e t else writeSlot k e t
      let done := fun (n : Nat) (t : State) => { t with img := { t.img with slotsDone := n } }
      if s.img.slotsDone = 0 then done 1 (put 0 s)
      else if s.img.slotsDone = 1 then
        let s := done 2 (commitLifetime e (put 1 s))
        if isPartial e = false then
          let s := imgEnd stOk (showElement e (clearStaging s))
          { s with img := { s.img with phase := .pendingReset } }
        else if s.sys.power = .idle then wakeFor s
        else endPartial e s
      else if s.sys.power = .idle then wakeFor s
      else endPartial e s

def execCommitSlotWritten (s : State) : Res := .next (commitSlotWritten s)

/-- A recovery ceremony keeps image slot `k` (R58): it is copied over the other and latched at the next reset. -/
def keepSlot (k : Nat) (s : State) : State := copySlot k s

end Sys2Proof.Machine
end

