-- ==== Sys2Proof/Machine/Ceremony.lean ====
section
/-! DEFINITION. The ceremony engine (14_slate_port_ceremonies.md, R415 to R428; 15_batten_cascade.md, R437, R439): OPEN
and its checks, the count of approvals, shares of the KSRK, and the actions. -/

namespace Sys2Proof.Machine

/-! ### Roster and quorum (R416) -/

/-- The ceremony types of R417. -/
def cerTypes : List Nat := (List.range 13).map (· + 1)

/-- M and group mask of a type. -/
def quorumOf (s : State) (t : Nat) : Nat × Nat := SMap.get (0, 0) s.slt.quorum t

/-- Can a quorum be met by a roster? -/
def quorumMet (roster : List Custodian) (q : Nat × Nat) : Bool :=
  decide (1 ≤ q.1) && decide (q.1 ≤ (roster.filter fun c => bitOf q.2 c.group).length)

/-- Does a type count every distinct slate, because no OWNERSHIP ceremony has executed (R416)? -/
def countsAll (s : State) (t : Nat) : Bool :=
  !s.slt.owned && ((t == 10 && (lifecycle s == lcShipped || lifecycle s == lcDev))
    || (t == 11 && (lifecycle s == lcFactory || lifecycle s == lcShipped || lifecycle s == lcDev)))

/-- The least M that a quorum may have: 1 in DEV. -/
def leastM (s : State) : Nat := if lifecycle s = lcDev then 1 else 2

/-- Approvals (or enrolments) that a ceremony needs, with the group mask that counts. -/
def needOf (s : State) (t : Nat) (param : Word) : Nat × Nat :=
  if t = 1 then (fld param 8 8, 0xF)
  else if countsAll s t then (leastM s, 0xF)
  else quorumOf s t

/-! ### OPEN (R417, R418) -/

/-- The fuses that a FUSE ceremony's PARAM names (R417). -/
def fuseAsked (param : Word) : List Nat :=
  (((List.range 4).filter fun i => bitOf param.toNat i).map (141 + ·))
    ++ ((List.range 7).filter fun i => bitOf param.toNat (4 + i)).map (145 + ·)

/-- Do R390 and R392 let a FUSE ceremony blow fuse `i`? -/
def fuseMay (s : State) (i : Nat) : Bool :=
  if i = 143 ∨ i = 144 then
    (lifecycle s == lcShipped || lifecycle s == lcOwned) && fuseFld s 145 1 == 0 && fuseFld s 151 1 == 0
  else if i = 145 ∨ i = 151 then !certBlown s
  else true

/-- Would the module with those fuses blown keep CERT and DEV exclusive, and EXT_LOOP0 and LID enabled under CERT? -/
def fusePolicy (s : State) (asked : List Nat) : Bool :=
  let blown := fun (i : Nat) => asked.contains i || fuseFld s i 1 == 1
  !((blown 143 || blown 144) && (fuseFld s 140 1 == 1 || blown 145 || blown 151))

/-- LEASE_LOG2 of FORM and SETTINGS lies in the range of R434. -/
def leaseOk (param : Word) : Bool := decide (8 ≤ fld param 8 8 ∧ fld param 8 8 ≤ 20)

/-- TARGET and PARAM in their ranges, and what is not used zero (R417, R437). -/
def cerRanges (s : State) (t target : Nat) (param : Word) : Bool :=
  let p := param.toNat
  let m := p % 256
  let n := p / 256 % 256
  match t with
  | 1 => decide (target = 0 ∧ p < 65536 ∧ leastM s ≤ m ∧ m ≤ n ∧ n ≤ 16)
  | 2 => decide (target < 4 ∧ p = 0)
  | 5 => decide (1 ≤ target ∧ target ≤ 63 ∧ p = 0)
  | 7 => decide (target = 0 ∧ p < 65536 ∧ 2 ≤ m ∧ m ≤ n ∧ n ≤ 16)
  | 9 => decide ((target ≤ 1 ∨ (0x10 ≤ target ∧ target ≤ 0x12)) ∧ p = 0)
  | 10 => decide (target = 0 ∧ p < 2048)
  | 12 => decide (1 ≤ target ∧ target ≤ 13 ∧ p < 4096 ∧ leastM s ≤ m ∧ m ≤ 16)
  | 13 =>
    if m = 1 ∨ m = 4 then target == 0 && leaseOk param
    else if m = 2 ∨ m = 3 then decide (target ≤ 15 ∧ p < 256)
    else decide (m = 5 ∧ target = 0 ∧ p < 256)
  | _ => decide (target = 0 ∧ p = 0)

/-- The serial in SUBJECT bytes 0 to 15. -/
def subjSerial (subj : List Byte) : Nat := leAt subj 0 16

/-- Is an operation of CASCADE_JOIN permitted (R437)? `elsewhere`: a CANDIDATE port of another member leads to the
joiner. TAKEOVER waits for RIDGE_LOSS_TIMEOUT, which starts an election or isolation after 100 ms (DEDUCED, log 1522). -/
def joinPermitted (s : State) (target op : Nat) (subj : List Byte) (elsewhere : Bool) : Bool :=
  let serial := BitVec.ofNat 128 (subjSerial subj)
  match s.btn.table with
  | none => op == 1 && (lifecycle s == lcOwned || lifecycle s == lcDev) && s.ks.phase == .isOpen
  | some t =>
    let ridge := s.btn.role == .ridge
    match op with
    | 2 => ridge && (decide (target = t.n) || (decide (target < t.n) && t.members[target]? == some serial))
        && (elsewhere || [0, 1].any fun n => (btnPort s n).phase == .candidate && (btnPort s n).peerSer == subjSerial subj)
    | 3 => ridge && decide (target + 1 = t.n) && target != t.ridge && t.members[target]? == some serial
    | 4 => ridge
    | 5 => decide (t.succ = s.btn.member) && !ridge && !ridgeRoute s && (s.btn.electing || s.btn.role == .isolated)
    | _ => false

/-- The Permitted column of R417. -/
def cerPermitted (s : State) (t target : Nat) (param : Word) (subj : List Byte) (elsewhere : Bool) : Bool :=
  let lc := lifecycle s
  match t with
  | 1 => lc == lcShipped || lc == lcDev
  | 2 => (lc == lcOwned || lc == lcDev) && decide (s.slt.roster.length < 32)
  | 3 => lc == lcOwned || lc == lcDev
  | 4 => s.img.phase == .staged && subj == s.img.sdig
  | 5 => formed s target
  | 6 => s.ks.phase == .closed
  | 7 => s.ks.phase == .isOpen
  | 8 => (s.ks.phase == .noRoot || s.ks.phase == .empty) && !s.eav.rootLock
  | 9 => if target ≤ 1 then s.img.divergent else s.ks.phase == .isSealed
  | 10 => lc == lcShipped || lc == lcOwned || lc == lcDev
  | 12 => s.slt.owned
  | 13 => joinPermitted s target (fld param 0 8) subj elsewhere && !(s.eav.rootLock && fld param 0 8 == 2)
  | _ => true

/-- Check 5: the quorum is reachable, a REVOKE leaves every type reachable, a FUSE asks only for what it may blow. -/
def cerReachable (s : State) (t : Nat) (param : Word) (subj : List Byte) : Bool :=
  let left := s.slt.roster.filter fun c => c.custId != subj.take 16
  (t == 1 || countsAll s t || quorumMet s.slt.roster (quorumOf s t))
    && (t != 3 || cerTypes.all fun k => k == 1 || quorumMet left (quorumOf s k))
    && (t != 10 || (fuseAsked param).all fun i => fuseMay s i)

/-- The status of OPEN (R418). `other`: another member of the cascade has a ceremony open (R439). -/
def openStatus (s : State) (t target : Nat) (param : Word) (subj : List Byte) (other elsewhere : Bool) : Nat :=
  firstFail
    [(s.slt.cer.isNone && wardenUp s && !retiredLc s && !other, stStateRefused),
     (cerTypes.contains t, stUnsupported),
     (cerRanges s t target param, stRange),
     (cerPermitted s t target param subj elsewhere, stStateRefused),
     (cerReachable s t param subj, stNotPermitted),
     (t != 10 || fusePolicy s (fuseAsked param), stPolicyRefused)]

/-- The ceremony digest (R415). -/
def cerDigest (s : State) (no t target : Nat) (param : Word) (subj : List Byte) : List Byte :=
  sha384 ([0x43, 0x45, 0x52, 0x4D] ++ leBytes 4 no ++ [BitVec.ofNat 8 t, BitVec.ofNat 8 target, 0, 0]
    ++ leBytes 4 param.toNat ++ serialBytes s ++ padTo 48 subj)

/-- A free bit in a cascade with other members; false alone. -/
def cascadeBit (s : State) : Bool × State :=
  if memberCount s < 2 then (false, s)
  else
    let d := drawBytes 1 s
    (bitOf (leNat d.1) 0, d.2)

/-- Does R439 end OPEN or STEP with LINK_LOST? A TAKEOVER goes on without the ridge. -/
def cerLost (s : State) (t : Nat) (param : Word) : Bool :=
  decide (2 ≤ memberCount s) && !ridgeRoute s && !(t == 13 && fld param 0 8 == 5)

/-- AON ticks in a second. -/
abbrev aonHz : Nat := 32768

/-- The ceremony is opened: CER_NO rises and an OPEN record is written (R415, R423). -/
def openCeremony (s : State) : State :=
  let v := s.slt
  let no := (v.cerNo + 1) % 2 ^ 32
  let need := needOf s v.ctype v.param
  let dig := cerDigest s no v.ctype v.target v.param v.subj
  let c : Ceremony := {
    typ := v.ctype
    target := v.target
    param := v.param.toNat
    subject := v.subj
    digest := dig
    required := need.1
    mask := need.2
    endAt := s.eav.aon + 3600 * aonHz }
  let s := { s with slt := { s.slt with
    cerNo := no
    cer := some c
    phase := .approving } }
  cerEnd stOk (cerLog cjOpen 0xFF 0 [] (dig ++ leBytes 4 v.param.toNat ++ [BitVec.ofNat 8 v.target]) s)

/-- OPEN (R418). -/
def cerOpen (s : State) : State :=
  let v := s.slt
  if cerLost s v.ctype v.param then cerEnd stLinkLost s
  else
    let a := cascadeBit s
    let b := cascadeBit a.2
    let st := openStatus s v.ctype v.target v.param v.subj a.1 b.1
    if st = stOk then openCeremony b.2 else cerEnd st b.2

/-! ### Shares of the KSRK (R421, R422) -/

/-- Value at x of the polynomial over GF(2^8) with coefficients `cs`, constant term first. -/
def gfEval (cs : List Byte) (x : Byte) : Byte := cs.foldr (fun c r => gfMul r x ^^^ c) 0

/-- Byte i of a list, 0 beyond its end. -/
def byteAt (bs : List Byte) (i : Nat) : Byte := bs.getD i 0

/-- Share x of a secret: `coeffs` holds T − 1 rows of 32 bytes. -/
def shareOf (secret : List Byte) (coeffs : List (List Byte)) (x : Nat) : List Byte :=
  (List.range 32).map fun i => gfEval (byteAt secret i :: coeffs.map fun r => byteAt r i) (BitVec.ofNat 8 x)

/-- The Lagrange weight at zero of the point x among the points `xs`. -/
def weightAt (xs : List Byte) (x : Byte) : Byte :=
  (xs.filter fun q => q != x).foldl (fun r q => gfMul r (gfMul q (gfInv (q ^^^ x)))) 1

/-- Interpolation at zero of shares (x, data). -/
def interpolate (ps : List (Byte × List Byte)) : List Byte :=
  (List.range 32).map fun i =>
    ps.foldl (fun acc p => acc ^^^ gfMul (byteAt p.2 i) (weightAt (ps.map (·.1)) p.1)) 0

/-- The plaintext of a share block (R421). -/
def shareBlock (s : State) (c : Ceremony) (x : Nat) : List Byte :=
  padTo 480 ([0x4B, 0x53, 0x48, 0x52] ++ leBytes 4 s.slt.cerNo ++ serialBytes s ++ ksrkId s
    ++ [BitVec.ofNat 8 (c.param % 256), BitVec.ofNat 8 (c.param / 256), BitVec.ofNat 8 x] ++ c.shares.getD (x - 1) [])

/-- A share that a block's plaintext holds. -/
def parseShare (b : List Byte) : Option Share :=
  if b.take 4 = [0x4B, 0x53, 0x48, 0x52] then
    some ⟨leAt b 4 4, slice b 8 16, slice b 0x18 16, leAt b 0x28 1, leAt b 0x2A 1, slice b 0x2B 32⟩
  else none

/-- The shares read so far that agree with `r` in CER_NO, T, KSRK_ID and serial, one per x. -/
def shareSet (read : List Share) (r : Share) : List Share :=
  (read.filter fun q => q.cerNo == r.cerNo && q.t == r.t && q.ksrkId == r.ksrkId && q.serial == r.serial).foldl
    (fun l q => if l.any fun p => p.x == q.x then l else l ++ [q]) []

/-- The first set of T shares, if the shares read hold one. -/
def wholeSet (read : List Share) : Option (List Share) :=
  match read.find? fun r => decide (1 ≤ r.t ∧ r.t ≤ (shareSet read r).length) with
  | some r => some ((shareSet read r).take r.t)
  | none => none

/-- The KSRK that a set of shares gives, where its KSRK_ID is the one expected (R422). -/
def reconstruct (s : State) (set : List Share) : Option (List Byte) :=
  let root := interpolate (set.map fun r => (BitVec.ofNat 8 r.x, r.data))
  let want := match s.ks.phase, s.ks.root with
    | .noRoot, some r => r.ksrkId
    | _, _ => (set.head?.map (·.ksrkId)).getD []
  if ksrkIdOf root == want then some root else none

/-! ### Actions (R417) -/

/-- Change the ceremony in progress. -/
def updCer (f : Ceremony → Ceremony) (s : State) : State :=
  { s with slt := { s.slt with cer := s.slt.cer.map f } }

/-- The fuses of OWNER_DIGEST that a digest blows, and those of LC for OWNED (R390, R393). -/
def ownerFuses (digest : List Byte) : List Nat :=
  let d := leNat digest
  136 :: 137 :: ((List.range 384).filter fun i => bitOf d i).map (160 + ·)

/-- A LIFECYCLE event where the lifecycle is no longer `old` (R394). -/
def noteLifecycle (old : Nat) (s : State) : State :=
  if lifecycle s == old then s else raise 0x46 [BitVec.ofNat 8 old, BitVec.ofNat 8 (lifecycle s)] s

/-- OWNERSHIP: roster and quorum table, OWNER_DIGEST, and LC to OWNED with its LIFECYCLE event (R394). -/
def ownershipAction (c : Ceremony) (s : State) : State :=
  noteLifecycle (lifecycle s) (blowFuses (ownerFuses c.subject) { s with slt := { s.slt with
    owned := true
    roster := c.enrolled
    quorum := cerTypes.foldl (fun m t => SMap.set (0, 0) m t (c.param % 256, 1)) [] } })

/-- ROOT_RESTORE: the KSRK goes to the vault, and STATE follows R246. -/
def restoreRoot (root : List Byte) (s : State) : State :=
  let s := putVault 0x40 root s
  let s := { s with eav := { s.eav with vaultZero := false } }
  match s.ks.phase, s.ks.root with
  | .noRoot, some r => { s with ks := { s.ks with phase := phaseFor s r } }
  | _, _ =>
    let s := writeRoot (rootBytes s 1 [] (ksrkId s) 0 0 []) s
    { s with ks := { s.ks with phase := .closed } }

/-- RECOVERY of root copy `k` (R245): a record of the next generation whose PARENT is that copy's digest; an erased copy
gives a first record of the KSRK in the vault. STATE then follows R246. -/
def keepRoot (k : Nat) (s : State) : State :=
  let b := rootCopy s k
  let r := parseRoot b
  let rec_ := if copyErased b then rootBytes s 1 [] (ksrkId s) 0 0 []
    else rootBytes s ((r.gen + 1) % 2 ^ 64) (rootDigest r) r.ksrkId r.bGen r.bSeq r.bDigest
  let s := writeRoot rec_ s
  match s.ks.root with
  | some r => { s with
      ks := { s.ks with
        phase := phaseFor s r
        status := stOk
        seq := lastSeq s }
      svc := { s.svc with diverg := s.img.divergent } }
  | none => s

/-- The operations of CASCADE_JOIN (R437). -/
def joinAction (c : Ceremony) (s : State) : State :=
  let lease := c.param / 256 % 256
  let hold := c.param / 65536
  let fwd := leAt c.subject 0 8
  match c.param % 256 with
  | 1 => cascadeForm lease hold fwd s
  | 2 => cascadeJoin c.target (subjSerial c.subject) s
  | 3 => cascadeRemove c.target s
  | 4 => cascadeSettings lease hold fwd s
  | _ => becomeRidge s

/-- Every other member's roster and quorum table follow this one's (R439). -/
def spreadRoster (s : State) : State :=
  let roster := s.slt.roster.flatMap fun c => padTo 16 c.custId ++ padTo 49 c.pubKey ++ [BitVec.ofNat 8 c.group]
  let quorum := s.slt.quorum.flatMap fun e => [BitVec.ofNat 8 e.1, BitVec.ofNat 8 e.2.1, BitVec.ofNat 8 e.2.2]
  sendControls (reachables s) ctlRoster (leBytes 4 s.slt.roster.length ++ roster ++ leBytes 4 s.slt.quorum.length ++ quorum) s

/-- What a ceremony that is carried out does (R417). `root`: the KSRK that shares gave. -/
def cerAction (c : Ceremony) (root : List Byte) (s : State) : State :=
  match c.typ with
  | 1 => ownershipAction c s
  | 2 => spreadRoster { s with slt := { s.slt with
      roster := (s.slt.roster.filter fun k => !(c.enrolled.any fun e => e.custId == k.custId)) ++ c.enrolled } }
  | 3 => spreadRoster { s with slt := { s.slt with roster := s.slt.roster.filter fun k => k.custId != c.subject.take 16 } }
  | 4 => if s.img.phase = .staged then { s with img := { s.img with phase := .approved } } else s
  | 6 => { s with ks := { s.ks with approved := some c.subject } }
  | 8 => restoreRoot root s
  | 9 => if c.target ≤ 1 then keepSlot c.target s else keepRoot (c.target - 0x10) s
  | 10 => blowFuses (fuseAsked (BitVec.ofNat 32 c.param)) s
  | 11 => deviceReset 1 (latchPending 0b1101 (zeroiseVault s))
  | 12 => spreadRoster { s with slt := { s.slt with
      quorum := SMap.set (0, 0) s.slt.quorum c.target (c.param % 256, c.param / 256 % 16) } }
  | 13 => joinAction c s
  | _ => s

/-- QUORUM records that a ceremony writes before its EXECUTED record (R423, R424). -/
def quorumRecords (c : Ceremony) (s : State) : State :=
  let one := fun (t : State) (k m g : Nat) => cerLog cjQuorum 0xFF 0 [] [BitVec.ofNat 8 k, BitVec.ofNat 8 m, BitVec.ofNat 8 g] t
  if c.typ = 1 then cerTypes.foldl (fun t k => one t k (c.param % 256) 1) s
  else if c.typ = 12 then one s c.target (c.param % 256) (c.param / 256 % 16)
  else s

/-- The action runs: its records count first (R424). A KEY_EXPORT ceremony stays open for its window (R427). -/
def execute (root : List Byte) (s : State) : State :=
  match s.slt.cer with
  | none => s
  | some c =>
    let s := quorumRecords c s
    let s := cerLog cjExecuted 0xFF 0 (if c.typ = 3 then c.subject.take 16 else []) [] s
    if c.typ = 5 then
      { s with slt := { s.slt with
        phase := .exportOpen
        exportG := some c.target
        cer := some { c with endAt := s.eav.aon + 600 * aonHz } } }
    else
      cerAction c root { s with slt := { s.slt with
        cer := none
        phase := .idle } }

/-- The shares are formed when the quorum of ROOT_BACKUP is reached (R421); the ceremony ends where no random bytes are
to be had. -/
def formShares (s : State) : State :=
  match s.slt.cer with
  | none => s
  | some c =>
    let t := c.param % 256
    match drbgDraw 36 (32 * (t - 1)) false s with
    | (some b, s) =>
      let rows := chunks 32 b
      updCer (fun c => { c with
        shares := (List.range (c.param / 256)).map fun i => shareOf (ksrk s) rows (i + 1) }) s
    | (none, s) => endCeremony cjAborted s

/-- Go on after a step that counts: to the post-quorum steps, or to the action (R417). -/
def advance (s : State) : State :=
  match s.slt.cer with
  | none => s
  | some c =>
    if s.slt.phase = .approving then
      let got := if c.typ = 1 then c.enrolled.length else c.counted.length
      if got < c.required then s
      else if c.typ = 2 ∨ c.typ = 8 then { s with slt := { s.slt with phase := .postQuorum } }
      else if c.typ = 7 then formShares { s with slt := { s.slt with phase := .postQuorum } }
      else execute [] s
    else if s.slt.phase = .postQuorum then
      if c.typ = 2 ∧ c.enrolled.length = 1 then execute [] s
      else if c.typ = 7 ∧ c.wrote.length = c.param / 256 then execute [] s
      else s
    else s

/-! ### ABORT, CLOSE and the two expiries (R426, R427) -/

/-- ABORT: a running STEP ends ABORTED, with any write unconfirmed, and then the ceremony ends. -/
def cerAbort (s : State) : State :=
  if s.slt.cer.isSome then cerEnd stOk (abortCeremony s) else cerEnd stStateRefused s

/-- The export window closes, and with it the ceremony. -/
def closeWindow (s : State) : State :=
  { s with slt := { s.slt with
    cer := none
    phase := .idle
    exportG := none } }

/-- CLOSE (R427): only an export window is there to close. -/
def cerClose (s : State) : State :=
  if s.slt.phase = .exportOpen then cerEnd stOk (closeWindow (breakStep stAborted s)) else cerEnd stStateRefused s

/-- CEREMONY_EXPIRY (R426). -/
def ceremonyExpiry (s : State) : State :=
  if wardenUp s = false ∨ s.slt.cer.isNone ∨ s.slt.phase = .exportOpen then s
  else cause .slt 8 (endCeremony cjExpired s)

def execCeremonyExpiry (s : State) : Res := .next (ceremonyExpiry s)

/-- EXPORT_WINDOW_EXPIRY (R427). -/
def exportWindowExpiry (s : State) : State :=
  if wardenUp s = true ∧ s.slt.phase = .exportOpen then closeWindow (breakStep stAborted s) else s

def execExportWindowExpiry (s : State) : Res := .next (exportWindowExpiry s)

end Sys2Proof.Machine
end

