-- ==== Sys2Proof/Machine/EventRing.lean ====
section
/-! DEFINITION. The event ring (13_eave_supervisor.md, R380, R387 to R389): how a group of events is recorded, counted and
notified. -/

namespace Sys2Proof.Machine

/-- Does a detection name a tamper source, rather than an operational event (R389)? -/
def isSource (code : Nat) : Bool := decide (code < srcCount)

/-- CLASS of an event (R368, R388): operational events have class OPERATIONAL. -/
def classOf (code : Nat) : Nat := if isSource code then (sourceRow code).cls else 3

/-- LEVEL of an event: a write mismatch of R12 is recorded at RECORD, operational events at 0 (R371, R389). -/
def eventLevel (s : State) (e : Nat × List Byte) : Nat :=
  if isSource e.1 = false then 0
  else if e.1 = srcShadow ∧ leAt e.2 0 1 = 1 then 0
  else levelOf s e.1

/-- NOTIFY of an event. -/
def eventNotify (s : State) (code : Nat) : Nat := if isSource code then notifyOf s code else 1

/-- The events of a step in the order of their entries (R380): sources ascending, then the operational ones. -/
def orderEvents (es : List (Nat × List Byte)) : List (Nat × List Byte) :=
  ((List.range srcCount).flatMap fun n => es.filter fun e => e.1 == n) ++ es.filter fun e => !isSource e.1

/-- The group level (R380). -/
def groupLevel (s : State) (es : List (Nat × List Byte)) : Nat := es.foldl (fun m e => max m (eventLevel s e)) 0

/-- An entry (R388). -/
def entryBytes (s : State) (sub group : Nat) (e : Nat × List Byte) : List Byte :=
  leBytes 4 s.eav.seq.toNat
    ++ [BitVec.ofNat 8 sub, BitVec.ofNat 8 e.1, BitVec.ofNat 8 (classOf e.1 + 4 * powerCode s),
        BitVec.ofNat 8 (eventLevel s e + 8 * group + 64 * eventNotify s e.1)]
    ++ leBytes 8 (s.eav.detAon % 2 ^ 48) ++ padTo 16 e.2

/-- Write an entry: while 63 are unarchived, the 64th place takes it, and each later one replaces it (R387). -/
def putEntry (b : List Byte) (s : State) : State :=
  if s.eav.ringCount < 64 then
    let n := s.eav.ringCount + 1
    let s := { s with eav := { s.eav with
      ring := SMap.set [] s.eav.ring s.eav.ringNext b
      ringNext := (s.eav.ringNext + 1) % 64
      ringCount := n } }
    if 48 ≤ n then cause .eav 1 s else s
  else cause .eav 2 { s with eav := { s.eav with
    ring := SMap.set [] s.eav.ring ((s.eav.ringNext + 63) % 64) b
    ringLost := satInc 0xFFFF s.eav.ringLost } }

/-- A count of the lifetime record that an event raises (R472). -/
def lifeCount (code k : Nat) (c : SnapCounts) : SnapCounts :=
  if isSource code then { c with evSrc := SMap.set 0 c.evSrc code (min 0xFFFFFFFF (SMap.get 0 c.evSrc code + k)) }
  else if code = 0x41 then { c with vaultIn := min 0xFFFFFFFF (c.vaultIn + k) }
  else if code = 0x48 then { c with colds := min 0xFFFFFFFF (c.colds + k) }
  else c

/-- Count an event: in the live snapshot, or without main power for the next power-up; and per source since the last Eave
cold start (R396). -/
def countEvent (code : Nat) (s : State) : State :=
  let s := if isSource code then { s with eav := { s.eav with
      evCount := SMap.set 0 s.eav.evCount code (satInc 0xFFFF (SMap.get 0 s.eav.evCount code)) } } else s
  if mainPower s then countLife (lifeCount code 1) s
  else { s with eav := { s.eav with owed := SMap.set 0 s.eav.owed code (SMap.get 0 s.eav.owed code + 1) } }

/-- NOTIFY: bit 0 sets EVENT and the sub-cause, bit 1 tells the ridge (R380, R396, R446). -/
def notifyEvent (code notify : Nat) (entry : List Byte) (s : State) : State :=
  let s := if bitOf notify 0 then
      cause .eav 0 { s with eav := { s.eav with
        isrc := s.eav.isrc ||| BitVec.ofNat 23 (2 ^ (if isSource code then code else 22)) } }
    else s
  if bitOf notify 1 = true ∧ powered s = true then notifyRidge entry s else s

/-- Record the events of a group from position `sub` on. -/
def putEvents (group : Nat) : Nat → List (Nat × List Byte) → State → State
  | _, [], s => s
  | sub, e :: es, s =>
    let b := entryBytes s sub group e
    putEvents group (sub + 1) es (notifyEvent e.1 (eventNotify s e.1) b (countEvent e.1 (putEntry b s)))

/-- Record a group (R380): its entries, counts and notifications, LAST, and the next SEQ. -/
def recordGroup (es : List (Nat × List Byte)) (s : State) : State :=
  let g := groupLevel s es
  let s := putEvents g 0 (orderEvents es) s
  { s with eav := { s.eav with
    lastLevel := g
    seq := s.eav.seq + 1 } }

/-- The Eave die's battery-backed state is lost (R385): the AON count starts at zero with an empty ring and an empty
retained table, EAVE_COLD is recorded under SEQ 0, and the key-area erasure is pending. -/
def eaveCold (s : State) : State :=
  let fuses := s.eav.fuses
  let s := { s with
    eav := { pend := 0b0001, fuses := fuses, cold := true }
    ret := { seed := s.ret.seed } }
  recordGroup [(0x48, List.replicate 16 0)] s

/-- Events that were recorded without main power are counted (R472). -/
def countOwed (s : State) : State :=
  s.eav.owed.foldl (fun t e => countLife (lifeCount e.1 e.2) t) { s with eav := { s.eav with owed := [] } }

end Sys2Proof.Machine
end

