-- ==== Sys2Proof/Machine/Boot.lean ====
section
/-! DEFINITION. The boot ROM (16_system_control.md, R456 to R463, R467; 13_eave_supervisor.md, R383 to R385, R390):
pending work, the rollback floor, truss sparing, firmware selection, and the release of the warden. -/

namespace Sys2Proof.Machine

/-! ### Firmware slots (R460, R461) -/

/-- Flash address of firmware slot `k` (R42). -/
def fwAddr (k : Nat) : Nat := k * 0x800000

/-- Fields of a firmware header. -/
def fwSvn (b : List Byte) : Nat := leAt b 6 2
def fwCodeLen (b : List Byte) : Nat := leAt b 0x10 4
def fwEntry (b : List Byte) : Nat := leAt b 0x14 4
def fwGalFloor (b : List Byte) : Nat := leAt b 0x18 2

/-- Header and code, which the signature covers. -/
def fwBody (b : List Byte) : List Byte := b.take (64 + fwCodeLen b)

/-- The signature block behind the code. -/
def fwSig (b : List Byte) : List Byte := slice b (64 + fwCodeLen b) 200

/-- Lengths, ENTRY and SVN lie in their ranges. -/
def fwRanges (b : List Byte) : Bool :=
  decide (fwCodeLen b % 64 = 0 ∧ 264 + fwCodeLen b ≤ 0x800000 ∧ fwEntry b % 4 = 0 ∧ fwEntry b < fwCodeLen b ∧ fwSvn b ≤ 64)

/-- MAGIC, VERSION, reserved bytes and the form of the signature block. -/
def fwForm (b : List Byte) : Bool :=
  b.take 6 == [0x46, 0x57, 0x4C, 0x4E, 1, 0] && allZero (slice b 0x1A 38) && sigBlockForm (fwSig b)

/-- Status of the first check of R460 that an image fails, with the lowest SVN that passes. -/
def fwStatus (s : State) (b : List Byte) : Nat :=
  firstFail
    [(fwRanges b, stRange),
     (fwForm b, stUnsupported),
     (sha384 (sigBlockKey (fwSig b)) == Config.novquinFirmwareDigest, stInvalidKey),
     (sigBlockOk (fwSig b) (fwBody b), stVerifyFailed),
     (decide (rollback s ≤ fwSvn b), stPolicyRefused)]

/-- The image in a firmware slot: as many bytes as its header gives it, at most the slot. -/
def fwImage (s : State) (k : Nat) : List Byte :=
  flashBytes s (fwAddr k) (min 0x800000 (264 + fwCodeLen (flashBytes s (fwAddr k) 64)))

/-- Does a slot pass R460 with at least this SVN, every read of it being ok? -/
def fwOk (s : State) (k svn : Nat) : Bool :=
  flashReads s (fwAddr k) (fwImage s k).length && fwStatus s (fwImage s k) == stOk && decide (svn ≤ fwSvn (fwImage s k))

/-- The selection of R460: the slot to run and whether it is the fall-back. -/
def fwSelect (s : State) : Option (Nat × Bool) :=
  let p := s.ret.pref % 2
  if fwOk s p 0 = true ∧ s.ret.tries < 3 then some (p, false)
  else if fwOk s (1 - p) 0 then some (1 - p, true)
  else none

/-- RB_REQ (R461): the floor rises where both slots reach it; RB_REQ is cleared in every case. -/
def raiseRollback (s : State) : State :=
  let r := s.ret.rbReq
  let lo := rollback s
  let clear := fun (t : State) => { t with ret := { t.ret with rbReq := 0 } }
  if lo < r ∧ r ≤ 64 ∧ fwOk s 0 r = true ∧ fwOk s 1 r = true then
    clear (putSnapshot (blowFuses ((List.range (r - lo)).map fun i => 544 + lo + i) s))
  else clear s

/-! ### Pending work (R378, R383) -/

/-- Erase an area's sectors but the worn ones. -/
def eraseArea (first n : Nat) (s : State) : State :=
  ((usedSectors s first n).filter fun x => !isWorn s x).foldl (fun t x => (fwErase x t).2) s

/-- The terminal erasure (R378): image slots, counter journal, ceremony journal, service-program area. -/
def terminalErase (s : State) : State :=
  let p := s.img.latched.partition
  let s := eraseArea 4096 1024 (eraseArea (ctrjSect0 s) p.ctrj (eraseArea (cerjSect0 s) p.cerj s))
  let s := eraseArea (svcAreaBase p) (16384 - svcAreaBase p) s
  { s with flash := { s.flash with pkgKeys := [] } }

/-- The lifecycle fuses that pending work blows. TERMINAL governs. -/
def pendingFuses (s : State) : List Nat :=
  if bitOf s.eav.pend.toNat 1 then [136, 137, 138, 139]
  else if bitOf s.eav.pend.toNat 3 then [136, 137, 138]
  else []

/-- The pending items run in the order of R378, and a POWER_UP event names them (R383). -/
def runPending (s : State) : State :=
  let p := s.eav.pend
  let old := lifecycle s
  let s := noteLifecycle old (blowFuses (pendingFuses s) s)
  let s := if bitOf p.toNat 0 then eraseArea keySect0 s.img.latched.partition.keys s else s
  let s := if bitOf p.toNat 2 then terminalErase s else s
  let s := { s with eav := { s.eav with pend := 0 } }
  let s := if p = 0 then s else cause .eav 7 s
  raise 0x40 [BitVec.ofNat 8 p.toNat] s

/-- A new device storage root where the vault holds none; under ROOT_LOCK it stays zero (R384). -/
def drawStorageRoot (s : State) : State :=
  if s.eav.rootLock = false ∧ allZero (storageRoot s) = true then
    let d := drawBytes 32 s
    putVault 0x20 d.1 d.2
  else s

/-- Fuse pairs with one half blown are reported, once per power-up (R390). -/
def reportHalves (s : State) : State :=
  let x := (s.eav.fuses.halfA ^^^ s.eav.fuses.halfB).toNat
  ((List.range 1024).filter fun i => bitOf x i).foldl
    (fun t i => raise 0x49 [0, 0, BitVec.ofNat 8 i, BitVec.ofNat 8 (i / 256)] (cause .eav 6 t)) s

/-! ### Trusses (R5, R462) -/

/-- Physical trusses that passed final test; all of them under CAL_BAD (R458). -/
def finalTest (s : State) : Nat := if s.sys.calDef then 2 ^ 34 - 1 else leAt s.flc.cal 0x80 8

/-- The map of the first power-up: the first `n` trusses that pass, and the next two as spares. -/
def freshMap (n : Nat) (pass : List Nat) : TrussMap where
  mapped := true
  phys := (List.range n).foldl (fun m t => SMap.set 0x3F m t (pass.getD t 0x3F)) []
  spares := (pass.drop n).take 2
  retired := 0
  spared := 0

/-- Logical trusses that a spare serves: of all trusses ever mapped or kept as spares, the first `n` were mapped. -/
def sparedMask (n : Nat) (m : TrussMap) : Nat :=
  let all := (List.range 34).filter fun p => m.phys.any (fun e => e.2 == p) || m.spares.contains p || bitOf m.retired p
  let kept := all.drop n
  ((List.range 32).filter fun t => kept.contains (SMap.get 0x3F m.phys t)).foldl (fun a t => a + 2 ^ t) 0

/-- A spare that fails is retired unused. -/
def testSpares (ok : Nat → Bool) (m : TrussMap) : TrussMap :=
  { m with
    spares := m.spares.filter ok
    retired := (m.spares.filter fun p => !ok p).foldl (fun a p => a ||| 2 ^ p) m.retired }

/-- Self-test of logical truss `t`: a failing one is retired, and the lowest-numbered spare takes its place. -/
def testTruss (ok : Nat → Bool) (m : TrussMap) (t : Nat) : TrussMap :=
  let p := SMap.get 0x3F m.phys t
  if p = 0x3F ∨ ok p = true then m
  else { m with
    phys := SMap.set 0x3F m.phys t ((m.spares.head?).getD 0x3F)
    spares := m.spares.drop 1
    retired := m.retired ||| 2 ^ p }

/-- Step 7 of R457. -/
def spareTrusses (self : Nat) (s : State) : State :=
  let n := min 32 (fuseFld s 128 8)
  let ok := fun (p : Nat) => bitOf self p
  let first := !s.sys.map.mapped && decide (n ≠ 0) && lifecycle s == lcFactory
  let m := if first then freshMap n ((List.range 34).filter fun p => ok p && bitOf (finalTest s) p) else s.sys.map
  let m1 := testSpares ok m
  let m2 := (List.range 32).foldl (fun m t => testTruss ok m t) m1
  let m3 := { m2 with spared := sparedMask n m2 }
  let lost := (List.range 32).any fun t => SMap.get 0x3F m1.phys t != 0x3F && SMap.get 0x3F m2.phys t == 0x3F
  let retired := m3.retired != m.retired
  let s := { s with sys := { s.sys with
    map := m3
    trussEn := n } }
  let s := if m1.retired = m2.retired then s else cause .sys 3 s
  let s := if lost then cause .sys 4 s else s
  if first ∨ retired = true then putSnapshot s else s

/-! ### Time, certificate, counts -/

/-- Trusted time at power-up (R468). -/
def bootTime (s : State) : State :=
  if s.ret.timeSet then { s with sys := { s.sys with
    time := s.ret.baseTime + (s.eav.aon - s.ret.baseAon) * 15625 / 512
    timePhase := .holdover } }
  else s

/-- The certificate chain of a copy: its length in four bytes, then the chain (DESIGN CHOICE, log 1602). -/
def certCopy (s : State) (k : Nat) : Option (List Byte) :=
  let a := (lifeSect0 s + 2 + k) * 4096
  let n := leAt (flashBytes s a 4) 0 4
  if 1 ≤ n ∧ n ≤ 4092 ∧ flashReads s a (4 + n) = true then some (flashBytes s (a + 4) n) else none

/-- SYS_CERT_BUF and SYS_CERT_LEN (R463). -/
def loadCert (s : State) : State :=
  let s := noteSectors (lifeSect0 s + 2) 2 s
  { s with sys := { s.sys with cert := ((certCopy s 0).orElse fun _ => certCopy s 1).getD [] } }

/-- POWER_UPS and WATCHDOGS of the lifetime record, and the WATCHDOG cause (R472, R479). -/
def countBoot (s : State) : State :=
  let s := countLife (fun c => { c with powerUps := satInc 0xFFFFFFFF c.powerUps }) s
  if s.sys.rstReason = 3 then
    cause .sys 10 (countLife (fun c => { c with watchdog := satInc 0xFFFFFFFF c.watchdog }) s)
  else s

/-! ### The steps of R457 -/

/-- Steps 1 to 3: fuse halves, the calibration row, the remap records, and the current snapshot at a power-up. -/
def bootEarly (env : BootEnv) (s : State) : State :=
  let cal := padTo 256 env.calRow
  let bad := crc32 (cal.take 252) != BitVec.ofNat 32 (leAt cal 252 4)
  let s := { s with
    flash := { s.flash with calRow := cal }
    flc := { s.flc with
      cal := cal
      bootBad := env.badLines }
    sys := { s.sys with calDef := bad }
    elec := { s.elec with temp := env.temp } }
  let s := if bad then cause .flc 7 s else s
  let s := bootRemap env.badRemap s
  let s := if s.sys.rstReason = 0 then reportHalves (countOwed (loadSnapshot s)) else s
  countBoot s

/-- The entropy start-up tests (R467): a source that fails is excluded, reported and counted. -/
def startupTests (pass : BitVec 4) (s : State) : State :=
  let bad := (List.range 4).filter fun k => !pass.getLsbD k
  let s := { s with sys := { s.sys with
    entOn := pass
    entFail := ~~~pass } }
  let s := bad.foldl (fun t _ => countLife (fun c => { c with entropy := satInc 0xFFFFFFFF c.entropy }) t) s
  if bad.isEmpty then s else cause .sys 6 s

/-- The state that the module has in its cascade when its table comes back from flash (R434). -/
def bootCascade (s : State) : State :=
  let s := noteSectors (lifeSect0 s) 2 s
  match storedTable s with
  | none => s
  | some t =>
    match memberIn s t with
    | none => s
    | some m => { s with btn := { s.btn with
        table := some t
        member := m
        role := if t.ridge = m then .ridge else .rafter
        reach := BitVec.ofNat 32 (2 ^ m) } }

/-- The warden is released at an ENTRY (R457 step 11), and what it rebuilds at its start begins. -/
def releaseWarden (k : Nat) (b : List Byte) (s : State) : State :=
  let s := s.setCore wardenNum { releasedCore {} true with
    pc := BitVec.ofNat 32 (0x20000000 + fwAddr k + 0x40 + fwEntry b) }
  let s := bootCascade s
  let btn := s.btn
  let s := cerRebuild { s with flc := { s.flc with bootBad := [] } }
  { s with
    btn := btn
    sys := { s.sys with power := .active }
    ks := { s.ks with phase := .starting } }

/-- Recovery (R461, R463): no warden. -/
def enterRecovery (s : State) : State :=
  { s with
    flc := { s.flc with bootBad := [] }
    sys := { s.sys with
      power := .recovery
      runSlot := 3 } }

/-- Step 10: the firmware slot, TRIES, and GAL_FLOOR. -/
def runFirmware (s : State) : State :=
  let s := noteSectors 0 4096 s
  match fwSelect s with
  | none => enterRecovery s
  | some (k, fall) =>
    let b := fwImage s k
    let s := { s with
      sys := { s.sys with
        runSlot := k
        svn := fwSvn b
        fwDigest := sha384 (fwBody b)
        fallback := fall }
      ret := { s.ret with tries := if fall then s.ret.tries else s.ret.tries + 1 } }
    let s := if fall then cause .sys 2 s else s
    let s := if s.tel.counts.galFloor < fwGalFloor b then
        putSnapshot (countLife (fun c => { c with galFloor := fwGalFloor b }) s) else s
    releaseWarden k b s

/-- Steps 5 to 11, once step 4 has passed. -/
def bootLate (env : BootEnv) (s : State) : State :=
  let s := drawStorageRoot (raiseRollback (runPending s))
  let seed := s.ret.seed.isNone && lifecycle s == lcFactory
  let d := drawBytes 32 s
  let s := if seed then { d.2 with ret := { d.2.ret with seed := some d.1 } } else s
  let s := loadCert (bootTime (spareTrusses env.selfTest.toNat s))
  let d := drawBytes 32 s
  let s := putVault 0 d.1 d.2
  let s := applyRowLog { s with msu := { s.msu with rootOk := true } }
  let s := ctrRecover s
  if s.ret.seed.isNone then enterRecovery s else runFirmware s

/-- Step 4: VCORE at its code, and the entropy start-up tests; without them the boot ROM stays there (R467, R486). -/
def bootStep4 (env : BootEnv) (s : State) : State :=
  let v := operatingVid { s with flc := { s.flc with bootBad := env.badLines } }
  let s := sendVid .boot v.1 v.2
  let s := startupTests env.entropyPass s
  if env.vidAck = false ∨ popCount env.entropyPass < 2 then
    { s with sys := { s.sys with power := .stuck } }
  else
    bootLate env { s with elec := { s.elec with
      vid := v.1
      vidUse := .none
      vidTry := 0 } }

/-- The boot of R457, out of a device reset. -/
def boot (env : BootEnv) (s : State) : State := bootStep4 env (bootEarly env s)

/-! ### What starts a boot -/

/-- A device reset with its boot (R456). -/
def resetAndBoot (reason : Nat) (env : BootEnv) (s : State) : State := boot env (deviceReset reason s)

/-- EAVE_COLD of EAV_ICAUSE at the first power-up after a loss of the Eave die's state (R385, R396). -/
def coldCause (s : State) : State :=
  if s.eav.cold then cause .eav 5 { s with eav := { s.eav with cold := false } } else s

/-- POWER_UP (R454, R488): the main supplies come into range and main-die reset is released. The Eave die's marker is
read (R385). A device reset that still waits for its boot ROM boots too;
while a JTAG instruction controls the pins, the main die stays in reset (R498). -/
def powerUp (env : BootEnv) (s : State) : State :=
  if s.elec.vaonOk = false ∨ s.elec.jtag = .pinControl then s
  else if s.sys.power = .standby ∨ (s.sys.power = .inReset ∧ s.sys.rstReason = 0) then
    let s := { s with sys := { s.sys with power := .standby } }
    let s := if env.eaveMarker then s else eaveCold s
    resetAndBoot 0 env { s with elec := { s.elec with
      mainOk := true
      vid := 0x64
      vidOld := none
      vidReq := 0x64 } } |> coldCause
  else if s.sys.power = .inReset then boot env s
  else s

def execPowerUp (env : BootEnv) (s : State) : Res := .next (powerUp env s)

/-- WATCHDOG_EXPIRY (R456): without a KICK the device is reset. -/
def watchdogExpiry (env : BootEnv) (s : State) : State := if powered s then resetAndBoot 3 env s else s

def execWatchdogExpiry (env : BootEnv) (s : State) : Res := .next (watchdogExpiry env s)

/-- STARTUP_TEST_RETRY (R467): the boot ROM tries step 4 again. -/
def startupRetry (env : BootEnv) (s : State) : State :=
  if s.sys.power = .stuck then bootStep4 env s else s

def execStartupTestRetry (env : BootEnv) (s : State) : Res := .next (startupRetry env s)

/-- What final-test equipment blows in FACTORY (R390). -/
def fuseTest (f : FuseTest) (s : State) : State :=
  let bits := fun (lo n v : Nat) => ((List.range n).filter fun i => bitOf v i).map (lo + ·)
  if fuseFld s 136 4 ≠ 0 ∨ mainPower s = false then s
  else match f with
    | .serial v => blowFuses (bits 0 128 v.toNat) s
    | .trussEn v => blowFuses (bits 128 8 v.toNat) s
    | .dev => if certBlown s then s else blowFuse 140 s
    | .shipped => noteLifecycle (lifecycle s) (blowFuse 136 s)

def execFuseTestAccess (f : FuseTest) (s : State) : Res := .next (fuseTest f s)

end Sys2Proof.Machine
end

