-- ==== Sys2Proof/Machine/FlashEvents.lean ====
section
/-! DEFINITION. What happens in the flash array by itself (12_flash_store.md): the end of a PROG or an erase, the
resume of an automatically suspended erase, the counter journal's port, and prefetch reads. -/

namespace Sys2Proof.Machine

/-! ### The journal port (R212, R215, R350) -/

/-- The counter-journal records whose words wait, each as address and both words; a record whose word 0 is programmed
already takes it from the array. A log sector's header is not among them. -/
def portRecords (s : State) : List (Nat × List Dword) :=
  let ps := s.flc.jport
  ((ps.filter fun p => decide (p.1 % 16 = 8) && decide (16 ≤ p.1 % 4096)).map fun p =>
    (p.1 - 8, [((ps.find? fun q => decide (q.1 + 8 = p.1)).map (·.2)).getD (flashWord s (p.1 / 8 - 1)), p.2]))

/-- Write a record's words again at the log's next place (R362): none where the log has no free sector. -/
def placeRecord (ws : List Dword) (s : State) : Option State :=
  match journalPlace s with
  | none => none
  | some (x, off, fresh) =>
    let s := if fresh then
        portWords (x * 4096) [BitVec.ofNat 64 (leNat ([0x4A, 0x54, 0x43, 0x4C] ++ leBytes 4 (s.sym.ctr.uses + 1))), 0]
          (updCtr (fun c => { c with uses := c.uses + 1 }) s)
      else s
    some (updCtr (fun c => { c with log := ⟨x, off + 16, true⟩ }) (portWords (x * 4096 + off) ws s))

/-- A word of the journal port could not be programmed: every record that waits is written from the next log sector
on. Where the log has none, the words keep waiting and the vault stalls (R215). -/
def portFailed (a : Nat) (s : State) : State :=
  let recs := portRecords s
  let t := { s with flc := { s.flc with jport := [] } }
  let t := updCtr (fun c => { c with log := { c.log with
    sector := a / 4096
    off := 4096
    valid := true } }) t
  match recs.foldl (fun (o : Option State) r => o.bind fun u => placeRecord r.2 u) (some t) with
  | some u => u
  | none => cause .sym 3 (updCtr (fun c => { c with stalled := true }) s)

/-- May the journal port have the array: no warden PROG runs? It goes ahead of a queued command (R350). -/
def portMay (s : State) : Bool := match s.flc.run with
  | .none => true
  | .prog _ _ started => !started
  | .erase _ => true
  | .retire _ _ => true
  | .read _ _ => false

/-- The journal port issues the PROG of its next word (R350): it waits for a running warden PROG, and for an erase that
neither is suspended nor may be. A check of R352 that fails sends the record to the next place; EXHAUSTED sets JWEAR
(R215). -/
def journalPortProg (s : State) : State :=
  match s.flc.jport with
  | [] => s
  | (a, w) :: _ =>
    if powered s = false ∨ portMay s = false ∨ s.flc.jrun.isSome = true then s
    else if readWaits s = true then s
    else
      let s := autoSuspend s
      let st := jportCheck s a
      if st = stOk then dropSectorLines (a / 4096) { s with flc := { s.flc with jrun := some (a, w) } }
      else startQueued (portFailed a (if st = stExhausted then cause .sym 4 s else s))

/-- JOURNAL_PORT_PROG (R350). -/
def execJournalPortProg (s : State) : Res := .next (journalPortProg s)

/-! ### Ends of array operations -/

/-- The journal port's PROG ends (R212, R215, R361). A READ that waited for its line is then carried out. -/
def portProgEnd (a : Nat) (w : Dword) (out : FlashOutcome) (s : State) : State :=
  let r := finishProg a [w] out { s with flc := { s.flc with jrun := none } }
  let s := dropSectorLines (a / 4096) r.2
  let s := if r.1 then { s with flc := { s.flc with jport := s.flc.jport.drop 1 } } else portFailed a (cause .sym 4 s)
  match s.flc.run with
  | .read line arr => readCommand line arr s
  | _ => startQueued (pageStep s)

/-- The array operation of a PROG ends: the journal port's where one holds the array, else the warden's (R354). The
pulses of an outcome are 1 to 8; any other outcome is none of a PROG's. -/
def progComplete (out : FlashOutcome) (s : State) : State :=
  if (match out.pulses with
      | some p => decide (1 ≤ p ∧ p ≤ 8)
      | none => true) then
    match s.flc.jrun with
    | some (a, w) => portProgEnd a w out s
    | none =>
      match s.flc.run with
      | .prog a ws true =>
        let r := finishProg a ws out { s with flc := { s.flc with run := .none } }
        flcEnd 2 (if r.1 then stOk else stExhausted) (dropSectorLines (a / 4096) r.2)
      | _ => s
  else s

/-- PROG_COMPLETE (R354, R361, R362). -/
def execProgComplete (out : FlashOutcome) (s : State) : Res := .next (progComplete out s)

/-- ERASE_COMPLETE (R355): an erase that runs ends; the pulses of an outcome are 1 to 12. -/
def eraseComplete (out : FlashOutcome) (s : State) : State :=
  if (match out.pulses with
      | some p => decide (1 ≤ p ∧ p ≤ 12)
      | none => true) && s.flc.erase == .running && s.flc.run == .none && s.flc.jrun.isNone then finishErase out s
  else s

/-- ERASE_COMPLETE (R355, R361, R362). -/
def execEraseComplete (out : FlashOutcome) (s : State) : Res := .next (eraseComplete out s)

/-- AUTO_RESUME (R357): an automatically suspended erase goes on, once the journal port wants the array no more (R350). -/
def autoResume (s : State) : State :=
  if s.flc.erase = .auto ∧ s.flc.run = .none ∧ portWants s = false then { s with flc := { s.flc with erase := .running } }
  else s

/-- AUTO_RESUME (R357). -/
def execAutoResume (s : State) : Res := .next (autoResume s)

/-! ### Prefetch (R365) -/

/-- The next line that the prefetch buffer misses: of the 8 lines after the last fill, the lowest one missing. -/
def nextPrefetch (s : State) : Option Nat :=
  match s.flc.lastFill with
  | none => none
  | some l => ((List.range 8).map fun i => l + 1 + i).find? fun x => prefetchable s x && !s.flc.prefetch.contains x

/-- PREFETCH_READ (R365): the buffer reads its next missing line while the array is free; a line whose read fails is
discarded (R349). -/
def prefetchRead (arr : LineRead) (s : State) : State :=
  if powered s = false ∨ s.flc.run ≠ .none ∨ s.flc.jrun.isSome = true ∨ readWaits s = true then s
  else
    match nextPrefetch s with
    | none => s
    | some l =>
      let r := lineRead l arr false s
      if rstOk r.2.1 then { r.2.2 with flc := { r.2.2.flc with prefetch := r.2.2.flc.prefetch ++ [l] } } else r.2.2

/-- PREFETCH_READ (R365). -/
def execPrefetchRead (array : LineRead) (s : State) : Res := .next (prefetchRead array s)

/-- A fill of the warden's instruction cache from flash line `l`: true where the line is returned (R349, R365). A line read
from the array goes to the branch cache; a line there is its set's most recently used one. -/
def fillFromFlash (l : Nat) (arr : LineRead) (s : State) : Bool × State :=
  let r := if xipHit s l then (true, s)
    else
      let q := lineRead l arr false s
      (rstOk q.2.1, q.2.2)
  let inBranch := xipHit s l = false ∨ (SMap.get [] s.flc.branch (l % 64)).contains l = true
  let s := if r.1 = true ∧ inBranch then branchInsert l r.2 else r.2
  (r.1, prefetchKeep l { s with flc := { s.flc with lastFill := some l } })

end Sys2Proof.Machine
end

