-- ==== Sys2Proof/Machine/Slate.lean ====
section
/-! DEFINITION. The slots and the Slate protocol, the ISO/IEC 7816-3 subset, and the stages of a STEP
(14_slate_port_ceremonies.md, R397 to R414, R419 to R422, R425; 17_electrical_package.md, R494). -/

namespace Sys2Proof.Machine

/-! ### Frames and data blocks (R401 to R404) -/

/-- A command frame (R401). -/
def slateFrame (index seq arg : Nat) : List Byte :=
  let b := [BitVec.ofNat 8 (0x40 + index), BitVec.ofNat 8 seq] ++ beBytes 4 arg
  b ++ [crc8 b]

/-- The CRC-16 of R402 over bits. -/
def crc16Bits (bits : List Bool) : BitVec 16 :=
  bits.foldl (fun c b =>
    let top := c.getLsbD 15 != b
    if top then (c <<< 1) ^^^ 0x1021 else c <<< 1) 0

/-- The bits that data line `l` carries of a block (R404). -/
def lineBits (rate : Nat) (l : Nat) (bs : List Byte) : List Bool :=
  if rate = 0 then bs.flatMap fun b => (List.range 8).map fun i => b.getLsbD (7 - i)
  else bs.flatMap fun b => [b.getLsbD (4 + l), b.getLsbD l]

/-- The CRC-16 values of a block, line 0 first. -/
def blockCrcs (rate : Nat) (bs : List Byte) : List (BitVec 16) :=
  (List.range (if rate = 0 then 1 else 4)).map fun l => crc16Bits (lineBits rate l bs)

/-- A block as it leaves the module: its bytes, then each line's CRC. -/
def blockOut (rate : Nat) (bs : List Byte) : List Byte :=
  bs ++ (blockCrcs rate bs).flatMap fun c => beBytes 2 c.toNat

/-- Did a read block arrive whole? -/
def blockGood (rate len : Nat) (blk : SlateBlock) : Bool := decide (blk.bytes.length = len) && blk.crcs == blockCrcs rate blk.bytes

/-- The pattern block of TUNE (R407). -/
def tunePattern : List Byte := (List.range 64).map fun k => BitVec.ofNat 8 (k * 0x3B) ^^^ 0xA5

/-! ### Tuning (R407) -/

/-- Length of the circular run of passing taps that starts at `k`. -/
def runFrom (passed : List Nat) (k : Nat) : Nat :=
  ((List.range 32).find? fun i => !passed.contains ((k + i) % 32)).getD 32

/-- The longest run, the lowest-numbered on a tie: (start, length). -/
def bestRun (passed : List Nat) : Nat × Nat :=
  (List.range 32).foldl (fun b k => if b.2 < runFrom passed k then (k, runFrom passed k) else b) (0, 0)

/-- The tap that a tuning chooses: none without a window of 6 taps. -/
def chosenTap (passed : List Nat) : Option Nat :=
  let b := bestRun passed
  if 6 ≤ b.2 then some ((b.1 + (b.2 - 1) / 2) % 32) else none

/-! ### T=1 (R413, R414; block format of ISO/IEC 7816-3) -/

/-- A block: NAD 0, PCB, length, information, LRC. -/
def t1Bytes (pcb : Nat) (inf : List Byte) : List Byte :=
  let b := [0, BitVec.ofNat 8 pcb, BitVec.ofNat 8 inf.length] ++ inf
  b ++ [b.foldl (· ^^^ ·) 0]

/-- Send a block and keep it for a repetition. -/
def t1Send (n : Nat) (b : List Byte) (s : State) : State :=
  emit (.cardBlock n b) (setSlot n { slotOf s n with lastTx := b } s)

/-- Send the next segment of an APDU as an I-block. -/
def t1Next (n : Nat) (s : State) : State :=
  let x := slotOf s n
  match x.txSeg with
  | [] => s
  | c :: cs => t1Send n (t1Bytes (64 * x.ns + (if cs.isEmpty then 0 else 32)) c) (setSlot n { x with
      ns := (x.ns + 1) % 2
      txSeg := cs } s)

/-- Send an APDU, chained where it exceeds IFSC. -/
def sendApdu (n : Nat) (apdu : List Byte) (s : State) : State :=
  t1Next n (setSlot n { slotOf s n with
    txSeg := chunks (max 1 (slotOf s n).ifsc) apdu
    rxSeg := [] } s)

/-- SSTATUS of a status word (R414). -/
def sstatusOf (sw : Nat) : Nat :=
  if sw = 0x9000 then 0 else if sw = 0x6985 then 2 else if sw = 0x6982 then 3 else if sw = 0x6988 then 4
  else if sw = 0x6A84 then 5 else if sw = 0x6581 then 6 else 1

/-! ### Commands -/

/-- Index and ARG of the command that a stage waits on (R408). -/
def stageCmd (x : Slot) : Option (Nat × Nat) := match x.stage with
  | .ident => some (0x01, 0)
  | .setRate => some (0x02, x.maxRate)
  | .tune _ => some (0x03, 0)
  | .auth => some (0x0A, 0)
  | .poll => some (0x0B, 0)
  | .readCmd b => some (0x08, b)
  | .preStatus _ => some (0x04, 0)
  | .writeCmd b => some (0x09, b)
  | .postStatus _ => some (0x04, 0)
  | _ => none

/-- The APDU of a stage and segment (R414). -/
def stageApdu (x : Slot) : Option (List Byte) :=
  let head := fun (cla ins p2 l : Nat) => [BitVec.ofNat 8 cla, BitVec.ofNat 8 ins, BitVec.ofNat 8 x.seg, BitVec.ofNat 8 p2, BitVec.ofNat 8 l]
  let put := fun (ins p2 : Nat) => head (if x.seg < 3 then 0x90 else 0x80) ins p2 128 ++ slice x.request (128 * x.seg) 128
  match x.stage with
  | .ident => some (head 0x80 0x01 0 128)
  | .auth => some (put 0x0A 0)
  | .poll => some (head 0x80 0x0B 0 128)
  | .readCmd b => some (head 0x80 0x08 b 128)
  | .writeCmd b => some (put 0x09 b)
  | .preStatus _ => some (head 0x80 0x04 0 2)
  | .postStatus _ => some (head 0x80 0x04 0 2)
  | _ => none

/-- Send what the stage waits on: a frame with a new SEQ, or an APDU. -/
def transmit (n : Nat) (s : State) : State :=
  let x := slotOf s n
  if x.proto = 2 then
    match stageApdu x with
    | some a => sendApdu n a s
    | none => s
  else
    match stageCmd x with
    | some (i, a) =>
      let q := (x.seq + 1) % 256
      emit (.linkCommand n (slateFrame i q a)) (setSlot n { x with seq := q } s)
    | none => s

/-- Has the main die's temperature moved by more than 20 °C since the last tuning (R407)? -/
def tempMoved (s : State) (x : Slot) : Bool := decide (320 < (s.elec.temp - x.tuneTemp).natAbs)

/-- Begin a tuning that goes on with stage `st` (R407). -/
def beginTune (n : Nat) (st : SlotStage) (s : State) : State :=
  transmit n (setSlot n { slotOf s n with
    stage := .tune 0
    resume := st
    passed := [] } s)

/-- Go on to a stage and send its command; a temperature shift has the slot tuned first. -/
def goStage (n : Nat) (st : SlotStage) (s : State) : State :=
  let x := slotOf s n
  let s := setSlot n { x with
    stage := st
    retries := 0
    seg := 0
    reply := [] } s
  if x.proto = 1 ∧ 2 ≤ x.rate ∧ tempMoved s x = true then beginTune n st s else transmit n s

/-! ### The end of a STEP or an identification (R419 stage 6, R420) -/

/-- RESET, power-off, and the status of the STEP; a write that is open becomes unconfirmed (R425). -/
def slotFinish (n st : Nat) (s : State) : State :=
  let x := slotOf s n
  let s := if midWrite x then markUnconfirmed n s else s
  let s := if x.proto = 1 then emit (.linkCommand n (slateFrame 0 ((x.seq + 1) % 256) 0)) s else s
  if x.step then stopStep st s else slotOff n s

/-- A STEP that is refused after identification is journalled (R423). -/
def slotRefuse (n st : Nat) (s : State) : State :=
  let x := slotOf s n
  slotFinish n st (cerLog cjRefused n 0 x.custId (leBytes 2 st) s)

/-- Retries ran out (R406): LINK_ERR, and the step ends with ABORTED. -/
def slotGiveUp (n : Nat) (s : State) : State := slotFinish n stAborted (cause .slt 7 s)

/-- A card that cannot be used (R399, R413): PROTO 3. -/
def slotUnusable (n : Nat) (s : State) : State :=
  slotFinish n stUnsupported (setSlot n { slotOf s n with proto := 3 } s)

/-- What a slate's status other than OK ends the step with (R420). -/
def statusEnd (n sst : Nat) (s : State) : State :=
  slotFinish n (if sst = 4 then stIntegrity else if sst = 5 ∨ sst = 6 then stExhausted else stAborted) s

/-! ### Activation (R399, R413) -/

/-- Power the slot and send IDENT under the Slate protocol. -/
def activate (n : Nat) (s : State) : State :=
  goStage n .ident (setSlot n { slotOf s n with
    powered := true
    proto := 0
    rate := 0
    stage := .ident } s)

/-- Activation under ISO/IEC 7816-3: class B or C by VIO, else no card is activated. -/
def activateCard (n : Nat) (s : State) : State :=
  if 2800 ≤ Config.vioMillivolts ∨ Config.vioMillivolts ≤ 1980 then
    setSlot n { slotOf s n with
      stage := .atr false
      proto := 2
      ns := 0
      nr := 0
      resynced := false
      txSeg := []
      rxSeg := [] } s
  else slotUnusable n s

/-- The highest rate that the module selects: rate 3 only while VCC_SLT is at most 1.98 V (R494). -/
def rateCap (m : Nat) : Nat := if m ≤ 2 then m else if Config.vioMillivolts ≤ 1980 then 3 else 2

/-! ### Tuning and retries (R406, R407) -/

/-- The next tap, or the choice after the last one: a slot without a window falls back to the next lower rate. -/
def tuneNext (n k : Nat) (ok : Bool) (s : State) : State :=
  let x := slotOf s n
  let passed := if ok then x.passed ++ [k] else x.passed
  let s := setSlot n { x with passed := passed } s
  if k < 31 then transmit n (setSlot n { slotOf s n with stage := .tune (k + 1) } s)
  else match chosenTap passed with
    | some t => goStage n x.resume (setSlot n { slotOf s n with
        tap := t
        tuneTemp := s.elec.temp
        crcRow := 0 } s)
    | none => transmit n (cause .slt 7 (setSlot n { slotOf s n with
        stage := .setRate
        maxRate := x.rate - 1 } s))

/-- The command stage that a waiting stage goes back to. -/
def retryStage : SlotStage → SlotStage
  | .identBlock => .ident
  | .replyBlock => .poll
  | .readBlock b => .readCmd b
  | st => st

/-- A response or block failed: the command is sent again with a new SEQ, up to three times; two CRC failures in a row
at rate 2 or 3 have the slot tuned anew. -/
def slotRetry (n : Nat) (crc : Bool) (s : State) : State :=
  let x := slotOf s n
  let x := { x with
    crcErr := if crc then satInc 0xFFFF x.crcErr else x.crcErr
    timeouts := if crc then x.timeouts else satInc 0xFFFF x.timeouts
    crcRow := if crc then x.crcRow + 1 else 0 }
  let s := setSlot n x s
  match x.stage with
  | .tune k => tuneNext n k false s
  | .tuneBlock k => tuneNext n k false s
  | _ =>
    if 3 ≤ x.retries then slotGiveUp n s
    else
      let s := setSlot n { x with
        retries := x.retries + 1
        stage := retryStage x.stage } s
      if crc = true ∧ 2 ≤ x.crcRow ∧ 2 ≤ x.rate then beginTune n (retryStage x.stage) s else transmit n s

/-! ### Identification and authentication (R409, R410, R419 stages 1 to 3) -/

/-- CUST_ID of a public key (R409). -/
def custIdOf (pub : List Byte) : List Byte := (sha384 pub).take 16

/-- A public key in compressed form, 49 bytes. -/
def compressPub (pub : List Byte) : List Byte := (if bitOf (leAt pub 95 1) 0 then 3 else 2) :: pub.take 48

/-- AUTH with a fresh request block; a DRBG in error ends the step. -/
def startAuth (n : Nat) (s : State) : State :=
  match s.slt.cer with
  | none => slotFinish n stAborted s
  | some c =>
    match drbgDraw 36 88 false s with
    | (none, s) => slotFinish n stAborted s
    | (some r, s) =>
      let d := nonceOf bp384 (r.take 56)
      let body := [0x53, 0x4C, 0x52, 0x51, 1, 0, 0, 0] ++ serialBytes s ++ publicOf bp384 d ++ slice r 56 32 ++ padTo 48 c.digest
      match identitySign (sha384 body) s with
      | (none, s) => slotFinish n stAborted s
      | (some sig, s) =>
        setSlot n { slotOf s n with
          request := padTo 512 (body ++ sig)
          ephem := d
          repeated := false
          resume := .auth } s

/-- After AUTH has been made ready: at rates above 0 the rate is set first. -/
def afterIdent (n : Nat) (s : State) : State :=
  let x := slotOf s n
  if x.stage = .off then s
  else if x.proto = 1 ∧ 0 < x.maxRate then transmit n (setSlot n { x with stage := .setRate } s)
  else goStage n .auth s

/-- The identity block has come (R410). -/
def identityDone (n : Nat) (b : List Byte) (s : State) : State :=
  if b.take 6 ≠ [0x53, 0x4C, 0x49, 0x44, 1, 0] then slotUnusable n s
  else
    let x := slotOf s n
    let pub := slice b 0x18 96
    let s := setSlot n { x with
      wseq := leAt b 6 2
      serial := slice b 8 16
      pubKey := pub
      custId := custIdOf pub } s
    if x.step then afterIdent n (startAuth n s) else slotFinish n stOk s

/-- What a STEP is for (R417, R419). -/
inductive StepUse where
  | approval | enrol | write | read | note
deriving DecidableEq, Repr

/-- What the running STEP is for. -/
def stepUse (s : State) (c : Ceremony) : StepUse :=
  if c.typ = 1 then .enrol
  else if s.slt.phase = .approving then .approval
  else if s.slt.phase = .postQuorum then (if c.typ = 2 then .enrol else if c.typ = 7 then .write else .read)
  else .note

/-- Is a custodian in the roster, in a group that counts? -/
def rosterCounts (s : State) (c : Ceremony) (id : List Byte) : Bool :=
  s.slt.roster.any fun k => k.custId == id && bitOf c.mask k.group

/-- GROUP of a custodian; 0 outside the roster. -/
def groupOf (s : State) (id : List Byte) : Nat := ((s.slt.roster.find? fun k => k.custId == id).map (·.group)).getD 0

/-- The share that a custodian is to hold (R421): the one begun, or the lowest that no custodian has. -/
def shareFor (c : Ceremony) (id : List Byte) : Option Nat :=
  match c.pendingW.find? fun p => p.1 == id with
  | some p => some p.2
  | none => ((List.range (c.param / 256)).map (· + 1)).find? fun x => !((c.wrote ++ c.pendingW).any fun p => p.2 == x)

/-- May this custodian take this step (R420)? -/
def stepPermitted (s : State) (c : Ceremony) (x : Slot) : Bool :=
  match stepUse s c with
  | .enrol => c.typ == 1 || x.custId == c.subject.take 16
  | .write => rosterCounts s c x.custId && !(c.wrote.any fun p => p.1 == x.custId) && (shareFor c x.custId).isSome
  | _ => countsAll s c.typ || rosterCounts s c x.custId

/-- Has the custodian already counted (R420)? -/
def alreadyCounted (s : State) (c : Ceremony) (id : List Byte) : Bool :=
  match stepUse s c with
  | .approval => c.counted.contains id
  | .note => c.counted.contains id
  | .enrol => c.enrolled.any fun k => k.custId == id
  | .write => false
  | .read => false

/-- What the custodian signs (R410). -/
def transcript (x : Slot) (b : List Byte) : List Byte := slice x.request 0 0x128 ++ slice b 0 0x78

/-- Does a reply verify (R410)? -/
def replyVerifies (x : Slot) (b : List Byte) : Bool :=
  b.take 8 == [0x53, 0x4C, 0x52, 0x50, 1, 0, 0, 0] && slice b 8 16 == x.serial
    && onCurve bp384 (beNat (slice b 0x18 48)) (beNat (slice b 0x48 48))
    && onCurve bp384 (beNat (slice x.pubKey 0 48)) (beNat (slice x.pubKey 48 48))
    && ecdsaCheck bp384 x.pubKey (sha384 (transcript x b)) (slice b 0x78 96)

/-- The session that a verified reply opens (R411). -/
def openSession (x : Slot) (b : List Byte) : SlateSession :=
  let z := match ecMul bp384 x.ephem (some (beNat (slice b 0x18 48), beNat (slice b 0x48 48))) with
    | some (zx, _) => beBytes 48 zx
    | none => List.replicate 48 0
  let k := kdfHmac z (ascii "LA-SLSK") (slice x.request 0x78 32) 64
  { km2s := k.take 32, ks2m := k.drop 32 }

/-- The reply block has come: it is verified, and the step is counted or goes on over the session (R419 stage 3). -/
def replyDone (n : Nat) (b : List Byte) (s : State) : State :=
  match s.slt.cer with
  | none => slotFinish n stAborted s
  | some c =>
    let x := slotOf s n
    let g := groupOf s x.custId
    if alreadyCounted s c x.custId then slotRefuse n stStateRefused s
    else if stepPermitted s c x = false then slotRefuse n stNotPermitted s
    else if replyVerifies x b = false then slotRefuse n stVerifyFailed s
    else
      let s := setSlot n { x with session := some (openSession x b) } s
      match stepUse s c with
      | .approval =>
        let s := updCer (fun c => { c with counted := c.counted ++ [x.custId] }) s
        advance (slotFinish n stOk (cerLog cjApprove n g x.custId (sha384 (transcript x b)) s))
      | .note => slotFinish n stOk (cerLog cjApprove n g x.custId (sha384 (transcript x b)) s)
      | .enrol =>
        let g := if c.typ = 1 then 0 else c.target
        let s := updCer (fun c => { c with
          enrolled := c.enrolled ++ [⟨x.custId, compressPub x.pubKey, g⟩]
          counted := if c.typ = 1 then c.counted ++ [x.custId] else c.counted
          post := if c.typ = 1 then c.post else c.post + 1 }) s
        advance (slotFinish n stOk (cerLog cjEnrolled n g x.custId (compressPub x.pubKey) s))
      | .write => goStage n (.readCmd 1) s
      | .read => goStage n (.readCmd 1) s

/-! ### Sealed blocks (R411) and shares (R419 stages 4 and 5, R421, R422) -/

/-- Seal a block for the slate. -/
def sealBlock (v : SlateSession) (block : Nat) (pt : List Byte) : List Byte :=
  let ctr := leBytes 8 v.txCtr
  let head := padTo 16 (BitVec.ofNat 8 block :: ctr)
  let e := gcmEnc v.km2s ([1, 0, 0, 0] ++ ctr) head (padTo 480 pt)
  head ++ e.1 ++ e.2

/-- Open a block from the slate: its plaintext and its counter, where tag, block number and counter hold. -/
def openBlock (v : SlateSession) (block : Nat) (b : List Byte) : Option (List Byte × Nat) :=
  let ctr := leAt b 1 8
  if leAt b 0 1 = block ∧ v.rxCtr ≤ ctr ∧ allZero (slice b 9 7) = true then
    (gcmDec v.ks2m ([2, 0, 0, 0] ++ slice b 1 8) (slice b 0 16) (slice b 0x10 480) (slice b 0x1F0 16)).map fun p => (p, ctr)
  else none

/-- The shares of a STEP are counted, and a whole set is tried (R422). -/
def sharesRead (n : Nat) (s : State) : State :=
  let x := slotOf s n
  let s := x.found.foldl (fun t _ => cerLog cjShareRead n (groupOf t x.custId) x.custId [] t) s
  let s := updCer (fun c => { c with
    read := c.read ++ x.found
    post := c.post + x.found.length }) s
  match s.slt.cer with
  | none => slotFinish n stAborted s
  | some c =>
    match wholeSet c.read with
    | none => slotFinish n stOk s
    | some set =>
      match reconstruct s set with
      | some root => execute root (slotFinish n stOk s)
      | none => slotRefuse n stVerifyFailed (updCer (fun c => { c with read := c.read.filter fun r => !set.contains r }) s)

/-- A sealed block has been read (R419). -/
def sealedRead (n block : Nat) (b : List Byte) (s : State) : State :=
  let x := slotOf s n
  match s.slt.cer, x.session with
  | some c, some v =>
    match openBlock v block b with
    | none => slotRefuse n stIntegrity s
    | some (pt, ctr) =>
      let x := { x with session := some { v with rxCtr := ctr + 1 } }
      let s := setSlot n x s
      let share := parseShare pt
      if stepUse s c = .write then
        let mine := match share with
          | some r => r.serial == serialBytes s
          | none => false
        if allZero pt = true ∨ mine = true then goStage n (.preStatus block) s
        else if block < 63 then goStage n (.readCmd (block + 1)) s
        else slotFinish n stExhausted s
      else
        let s := match share with
          | some r => setSlot n { x with found := x.found ++ [r] } s
          | none => s
        if allZero pt = true ∨ 63 ≤ block then sharesRead n s else goStage n (.readCmd (block + 1)) s
  | _, _ => slotFinish n stAborted s

/-- STATUS before the WRITE has answered: WRITE_START, and the WRITE (R419 stage 4). -/
def startWrite (n block wseq : Nat) (s : State) : State :=
  let x := slotOf s n
  match s.slt.cer, x.session with
  | some c, some v =>
    match shareFor c x.custId with
    | none => slotRefuse n stNotPermitted s
    | some k =>
      let expect := (wseq + 1) % 65536
      let s := setSlot n { x with
        wseq := wseq
        writeX := k
        writeB := block
        expect := expect
        repeated := false
        request := sealBlock v block (shareBlock s c k)
        session := some { v with txCtr := v.txCtr + 1 } } s
      let s := cerLog cjWriteStart n (groupOf s x.custId) x.custId
        ([BitVec.ofNat 8 block] ++ leBytes 2 expect ++ [BitVec.ofNat 8 k]) s
      goStage n (.writeCmd block) s
  | _, _ => slotFinish n stAborted s

/-- STATUS after the WRITE has answered: the write is confirmed, or stays unconfirmed (R412, R419, R425). -/
def endWrite (n wseq : Nat) (s : State) : State :=
  let x := slotOf s n
  let s := setSlot n { x with wseq := wseq } s
  if wseq = x.expect then
    let s := cerLog cjConfirmed n (groupOf s x.custId) x.custId
      ([BitVec.ofNat 8 x.writeB] ++ leBytes 2 x.expect ++ [BitVec.ofNat 8 x.writeX]) s
    let s := updCer (fun c => { c with
      wrote := c.wrote ++ [(x.custId, x.writeX)]
      pendingW := c.pendingW.filter fun p => p.1 != x.custId
      post := c.post + 1
      unconf := (c.pendingW.filter fun p => p.1 != x.custId).length }) s
    let s := setSlot n { slotOf s n with
      unconf := false
      stage := .poll } s
    advance (slotFinish n stOk s)
  else slotFinish n stAborted s

/-! ### Events from the slot -/

/-- Is the ceremony engine serving the slots? In Standby and Vault they are unpowered (R398). -/
def slotLive (s : State) (n : Nat) : Bool := wardenUp s && (slotOf s n).powered

/-- SLATE_RESPONSE: a frame with a good CRC, the INDEX and the SEQ of the command answers it. -/
def slateResponse (n : Nat) (f : List Byte) (s : State) : State :=
  let x := slotOf s n
  match stageCmd x with
  | none => s
  | some (index, _) =>
    if slotLive s n = false ∨ x.proto = 2 then s
    else if f.length ≠ 7 ∨ crc8 (f.take 6) ≠ f.getD 6 0 ∨ bitOf (leAt f 0 1) 7 = true then slotRetry n true s
    else if leAt f 0 1 ≠ index ∨ leAt f 1 1 ≠ x.seq then s
    else
      let sst := beNat (slice f 2 2)
      let v := beNat (slice f 4 2)
      let s := setSlot n { x with crcRow := 0 } s
      let wait := fun (st : SlotStage) (t : State) => setSlot n { slotOf t n with stage := st } t
      match x.stage with
      | .tune k => if sst = 0 then wait (.tuneBlock k) s else tuneNext n k false s
      | .poll => if sst = 0 then wait .replyBlock s else if sst = 3 then s else statusEnd n sst s
      | st =>
        if sst ≠ 0 then statusEnd n sst s
        else match st with
          | .ident => setSlot n { slotOf s n with
              proto := 1
              maxRate := rateCap (v % 16)
              stage := .identBlock } s
          | .setRate =>
            let s := setSlot n { slotOf s n with rate := x.maxRate } s
            if 2 ≤ x.maxRate then beginTune n x.resume s else goStage n x.resume s
          | .auth => emit (.linkData n (blockOut x.rate x.request)) (wait .authToken s)
          | .readCmd b => wait (.readBlock b) s
          | .preStatus b => startWrite n b v s
          | .writeCmd b => emit (.linkData n (blockOut x.rate x.request)) (wait (.writeToken b) s)
          | .postStatus _ => endWrite n v s
          | _ => s

def execSlateResponse (n : Fin 2) (frame : SlateFrame) (s : State) : Res := .next (slateResponse n.val frame.bytes s)

/-- DATA_BLOCK_RECEIVED (R404, R406). -/
def dataBlock (n : Nat) (blk : SlateBlock) (s : State) : State :=
  let x := slotOf s n
  let good := blockGood x.rate 512 blk
  if slotLive s n = false ∨ x.proto = 2 then s
  else match x.stage with
    | .tuneBlock k => tuneNext n k (blockGood x.rate 64 blk && blk.bytes == tunePattern) s
    | .identBlock => if good then identityDone n blk.bytes (setSlot n { x with crcRow := 0 } s) else slotRetry n true s
    | .replyBlock => if good then replyDone n blk.bytes (setSlot n { x with crcRow := 0 } s) else slotRetry n true s
    | .readBlock b => if good then sealedRead n b blk.bytes (setSlot n { x with crcRow := 0 } s) else slotRetry n true s
    | _ => s

def execDataBlockReceived (n : Fin 2) (blk : SlateBlock) (s : State) : Res := .next (dataBlock n.val blk s)

/-- CRC_TOKEN (R405, R406): 0b010 received; 0b101 has the write repeated once. -/
def crcToken (n : Nat) (tok : Nat) (s : State) : State :=
  let x := slotOf s n
  let again := fun (st : SlotStage) => transmit n (setSlot n { x with
    stage := st
    repeated := true
    crcErr := satInc 0xFFFF x.crcErr } s)
  if slotLive s n = false then s
  else match x.stage with
    | .authToken =>
      if tok = 0b010 then goStage n .poll s
      else if tok = 0b101 ∧ x.repeated = false then again .auth
      else slotGiveUp n s
    | .writeToken b =>
      if tok = 0b010 then setSlot n { x with stage := .busy b } s
      else if tok = 0b101 ∧ x.repeated = false then again (.writeCmd b)
      else slotGiveUp n s
    | _ => s

def execCrcToken (n : Fin 2) (token : BitVec 3) (s : State) : Res := .next (crcToken n.val token.toNat s)

/-- BUSY_RELEASE (R405): STATUS then confirms WSEQ. -/
def busyRelease (n : Nat) (s : State) : State :=
  if slotLive s n = false then s
  else match (slotOf s n).stage with
    | .busy b => goStage n (.postStatus b) s
    | _ => s

def execBusyRelease (n : Fin 2) (s : State) : Res := .next (busyRelease n.val s)

/-- A T=1 block was faulty or did not come (R413): a repetition is asked for three times, then a resynchronisation. -/
def t1Retry (n : Nat) (crc : Bool) (s : State) : State :=
  let x := slotOf s n
  let x := { x with
    crcErr := if crc then satInc 0xFFFF x.crcErr else x.crcErr
    timeouts := if crc then x.timeouts else satInc 0xFFFF x.timeouts }
  if x.retries < 3 then
    emit (.cardBlock n (t1Bytes (0x80 + 16 * x.nr + (if crc then 1 else 2)) [])) (setSlot n { x with retries := x.retries + 1 } s)
  else if x.resynced = false then
    t1Send n (t1Bytes 0xC0 []) (setSlot n { x with
      resynced := true
      retries := 0 } s)
  else slotGiveUp n (setSlot n x s)

/-- SLATE_TIMEOUT (R399, R406). -/
def slateTimeout (n : Nat) (limit : SlateLimit) (s : State) : State :=
  let x := slotOf s n
  let late := setSlot n { x with timeouts := satInc 0xFFFF x.timeouts } s
  if slotLive s n = false then s
  else match limit with
    | .noResponse =>
      if x.proto = 2 then (match x.stage with
        | .atr _ => s
        | _ => t1Retry n false s)
      else match x.stage with
        | .ident => if x.proto = 0 then activateCard n late else slotRetry n false s
        | _ => if (stageCmd x).isSome then slotRetry n false s else s
    | .noBlock => (match x.stage with
        | .identBlock => slotRetry n false s
        | .tuneBlock _ => slotRetry n false s
        | .replyBlock => slotRetry n false s
        | .readBlock _ => slotRetry n false s
        | _ => s)
    | .noToken => (match x.stage with
        | .authToken => slotFinish n stAborted late
        | .writeToken _ => slotFinish n stAborted late
        | _ => s)
    | .busy => (match x.stage with
        | .busy _ => slotFinish n stAborted late
        | _ => s)
    | .authorisation => if x.stage = .poll then slotFinish n stAborted late else s

def execSlateTimeout (n : Fin 2) (limit : SlateLimit) (s : State) : Res := .next (slateTimeout n.val limit s)

/-- REPLY_POLL (R406): REPLY is sent again while the holder has not authorised it. -/
def replyPoll (n : Nat) (s : State) : State :=
  if slotLive s n = true ∧ (slotOf s n).stage = .poll then goStage n .poll s else s

def execReplyPoll (n : Fin 2) (s : State) : Res := .next (replyPoll n.val s)

/-- ATR (R399, R413): a warm reset follows a mute card or a parity failure once; T=1 with LRC and BWI up to 9 is
served, and S(IFS request) sets IFSD 254. -/
def atrEffect (n : Nat) (r : AtrResult) (s : State) : State :=
  let x := slotOf s n
  let again := fun (warm : Bool) => if warm then slotUnusable n s else setSlot n { x with stage := .atr true } s
  if slotLive s n = false then s
  else match x.stage with
    | .atr warm => (match r with
        | .mute => again warm
        | .parity => again warm
        | .ok t1 lrc bwi ifsc =>
          if t1 = true ∧ lrc = true ∧ bwi ≤ 9 then
            t1Send n (t1Bytes 0xC1 [254]) (setSlot n { x with
              stage := .ifs
              ifsc := min 254 ifsc
              retries := 0 } s)
          else slotUnusable n s)
    | _ => s

def execAtr (n : Fin 2) (res : AtrResult) (s : State) : Res := .next (atrEffect n.val res s)

/-- An APDU's response (R414). -/
def apduReply (n : Nat) (b : List Byte) (s : State) : State :=
  let x := slotOf s n
  let sst := sstatusOf (beNat (b.drop (b.length - 2)))
  let data := b.take (b.length - 2)
  let next := fun (d : List Byte) => transmit n (setSlot n { x with
    seg := x.seg + 1
    reply := x.reply ++ d } s)
  if sst = 3 ∧ x.stage = .poll then setSlot n { x with
      seg := 0
      reply := [] } s
  else if sst ≠ 0 then statusEnd n sst s
  else match x.stage with
    | .ident => if x.seg < 3 then next data else identityDone n (padTo 512 (x.reply ++ data)) s
    | .auth => if x.seg < 3 then next [] else goStage n .poll s
    | .poll => if x.seg < 3 then next data else replyDone n (padTo 512 (x.reply ++ data)) s
    | .readCmd k => if x.seg < 3 then next data else sealedRead n k (padTo 512 (x.reply ++ data)) s
    | .preStatus k => startWrite n k (beNat (data.take 2)) s
    | .writeCmd k => if x.seg < 3 then next [] else goStage n (.postStatus k) s
    | .postStatus _ => endWrite n (beNat (data.take 2)) s
    | _ => s

/-- T1_BLOCK_RECEIVED (R413). -/
def t1Received (n : Nat) (blk : T1Block) (s : State) : State :=
  let x := slotOf s n
  let quiet := match x.stage with
    | .off => true
    | .atr _ => true
    | _ => false
  if slotLive s n = false ∨ x.proto ≠ 2 ∨ quiet = true then s
  else match blk with
    | .iBlock d more =>
      let x := { x with
        nr := (x.nr + 1) % 2
        retries := 0
        rxSeg := if more then x.rxSeg ++ d else [] }
      if more then t1Send n (t1Bytes (0x80 + 16 * x.nr) []) (setSlot n x s)
      else apduReply n ((slotOf s n).rxSeg ++ d) (setSlot n x s)
    | .rBlock err =>
      if err then
        (if x.retries < 3 then emit (.cardBlock n x.lastTx) (setSlot n { x with retries := x.retries + 1 } s) else t1Retry n true s)
      else t1Next n (setSlot n { x with retries := 0 } s)
    | .sWtx m => emit (.cardBlock n (t1Bytes 0xE3 [m])) s
    | .sAbort => slotFinish n stAborted (emit (.cardBlock n (t1Bytes 0xE2 [])) s)
    | .sResyncResponse =>
      if x.resynced then transmit n (setSlot n { x with
        ns := 0
        nr := 0
        retries := 0 } s) else s
    | .sIfsResponse _ => if x.stage = .ifs then goStage n .ident s else s
    | .bad => t1Retry n true s

def execT1BlockReceived (n : Fin 2) (blk : T1Block) (s : State) : Res := .next (t1Received n.val blk s)

/-! ### Presence (R398, R399, R425, R494) -/

/-- SLOT_PRESENT: INSERT, and in Active the identification that follows. -/
def slotPresent (n : Nat) (s : State) : State :=
  let x := slotOf s n
  if powered s = false ∨ x.present = true then s
  else
    let s := cause .slt (2 + 2 * n) (setSlot n {
      present := true
      unconf := x.unconf } s)
    if s.sys.power = .active ∧ wardenUp s = true ∧ retiredLc s = false then activate n s else s

def execSlotPresent (n : Fin 2) (s : State) : Res := .next (slotPresent n.val s)

/-- The supply of a slot goes away under it: a STEP on it ends with ABORTED. -/
def slotCut (n : Nat) (s : State) : State :=
  let s := if (slotOf s n).step then breakStep stAborted s else s
  slotOff n s

/-- SLOT_ABSENT: REMOVE. -/
def slotAbsent (n : Nat) (s : State) : State :=
  if powered s = false ∨ (slotOf s n).present = false then s
  else
    let s := cause .slt (3 + 2 * n) (slotCut n s)
    setSlot n { slotOf s n with present := false } s

def execSlotAbsent (n : Fin 2) (s : State) : Res := .next (slotAbsent n.val s)

/-- SLOT_OVERCURRENT: VCC_SLT is removed, and the step ends as at removal. -/
def execSlotOvercurrent (n : Fin 2) (s : State) : Res := .next (if slotLive s n.val then slotCut n.val s else s)

/-! ### STEP and the commands of SLT_CER_CTL (R419, R420, R428) -/

/-- A STEP that ends at once. -/
def stepRefused (st : Nat) (s : State) : State := cause .slt 1 (cerEnd st s)

/-- STEP. -/
def cerStep (s : State) : State :=
  match s.slt.cer with
  | none => stepRefused stStateRefused s
  | some c =>
    let n := s.slt.slotSel
    let x := slotOf s n
    if cerLost s c.typ (BitVec.ofNat 32 c.param) then stepRefused stLinkLost s
    else if x.present = false then stepRefused stStateRefused s
    else if x.proto = 3 then stepRefused stUnsupported s
    else
      let s := { s with slt := { s.slt with
        busy := true
        cer := some { c with stepSlot := some n } } }
      let s := setSlot n { x with step := true } s
      if x.powered then s else activate n s

/-- A command that is refused outright: a running one goes on. A refused STEP has ended too, so STEP_DONE is set (R420, R428). -/
def cerRefuse (v : Nat) (s : State) : State :=
  let s := cause .slt 0 { s with slt := { s.slt with status := stStateRefused } }
  if v % 16 = 2 then cause .slt 1 s else s

/-- A value takes effect in SLT_CER_CTL (R428). A warden that has stopped gives no status (R297). -/
def cerCommand (v : Nat) (s : State) : State :=
  let s := { s with slt := { s.slt with ctl := v % 16 } }
  if wardenUp s = false then s
  else if retiredLc s then cerRefuse v s
  else if s.slt.busy = true ∧ v % 16 ≠ 3 then cerRefuse v s
  else if v % 16 = 1 then cerOpen s
  else if v % 16 = 2 then cerStep s
  else if v % 16 = 3 then cerAbort s
  else if v % 16 = 4 then cerClose s
  else cerEnd stUnsupported s

end Sys2Proof.Machine
end

