-- ==== Sys2Proof/Machine/Eave.lean ====
section
/-! DEFINITION. The Eave supervisor (13_eave_supervisor.md): detections, arbitration steps and responses, held levels and
acknowledgments, the shadow scrubbers, and what happens to the supplies (R368 to R396, R454, R489, R490). -/

namespace Sys2Proof.Machine

/-! ### Detections (R369) -/

/-- Does a detection belong to a condition source, by its DETAIL kind? Transients, over-voltage of the Eave supply and
core-clock periods are event detections, as are the integrity sources. -/
def isCondition (src : Nat) (detail : List Byte) : Bool :=
  let kind := leAt detail 0 1
  if src = 0x0A ∨ src = 0x0B then kind != 3
  else if src = 0x0D then kind != 3
  else src != 0x0C && !([0x10, 0x11, 0x12, 0x14, 0x15].contains src)

/-- DETAIL of a LIGHT detection: the bits of the main-die sites are zero without main power (R389). -/
def lightDetail (s : State) (detail : List Byte) : List Byte :=
  if mainPower s then detail else List.replicate 8 0 ++ (padTo 16 detail).drop 8

/-- Is the element that the DETAIL names monitored in the present power state (R368, R370): main-die sites and sensors, SYSREF,
the PLL and the core clock only with main power? -/
def elementMonitored (s : State) (src : Nat) (detail : List Byte) : Bool :=
  let kind := leAt detail 0 1
  mainPower s
    || (if src = 0x00 then !allZero (slice (padTo 16 detail) 8 2)
      else if src = 0x0D ∨ src = 0x0E ∨ src = 0x0F then kind == 4
      else true)

/-- Does what the DETAIL of a detection shows meet the source's condition (R368, R389, R487)? Voltages are in millivolts,
temperatures in sixteenths of a degree, LID_SENSE in permille of the supply; a DETAIL without a reading meets it. -/
def conditionMet (src : Nat) (detail : List Byte) (s : State) : Bool × State :=
  let kind := leAt detail 0 1
  let mv := leAt detail 2 2
  let temp := (BitVec.ofNat 16 mv).toInt
  if elementMonitored s src detail = false then (false, s)
  else if src = 0x09 then (decide (mv < 350 ∨ 650 < mv), s)
  else if src = 0x0A ∧ kind ≠ 3 then vcoreOutside mv s
  else if src = 0x0B ∧ kind ≠ 3 then (decide (mv < 1620 ∨ 3780 < mv), s)
  else if src = 0x0C ∧ kind ≠ 3 then (decide (3780 < mv), s)
  else if src = 0x0E then (decide ((if kind = 4 then 1920 else 1840) < temp), s)
  else if src = 0x0F then (decide (temp < -640), s)
  else if src = 0x13 then (decide (mv < 2000), s)
  else (true, s)

/-- A pair whose halves disagree, found by a scrubber (kind 2) or on a use (kind 3): SHADOW, and it reads as its reset value from
here on (R371). -/
def pairFails (kind off : Nat) (s : State) : State :=
  let p := SMap.get {} s.pairs off
  if p.work then
    raise srcShadow ([BitVec.ofNat 8 kind, 0, 0, 0] ++ leBytes 4 off) { s with pairs := SMap.set {} s.pairs off { p with bad := true } }
  else s

/-- A detection of a monitored source: a condition source that is active raises no further event. -/
def detect (src : Nat) (detail : List Byte) (s : State) : State :=
  if isCondition src detail then
    if s.eav.active.getLsbD src then s
    else raise src detail { s with eav := { s.eav with active := s.eav.active ||| BitVec.ofNat 22 (2 ^ src) } }
  else raise src detail s

/-- SOURCE_DETECTION: a monitored source whose condition holds raises an event. A SHADOW found on a use fails its pair. -/
def sourceDetection (src : Nat) (detail : List Byte) (s : State) : State :=
  if srcMonitored s src = false then s
  else
    let m := conditionMet src detail s
    let off := leAt detail 4 4
    if m.1 = false then m.2
    else if src = srcShadow ∧ leAt detail 0 1 = 3 ∧ off ≠ 0xFFFFFFFF then pairFails 3 off m.2
    else detect src (if src = 0 then lightDetail m.2 detail else detail) m.2

def execSourceDetection (src : Fin 22) (detail : List Byte) (s : State) : Res := .next (sourceDetection src.val detail s)

/-- SOURCE_INACTIVE. -/
def sourceInactive (src : Nat) (s : State) : State :=
  if srcMonitored s src then
    refreshLock { s with eav := { s.eav with active := s.eav.active &&& ~~~(BitVec.ofNat 22 (2 ^ src)) } }
  else s

def execSourceInactive (src : Fin 22) (s : State) : Res := .next (sourceInactive src.val s)

/-! ### Responses (R373, R375, R379) -/

/-- A change of HELD sets HELD_CHANGE (R396). -/
def noteHeld (old : Nat) (s : State) : State := if heldLevel s == old then s else cause .eav 3 s

/-- Commands of tenant functions whose completion waits in the sink. -/
def sunkCmds (s : State) : List Cmd :=
  s.hqi.cmds.filter fun c => c.ref.fn != 0 && c.finished && !offRing c.ref
    && match chainAt (ringOf s (ctxNum c.ref.fn c.ref.ring)) c.ref.pos with
      | some (ch, i) => decide (i < ch.sent)
      | none => true

/-- What SUSPEND does beside stopping grants (R373, R375, R426): commands in flight end with a status, staging and an open
ceremony end, and both slots are powered off. -/
def suspendActions (status : Nat) (s : State) : State :=
  let s := abortCmds (fun c => c.ref.fn != 0) status s
  slotOff 1 (slotOff 0 (imgSuspend (abortCeremony s)))

/-- What PURGE does (R373, R319): key registers and operand memories are cleared and packets discarded before any status
is reported; a command whose completion was discarded with them ends with ABORTED too. -/
def purgeActions (s : State) : State :=
  let sunk := sunkCmds s
  let s := abortSym (fun _ => true) (galAbortAll (unitAborts (List.range 32) s))
  let s := suspendActions stAborted (discardTenants s)
  sunk.foldl (fun t c => commitCompletion c.ref (completionBytes c.entry stAborted 0 []) t) s

/-- Levels that events hold (R379): each by its own level. -/
def holdLevels (ls : List Nat) (s : State) : State :=
  { s with eav := { s.eav with
    holdThr := s.eav.holdThr || ls.contains 1
    holdSus := s.eav.holdSus || ls.contains 2
    holdPurge := s.eav.holdPurge || ls.contains 3 } }

/-- The actions of a group below ZEROIZE with the main die running (R380): those of a level above HELD, and PURGE again
whenever it comes; a PURGE in Idle wakes the module (R455). -/
def groupActions (g h : Nat) (s : State) : State :=
  if g = 3 then
    wakeFor (purgeActions s)
  else if g = 2 ∧ h < 2 then suspendActions stSuspended s
  else s

/-- A group runs (R380 to R382): it is recorded; ZEROIZE and TERMINAL zeroise the vault and latch pending work whatever
the power state, and with main power a device reset follows. -/
def runGroup (es : List (Nat × List Byte)) (env : BootEnv) (s : State) : State :=
  let g := groupLevel s es
  let h := heldLevel s
  let ls := es.map fun e => eventLevel s e
  let s := recordGroup es s
  if 4 ≤ g then
    let s := latchPending (if g = 5 then 0b0111 else 0b0001) (zeroiseVault s)
    if mainPower s then resetAndBoot 2 env s else refreshLock s
  else if answers s then noteHeld h (groupActions g h (holdLevels ls s))
  else s

/-! ### Acknowledgment (R379) -/

/-- An acknowledgment: refused while a source at PURGE or above is active, or was in this step. -/
def takeAck (es : List (Nat × List Byte)) (s : State) : State :=
  if activeAt s 3 = true ∨ (es.any fun e => decide (3 ≤ eventLevel s e)) = true then
    { s with eav := { s.eav with
      ackTaken := false
      ackRef := true } }
  else
    let h := heldLevel s
    let s := { s with eav := { s.eav with
      ackTaken := false
      ackRef := false
      holdPurge := false } }
    raise 0x45 [BitVec.ofNat 8 h, BitVec.ofNat 8 (heldLevel s)] (noteHeld h s)

/-- The value 1 takes effect in EAV_ACK: it is handled at once, or after the group of a step in progress (R395). -/
def ackCommand (v : Word) (s : State) : State :=
  let s := { s with eav := { s.eav with ackCtl := v.toNat % 2 } }
  if bitOf v.toNat 0 = false then s
  else if s.eav.detected.isEmpty then takeAck [] s
  else { s with eav := { s.eav with ackTaken := true } }

/-- ARBITRATION_STEP (R380, R395): the step's events form one group; an acknowledgment of the step comes after it. -/
def arbitrationStep (env : BootEnv) (s : State) : State :=
  let es := s.eav.detected
  let ack := s.eav.ackTaken
  let s := { s with eav := { s.eav with detected := [] } }
  let s := if es.isEmpty then s else runGroup es env s
  if ack then takeAck es s else s

def execArbitrationStep (env : BootEnv) (s : State) : Res := .next (arbitrationStep env s)

/-- HOLD_RELEASE (R379): THROTTLE and SUSPEND are released whose sources have become inactive. -/
def holdRelease (s : State) : State :=
  let h := heldLevel s
  noteHeld h { s with eav := { s.eav with
    holdThr := s.eav.holdThr && activeWith s 1
    holdSus := s.eav.holdSus && activeWith s 2 } }

def execHoldRelease (s : State) : Res := .next (holdRelease s)

/-- A value takes effect in EAV_RING_ACK (R387, R396). -/
def ringAck (v : Word) (s : State) : State :=
  let n := v.toNat % 128
  if 1 ≤ n ∧ n ≤ s.eav.ringCount then { s with eav := { s.eav with
    ringCtl := n
    ringCount := s.eav.ringCount - n } }
  else s

/-! ### Scrubbers (R371) -/

/-- Does the word stand in the retained response table? -/
def isRetained : LatchWord → Bool
  | .retained _ => true
  | _ => false

/-- A latch word whose halves disagree; latches work from step 5 of R60. -/
def scrubLatch (s : State) (w : LatchWord) : State :=
  if s.img.locked = true ∧ isRetained w = false then
    raise srcShadow ([2, 0, 0, 0] ++ leBytes 4 0xFFFFFFFF) { s with img := { s.img with
      latchBad := if s.img.latchBad.contains w then s.img.latchBad else s.img.latchBad ++ [w] } }
  else s

/-- A level of the retained response table whose halves disagree: it counts as 5 from here on. -/
def scrubRetained (s : State) (w : LatchWord) : State :=
  match w, s.eav.retained with
  | .retained n, some t =>
    if n < srcCount then
      raise srcShadow ([2, 0, 0, 0] ++ leBytes 4 0xFFFFFFFF) { s with eav := { s.eav with
        retained := some (t.set n { (t.getD n ⟨0, 0⟩) with level := 5 }) } }
    else s
  | _, _ => s

/-- SHADOW_SCRUB: the pairs and latch words that the main die's scrubber finds mismatched, and the words of the retained table
that the Eave die's scrubber does, which runs without main power too. -/
def execShadowScrub (offs : List Nat) (latches : List LatchWord) (s : State) : Res :=
  let s := if mainPower s then latches.foldl scrubLatch (offs.foldl (fun t x => pairFails 2 x t) s) else s
  .next (latches.foldl scrubRetained s)

/-! ### Supplies (R385, R454, R489, R490) -/

/-- A reading of a cell land; VBAT_SWAP is recorded when a land that fell below 1.0 V has risen above 1.7 V. -/
def vbatRead (land mv : Nat) (s : State) : State :=
  let b := BitVec.ofNat 2 (2 ^ land)
  let s := { s with eav := { s.eav with
    vbat0 := if land = 0 then mv else s.eav.vbat0
    vbat1 := if land = 0 then s.eav.vbat1 else mv } }
  if mv < 1000 then { s with eav := { s.eav with vbatLow := s.eav.vbatLow ||| b } }
  else if 1700 < mv ∧ s.eav.vbatLow &&& b ≠ 0 then
    raise 0x47 [BitVec.ofNat 8 land] (cause .eav 4 { s with eav := { s.eav with vbatLow := s.eav.vbatLow &&& ~~~b } })
  else s

def execVbatSwap (land : Fin 2) (mv : BitVec 12) (s : State) : Res := .next (vbatRead land.val mv.toNat s)

/-- The main die goes without its supplies. -/
def losePower (s : State) : State := refreshLock (powerLoss (if s.elec.vaonOk then .standby else .vault) s)

/-- VAULT_ENTRY (R454): VAON is lost. With main supplies present the main die is held in reset too. -/
def vaultEntry (s : State) : State :=
  if s.sys.power = .vault then s
  else
    let s := raise 0x41 [] { s with elec := { s.elec with vaonOk := false } }
    losePower s

def execVaultEntry (s : State) : Res := .next (vaultEntry s)

/-- VAULT_EXIT (R454): VAON is back, and the module is in Standby. An Eave die that lost its state starts cold. -/
def vaultExit (marker : Bool) (s : State) : State :=
  if s.sys.power = .vault then
    let s := if marker then s else eaveCold s
    raise 0x42 [] { s with
      elec := { s.elec with vaonOk := true }
      sys := { s.sys with power := .standby } }
  else s

def execVaultExit (eaveMarker : Bool) (s : State) : Res := .next (vaultExit eaveMarker s)

/-- MAIN_POWER_LOSS (R490). -/
def execMainPowerLoss (s : State) : Res := .next (if mainPower s then losePower s else s)

/-- POWER_DOWN (R489): after READY_OFF the main supplies are removed in order, with VAON or without. -/
def powerDown (vaonToo : Bool) (s : State) : State :=
  if s.sys.power = .prep ∧ s.sys.readyOff = true then
    let s := losePower s
    if vaonToo then vaultEntry s else s
  else s

def execPowerDown (vaonToo : Bool) (s : State) : Res := .next (powerDown vaonToo s)

end Sys2Proof.Machine
end

