-- ==== Sys2Proof/Machine/Endpoint.lean ====
section
/-! DEFINITION. Host reads that come back or time out, resets of the endpoint and its functions, configuration writes
(03_host_queues.md, R67, R94 to R100), and the recovery LOAD (16_system_control.md, R461). -/

namespace Sys2Proof.Machine

/-! ### Recovery (R461) -/

/-- LOAD ends (R97, R461): STATUS, BUSY and RECOV_DONE. -/
def recovEnd (st : Nat) (s : State) : State :=
  let s := dropRead .recovery false s
  cause .sys 1 { s with sys := { s.sys with
    recovStat := st
    recovBusy := false } }

/-- A value takes effect in SYS_RECOV_CTL. -/
def recovCommand (v : Nat) (s : State) : State :=
  let s := { s with sys := { s.sys with recovCtl := v % 16 } }
  let a := s.sys.recovAddr.toNat
  let n := s.sys.recovLen.toNat
  if s.sys.power ≠ .recovery ∨ s.sys.recovBusy = true then
    cause .sys 1 { s with sys := { s.sys with recovStat := stStateRefused } }
  else if v % 16 ≠ 1 then recovEnd stUnsupported s
  else if a % 8 ≠ 0 ∨ n < 264 ∨ 0x800000 < n then recovEnd stRange s
  else issueRead .recovery 0 a n { s with
    sys := { s.sys with recovBusy := true }
    hqi := { s.hqi with reads := s.hqi.reads ++ [.recovery] } }

/-- The image that LOAD fetched has come: an image that passes goes into firmware slot A, and the device is reset. -/
def recovImage (b : List Byte) (s : State) : State :=
  let b := padTo s.sys.recovLen.toNat b
  let st := if 264 + fwCodeLen b ≠ b.length then stRange else fwStatus s b
  if st ≠ stOk then recovEnd st s
  else
    let s := recovEnd stOk (fwProg 0 b (fwEraseAll 0 2048 s)).2
    deviceReset 4 { s with ret := { s.ret with
      pref := 0
      tries := 0 } }

/-- A reset of the physical function or the endpoint ends a running LOAD (R97). -/
def recovAbort (s : State) : State := if s.sys.recovBusy then recovEnd stAborted s else s

/-! ### Host reads (R94, R95, R97) -/

/-- Status that failed host data end a command with (R94). -/
def hostStatus : HostData → Nat
  | .ok _ => stOk
  | .poison => stIntegrity
  | .ecrc => stIntegrity
  | .ur => stAborted
  | .ca => stAborted

/-- What a host read brings back reaches the one that waits for it. -/
def hostReturn (rd : ReadId) (res : HostData) (s : State) : State :=
  match rd with
  | .fetch r => fetchReturn r.fn r.ring r.pos res s
  | .port n => match (portOf s n).req with
      | some r => if sourceKind r = some 1 then portComplete n res false (noteHostData res (endRead rd (dataCame res) s)) else s
      | none => s
  | _ =>
    if s.hqi.reads.contains rd = false then s
    else
      let s := noteHostData res (dropRead rd (dataCame res) s)
      match rd with
      | .cmd r => updCmd r (fun c => { c with src := match res with
          | .ok b => .got b
          | d => .failed (hostStatus d) }) s
      | .stage => { s with img := { s.img with fetched := some res } }
      | .restore => (match s.ks.run with
          | .restore a _ => { s with ks := { s.ks with run := .restore a (some res) } }
          | _ => s)
      | .recovery => (match res with
          | .ok b => recovImage b s
          | d => recovEnd (hostStatus d) s)
      | _ => s

/-- HOST_READ_RETURN. -/
def execHostReadReturn (rd : ReadId) (res : HostData) (s : State) : Res := .next (if answers s then hostReturn rd res s else s)

/-- Does the module wait for this host read? -/
def awaits (s : State) (rd : ReadId) : Bool := match rd with
  | .port n => (match (portOf s n).req with
      | some r => sourceKind r == some 1
      | none => false)
  | _ => s.hqi.reads.contains rd

/-- COMPLETION_TIMEOUT (R67, R94, R95, R97): CPL_TIMEOUT, and the read fails as under a Completer Abort. With timeouts
disabled no read times out. -/
def execCompletionTimeout (rd : ReadId) (s : State) : Res :=
  .next (if answers s = true ∧ awaits s rd = true ∧ s.hqi.toDisable = false then cause .hqi 5 (hostReturn rd .ca s) else s)

/-! ### Resets of functions and of the endpoint (R98 to R100) -/

/-- Pending values of shadowed pairs that the physical function wrote go without SHADOW (R12). -/
def dropPfPending (s : State) : State :=
  { s with pairs := (s.pairs.map fun e => (e.1, match e.2.pend with
      | some (_, .pf) => { e.2 with pend := none }
      | _ => e.2)).filter fun e => e.2 != {} }

/-- Every virtual function is reset as R98 states. -/
def resetVfs (s : State) : State := (List.range 63).foldl (fun t k => functionReset (k + 1) t) s

/-- A reset of the physical function (R97, R100): VF Enable is cleared, every function is reset, and what moves data
over the physical function ends with ABORTED. -/
def pfReset (s : State) : State :=
  let s := (List.range 64).foldl (fun t f => functionReset f t) s
  let s := recovAbort (ksHostAbort (imgHostAbort s))
  dropPfPending { s with hqi := { s.hqi with vfEnable := false } }

/-- FUNCTION_LEVEL_RESET. -/
def flrEffect (f : Nat) (s : State) : State :=
  if answers s = false then s
  else if f = 0 then pfReset s
  else if fnEnabled s f then functionReset f s
  else s

def execFunctionLevelReset (fn : Nat) (s : State) : Res := .next (flrEffect fn s)

/-- The configuration space takes its reset values (R100). -/
def configReset (s : State) : State :=
  { s with hqi := { s.hqi with
    vfEnable := false
    numVfs := 63
    toRange := 0
    toDisable := false
    ecrc := false
    tenBit := false
    maxPayload := 128
    maxRead := 512 } }

/-- CONVENTIONAL_RESET: PERST#, a hot reset, a link-down event; the first and the last take the link down. -/
def conventionalReset (k : EndpointReset) (s : State) : State :=
  if answers s = false then s
  else match k with
    | .pfFlr => pfReset s
    | .hotReset => configReset (pfReset s)
    | _ =>
      let up := s.hqi.linkUp
      let s := configReset (pfReset s)
      let s := { s with hqi := { s.hqi with linkUp := false } }
      if up then cause .hqi 2 s else s

def execConventionalReset (kind : EndpointReset) (s : State) : Res := .next (conventionalReset kind s)

/-! ### Configuration space -/

/-- Is a completion-timeout code one of the ranges of R67: the default, ranges A and B? -/
def rangeCode (c : BitVec 4) : Bool := c == 0 || c == 1 || c == 2 || c == 5 || c == 6

/-- CONFIG_WRITE (R67): the configuration-space fields that the spec gives an effect; a value that R67 does not support
is not taken. Clearing VF Enable resets every virtual function (DEDUCED from R100, log 305). The number of virtual functions
is taken while VF Enable is clear (log 313). -/
def configWriteEffect (f : ConfigField) (s : State) : State :=
  match f with
  | .vfEnable on =>
    let s := if on = false ∧ s.hqi.vfEnable = true then resetVfs s else s
    { s with hqi := { s.hqi with vfEnable := on } }
  | .numVfs n => if s.hqi.vfEnable = false ∧ n ≤ 63 then { s with hqi := { s.hqi with numVfs := n } } else s
  | .timeoutRange c => if rangeCode c then { s with hqi := { s.hqi with toRange := c } } else s
  | .timeoutDisable on => { s with hqi := { s.hqi with toDisable := on } }
  | .ecrcEnable on => { s with hqi := { s.hqi with ecrc := on } }
  | .tenBitTags on => { s with hqi := { s.hqi with tenBit := on } }
  | .maxPayload b => if b = 128 ∨ b = 256 ∨ b = 512 then { s with hqi := { s.hqi with maxPayload := b } } else s
  | .maxReadRequest b =>
    if b = 128 ∨ b = 256 ∨ b = 512 ∨ b = 1024 ∨ b = 2048 ∨ b = 4096 then { s with hqi := { s.hqi with maxRead := b } } else s

def execConfigWrite (f : ConfigField) (s : State) : Res := .next (if answers s then configWriteEffect f s else s)

end Sys2Proof.Machine
end

