-- ==== Sys2Proof/Machine/SysControl.lean ====
section
/-! DEFINITION. The system controller (16_system_control.md): power commands and VCORE, the watchdog and boot register,
quotes, trusted time, the lifetime record's minutes, snapshots and archive, and the JTAG port (R451 to R474, R484 to R487,
R498). -/

namespace Sys2Proof.Machine

/-! ### Power commands (R453, R455) -/

/-- A power command ends: STATUS, BUSY and PWR_DONE. -/
def pwrEnd (st : Nat) (s : State) : State :=
  cause .sys 0 { s with sys := { s.sys with
    pwrStatus := st
    pwrRun := .none } }

/-- A power command ends at once; a running one goes on. -/
def pwrRefuse (st : Nat) (s : State) : State := cause .sys 0 { s with sys := { s.sys with pwrStatus := st } }

/-- A value takes effect in SYS_PWR_CTL. -/
def pwrCommand (v : Nat) (s : State) : State :=
  let s := { s with sys := { s.sys with pwrCtl := v % 16 } }
  if s.sys.pwrRun ≠ .none then pwrRefuse stStateRefused s
  else if v % 16 = 1 then
    if s.sys.power = .active then { s with sys := { s.sys with pwrRun := .toIdle } } else pwrRefuse stStateRefused s
  else if v % 16 = 2 then
    if s.sys.power = .idle then
      let t := beginWake s
      { t with sys := { t.sys with pwrRun := .toActive } }
    else pwrRefuse stStateRefused s
  else if v % 16 = 3 then
    if s.sys.power = .active ∨ s.sys.power = .idle then
      abortCeremony { s with sys := { s.sys with pwrRun := .toPrep } }
    else pwrRefuse stStateRefused s
  else pwrRefuse stUnsupported s

/-- A PROG of the warden or of the journal port is under way. -/
def progRunning (s : State) : Bool :=
  (match s.flc.run with
    | .prog _ _ _ => true
    | _ => false) || s.flc.jrun.isSome

/-- The time base takes the present pair (R468). -/
def writeBase (s : State) : State :=
  { s with ret := { s.ret with
    baseAon := s.eav.aon
    baseTime := s.sys.time } }

/-- Steps 3 and 4 of STANDBY_PREP: a running erase is abandoned, the slot log buffer is programmed, the snapshot and the
time base are written, and the module is ready to be switched off. -/
def enterPrep (s : State) : State :=
  let s := abandonFlash s
  let s := { s with flc := { s.flc with erase := .none } }
  let s := writeBase (putSnapshot (flushAll 60 s))
  pwrEnd stOk { s with sys := { s.sys with
    power := .prep
    readyOff := true } }

/-- POWER_DRAIN_COMPLETE (R453): under IDLE the tenant commands in flight have completed, the truss clocks stop and VCORE
goes to its retention code; under STANDBY_PREP every command has, and no COMMIT or PROG is under way. -/
def drainComplete (s : State) : State :=
  if s.sys.pwrRun = .toIdle then
    if (List.range 64).all fun f => f == 0 || fnInfl s f == 0 then
      sendVid .toIdle 0 { s with sys := { s.sys with clocksOff := true } }
    else s
  else if s.sys.pwrRun = .toPrep then
    if ((List.range 64).all fun f => fnInfl s f == 0) = true ∧ s.img.phase ≠ .committing ∧ progRunning s = false then enterPrep s
    else s
  else s

def execPowerDrainComplete (s : State) : Res := .next (drainComplete s)

/-! ### The voltage-identification interface (R484 to R487) -/

/-- The regulator has acknowledged the requested code. -/
def vidSettle (s : State) : State :=
  let use := s.elec.vidUse
  let run := s.sys.pwrRun
  let s := { s with elec := { s.elec with
    vid := s.elec.vidReq
    vidUse := .none
    vidTry := 0
    vidAlert := false } }
  match use with
  | .toIdle => pwrEnd stOk { s with sys := { s.sys with power := .idle } }
  | .toActive =>
    let s := { s with sys := { s.sys with
      power := .active
      clocksOff := false } }
    if run = .toActive then pwrEnd stOk s
    else if run = .toPrep then s
    else { s with sys := { s.sys with pwrRun := .none } }
  | _ => s

/-- Every try has failed (R486): IDLE completes at the operating code; a wake ends with INTEGRITY, and a STANDBY_PREP under
which it ran goes on. -/
def vidFail (s : State) : State :=
  let use := s.elec.vidUse
  let s := { s with elec := { s.elec with
    vidReq := s.elec.vid
    vidUse := .none
    vidTry := 0
    vidAlert := false } }
  match use with
  | .toIdle => pwrEnd stOk { s with sys := { s.sys with power := .idle } }
  | .toActive => if s.sys.pwrRun = .toPrep then s else pwrEnd stIntegrity s
  | _ => s

/-- A SET waits for its acknowledgment outside the boot ROM, which tries its own again by itself. -/
def vidWaits (s : State) : Bool := s.elec.vidUse != .none && s.elec.vidUse != .boot

/-- VID_SET: how the regulator answers the SET just sent. -/
def vidSet (ack : Bool) (s : State) : State :=
  if vidWaits s = false ∨ s.elec.vidTry ≠ 1 ∨ s.elec.vidAlert = true then s
  else if ack then vidSettle s
  else { s with elec := { s.elec with vidAlert := true } }

def execVidSet (ack : Bool) (s : State) : Res := .next (vidSet ack s)

/-- VID_RETRY: the frame goes out again, up to three times, with how the regulator answers it. -/
def vidRetry (ack : Bool) (s : State) : State :=
  if vidWaits s = false ∨ s.elec.vidAlert = false then s
  else
    let s := emit (.vidSet (BitVec.ofNat 8 s.elec.vidReq)) { s with elec := { s.elec with vidTry := s.elec.vidTry + 1 } }
    if ack then vidSettle s
    else if 4 ≤ s.elec.vidTry then vidFail s
    else s

def execVidRetry (ack : Bool) (s : State) : Res := .next (vidRetry ack s)

/-- VCORE_RECOMPUTE: the hottest sensor has moved by 5 degrees, and the warden asks for the code that it now needs. At the
retention code, and while another SET is under way, there is nothing to recompute. -/
def vcoreRecompute (temp : Int) (s : State) : State :=
  let s := { s with elec := { s.elec with temp := temp } }
  if wardenUp s = false ∨ s.sys.power = .idle ∨ s.elec.vidUse ≠ .none ∨ s.sys.clocksOff = true then s
  else
    let r := operatingVid s
    if r.1 = s.elec.vid then r.2 else sendVid .recompute r.1 r.2

def execVcoreRecompute (temp : Int) (s : State) : Res := .next (if mainPower s then vcoreRecompute temp s else s)

/-! ### Boot register (R456, R460, R461) -/

/-- A value takes effect in SYS_BOOT_CTL. KICK restarts the watchdog, whose time the model does not keep. -/
def bootCtlCommand (v : Word) (s : State) : State :=
  { s with
    sys := { s.sys with bootCtl := fld v 0 4 }
    ret := { s.ret with
      rbReq := fld v 16 7
      tries := if bitOf v.toNat 2 then 0 else s.ret.tries
      pref := if bitOf v.toNat 1 then fld v 0 1 else s.ret.pref } }

/-! ### Quotes (R464, R465) -/

/-- SYS_GRADE (R7). -/
def gradeWord (s : State) : Word :=
  mkWord [(16, spareLeft s), (8, ((List.range 32).filter fun t => decide (physOf s t ≠ 0x3F)).length), (0, fuseFld s 128 8)]

/-- STATE of MSU_KS_STAT (R249). -/
def ksCode (s : State) : Nat :=
  match s.ks.phase with
  | .empty => 0 | .closed => 1 | .isOpen => 2 | .isSealed => 3 | .noRoot => 4 | .starting => 5

/-- ROLE of BTN_CLUSTER (R450). -/
def roleCode (s : State) : Nat :=
  match s.btn.role with
  | .solo => 0 | .ridge => 1 | .rafter => 2 | .isolated => 3

/-- STATE of SYS_TIME_STAT (R468). -/
def timeCode (s : State) : Nat :=
  match s.sys.timePhase with
  | .unset => 0 | .synchronised => 1 | .holdover => 2

/-- FLAGS of a quote. -/
def quoteFlags (s : State) : Nat :=
  b2n (decide (0 < s.tel.counts.colds)) + 2 * b2n s.eav.vaultZero + 4 * b2n s.img.divergent + 8 * b2n s.img.degraded
    + 16 * b2n s.sys.calDef + 32 * b2n s.sys.fallback + 64 * fuseFld s 140 1

/-- The nonce registers' 32 bytes. -/
def quoteNonce (s : State) : List Byte := bytesOf ((List.range 8).map fun k => SMap.get 0 s.sys.qNonce k)

/-- A quote without its signature. -/
def quoteBody (s : State) : List Byte :=
  leBytes 4 0x544F5551 ++ leBytes 2 1 ++ [BitVec.ofNat 8 (lifecycle s), BitVec.ofNat 8 (quoteFlags s)]
    ++ serialBytes s ++ quoteNonce s ++ leBytes 4 (gradeWord s).toNat ++ leBytes 2 s.sys.svn ++ leBytes 2 (rollback s)
    ++ padTo 48 s.sys.fwDigest ++ leBytes 8 s.img.gen ++ padTo 48 s.img.digest ++ padTo 16 (ksrkId s)
    ++ [BitVec.ofNat 8 (ksCode s), BitVec.ofNat 8 (fuseFld s 141 4), BitVec.ofNat 8 (roleCode s), BitVec.ofNat 8 (timeCode s)]
    ++ leBytes 4 (((List.range srcCount).filter fun n => srcDisabled s n).map (2 ^ ·)).sum
    ++ leBytes 8 (match s.btn.table with
      | some t => t.epoch.toNat
      | none => 0)
    ++ leBytes 8 s.sys.time ++ leBytes 8 s.eav.aon ++ leBytes 4 s.tel.counts.colds ++ leBytes 4 (s.eav.seq - 1).toNat
    ++ leBytes 4 s.sys.quar.toNat ++ List.replicate 12 0

/-- A QUOTE ends. -/
def quoteEnd (st : Nat) (s : State) : State := cause .sys 7 { s with sys := { s.sys with qStatus := st } }

/-- A value takes effect in SYS_QUOTE_CTL: the warden signs with the identity key and writes the buffer. -/
def quoteCommand (v : Nat) (s : State) : State :=
  let s := { s with sys := { s.sys with qCtl := v % 16 } }
  if v % 16 ≠ 1 then quoteEnd stUnsupported s
  else if wardenUp s = false then s
  else
    let b := quoteBody s
    match identitySign (sha384 b) s with
    | (some g, s) => quoteEnd stOk { s with sys := { s.sys with quote := b ++ g } }
    | (none, s) => quoteEnd stAborted s

/-! ### Trusted time (R468 to R470) -/

/-- NONCE or SET ends. -/
def timeEnd (st : Nat) (s : State) : State := cause .sys 8 { s with sys := { s.sys with tStatus := st } }

/-- The 272 bytes of SYS_TIME_BUF. -/
def tokenBytes (s : State) : List Byte := bytesOf ((List.range 68).map fun k => SMap.get 0 s.sys.tBuf k)

/-- Is a key digest one that check 4 of R53 admits in the present lifecycle state? -/
def timeKeyOk (s : State) (d : List Byte) : Bool :=
  [0, 1].any fun k => signerAllowed s k && d == imageKeyDigest s k

/-- T' of R470. -/
def tokenTime (s : State) (b : List Byte) : Nat := leAt b 0x38 8 + (s.eav.aon - s.sys.nonceAt.getD 0) * 15625 / 1024

/-- The four checks of SET. -/
def timeStatus (s : State) (b : List Byte) : Nat :=
  let sig := slice b 0x48 200
  let t := tokenTime s b
  firstFail
    [(leAt b 0 4 == 0x454D4954 && leAt b 4 2 == 1 && leAt b 6 2 == 0 && leAt b 0x40 8 == 0 && sigBlockForm sig, stUnsupported),
     (timeKeyOk s (sha384 (sigBlockKey sig)), stInvalidKey),
     (sigBlockOk sig (b.take 0x48), stVerifyFailed),
     (slice b 8 16 == serialBytes s && slice b 0x18 32 == s.sys.tNonce
       && (match s.sys.nonceAt with
         | some n => decide (s.eav.aon ≤ n + 65536)
         | none => false), stStateRefused),
     (if s.sys.timePhase = .unset then decide (s.sym.ctr.floor ≤ t + 600000000) else decide (s.sys.time ≤ t + 60000000), stRange)]

/-- Time takes the authority's value or runs at half rate toward it (R470). -/
def steer (t : Nat) (s : State) : State :=
  if s.sys.timePhase = .unset then
    { s with sys := { s.sys with
      time := max t s.sym.ctr.floor
      slew := decide (t < s.sym.ctr.floor) } }
  else if s.sys.time ≤ t then
    { s with sys := { s.sys with
      time := t
      slew := false } }
  else { s with sys := { s.sys with slew := true } }

/-- Time becomes SYNCHRONISED, and the Eave die's base is written. -/
def synchronise (s : State) : State :=
  let s := writeBase { s with sys := { s.sys with timePhase := .synchronised } }
  { s with ret := { s.ret with timeSet := true } }

/-- SET. -/
def timeSet (s : State) : State :=
  let b := tokenBytes s
  let st := timeStatus s b
  if st ≠ stOk then timeEnd st s
  else
    let s := synchronise (steer (tokenTime s b) s)
    timeEnd stOk { s with sys := { s.sys with
      nonceAt := none
      setRecent := true } }

/-- NONCE. -/
def timeNonce (s : State) : State :=
  match drbgDraw 36 32 false s with
  | (some b, s) => timeEnd stOk { s with sys := { s.sys with
      tNonce := b
      nonceAt := some s.eav.aon } }
  | (none, s) => timeEnd stAborted s

/-- A value takes effect in SYS_TIME_CTL. -/
def timeCommand (v : Nat) (s : State) : State :=
  let s := { s with sys := { s.sys with tCtl := v % 16 } }
  if v % 16 = 1 then (if wardenUp s then timeNonce s else s)
  else if v % 16 = 2 then (if wardenUp s then timeSet s else s)
  else timeEnd stUnsupported s

/-- TIME_BASE_WRITE: every second. -/
def execTimeBaseWrite (s : State) : Res := .next (if answers s then writeBase s else s)

/-- Trusted time enters HOLDOVER where neither a SET within the last 3,600 s nor a synchronised ridge holds it (R468). -/
def holdover (s : State) : State :=
  if s.sys.timePhase = .synchronised ∧ s.sys.setRecent = false ∧ s.sys.ridgeSync = false then
    cause .sys 9 { s with sys := { s.sys with timePhase := .holdover } }
  else s

/-- TIME_HOLDOVER: 3,600 s after the last SET. -/
def timeHoldover (s : State) : State := holdover { s with sys := { s.sys with setRecent := false } }

def execTimeHoldover (s : State) : Res := .next (if answers s then timeHoldover s else s)

/-- Is this member a rafter with a route to the ridge? -/
def ridgeUp (s : State) : Bool := match s.btn.table with
  | some t => s.btn.role == .rafter && (routeTo s t.ridge).isSome
  | none => false

/-- TIME_SYNC (R445): a rafter with a route to the ridge measures its offset and steers by it. A member without such a route
follows no ridge. -/
def timeSyncEffect (offset : Int) (ridgeSync : Bool) (s : State) : State :=
  if wardenUp s = false then s
  else if ridgeUp s = false then holdover { s with sys := { s.sys with ridgeSync := false } }
  else
    let s := steer ((s.sys.time : Int) + offset).toNat s
    let s := { s with sys := { s.sys with ridgeSync := ridgeSync } }
    if ridgeSync then synchronise s else holdover s

def execTimeSync (offset : Int) (ridgeSync : Bool) (s : State) : Res := .next (timeSyncEffect offset ridgeSync s)

/-- TIME_SLEW_END. -/
def execTimeSlewEnd (s : State) : Res := .next { s with sys := { s.sys with slew := false } }

/-- Microseconds of trusted time in one AON tick: 15,625 / 512, at half rate half of that (R468, R470). -/
def tickMicros (half : Bool) (a : Nat) : Nat :=
  if half then (a + 1) * 15625 / 1024 - a * 15625 / 1024 else (a + 1) * 15625 / 512 - a * 15625 / 512

/-- One AON tick, which passes when no command waits (DESIGN CHOICE, log 1): the AON count rises, and with main power
trusted time advances. -/
def aonTick (s : State) : State :=
  let a := s.eav.aon
  let s := { s with eav := { s.eav with aon := (a + 1) % 2 ^ 48 } }
  if mainPower s then { s with sys := { s.sys with time := s.sys.time + tickMicros s.sys.slew a } } else s

/-! ### Lifetime record (R472 to R474) -/

/-- The lifetime budget in 1/256 minutes (R473). -/
abbrev lifeBudget : Nat := 5385830400

/-- Lower bounds of bins 1 to 13 in degrees, and the weights of bins 0 to 13. -/
def binBounds : List Int := [0, 15, 30, 45, 60, 70, 80, 85, 90, 95, 100, 105, 110]
def binWeights : List Nat := [1, 1, 3, 10, 27, 64, 128, 215, 304, 431, 609, 861, 1218, 1722]

/-- The bin of a temperature in sixteenths of a degree. -/
def tempBin (t : Int) : Nat := (binBounds.filter fun b => decide (16 * b ≤ t)).length

/-- The VCORE band: 31.25 mV each from 0.65 V, at 2.5 mV a code. -/
def vcoreBand (code : Nat) : Nat := min 7 (code * 2 / 25)

/-- A count of four bytes rises. -/
def bumpCount (m : SMap Nat) (k : Nat) : SMap Nat := SMap.set 0 m k (satInc 0xFFFFFFFF (SMap.get 0 m k))

/-- LIFETIME_MINUTE. -/
def lifetimeMinute (temp : Int) (s : State) : State :=
  let k := tempBin temp
  let c := s.tel.counts
  let e := min (2 ^ 64 - 1) (c.eq85 + binWeights.getD k 0)
  let reached := fun (x : Nat) => decide (c.eq85 < x ∧ x ≤ e)
  let s := { s with elec := { s.elec with temp := temp } }
  let s := countLife (fun c => { c with
    onMin := satInc 0xFFFFFFFF c.onMin
    tempHist := bumpCount c.tempHist k
    eq85 := e
    vcore := bumpCount c.vcore (vcoreBand s.elec.vid) }) s
  let s := if reached (lifeBudget * 4 / 5) then cause .tel 2 s else s
  if reached lifeBudget then cause .tel 3 s else s

def execLifetimeMinute (temp : Int) (s : State) : Res := .next (if answers s then lifetimeMinute temp s else s)

/-- SNAPSHOT (R474): at a snapshot moment that no other command covers. The operand is how the array takes the lines. -/
def execSnapshot (outs : List FlashOutcome) (s : State) : Res := .next (if wardenUp s then putSnapshotF 1024 outs s else s)

/-- Sectors of the event archive (R471). -/
def archSectors (s : State) : Nat := s.img.latched.partition.life - 136

/-- Word address of archive entry `j` of archive sector `k`. -/
def archWord (s : State) (k j : Nat) : Nat := (lifeSect0 s + 136 + k) * 512 + 4 * j

/-- Does the archive hold an entry there? -/
def archUsed (s : State) (k j : Nat) : Bool := (List.range 4).any fun i => !wordErased s (archWord s k j + i)

/-- Where the next entry goes: behind the last entry of the last sector in use, in circular order. -/
def archPlace (s : State) : Nat × Nat :=
  let n := archSectors s
  match (List.range n).find? fun k => archUsed s k 0 && !archUsed s ((k + 1) % n) 0 with
  | none => (0, 0)
  | some k =>
    let j := ((List.range 128).filter fun j => archUsed s k j).length
    if j < 128 then (k, j) else ((k + 1) % n, 0)

/-- Program an entry into the archive: at its place, or from the next sector on where it does not program (R362). -/
def archPut (b : List Byte) : Nat → Nat × Nat → State → (Nat × Nat) × State
  | 0, p, s => (p, s)
  | f + 1, p, s =>
    let r := fwProg (8 * archWord s p.1 p.2) (padTo 32 b) s
    if r.1 then (p, r.2) else archPut b f ((p.1 + 1) % archSectors s, 0) r.2

/-- Copy one entry into the archive. When that fills the archive, the oldest sector is erased (R474). -/
def archiveOne (s : State) : State :=
  let b := SMap.get [] s.eav.ring ((s.eav.ringNext + 64 - s.eav.ringCount) % 64)
  let r := archPut b (archSectors s) (archPlace s) s
  let p := r.1
  let s := { r.2 with eav := { r.2.eav with ringCount := r.2.eav.ringCount - 1 } }
  let k := (p.1 + 1) % archSectors s
  if p.2 = 127 ∧ archUsed s k 0 = true then cause .tel 1 (fwErase (lifeSect0 s + 136 + k) s).2 else s

/-- Copy `n` entries. -/
def archiveEntries : Nat → State → State
  | 0, s => s
  | n + 1, s => archiveEntries n (archiveOne s)

/-- EVENT_ARCHIVE: the warden copies the unarchived entries, oldest first, and acknowledges them. -/
def execEventArchive (s : State) : Res :=
  .next (if wardenUp s = true ∧ 0 < archSectors s then archiveEntries s.eav.ringCount s else s)

/-! ### JTAG (R498) -/

/-- JTAG_INSTRUCTION: one that controls the pins holds the main die in reset; its replacement resets the device with
reason power-up. The others disturb nothing. The spec does not give the value that IDCODE returns. -/
def jtagInstruction (i : JtagInstr) (env : BootEnv) (s : State) : State :=
  if mainPower s = false then s
  else
    let old := s.elec.jtag
    let s := { s with elec := { s.elec with jtag := i } }
    if i = .pinControl then (if old = .pinControl then s else deviceReset 0 s)
    else if old = .pinControl then resetAndBoot 0 env s
    else if i = .idcode then
      let d := drawWord s
      emit (.jtagData (d.1.setWidth 64)) d.2
    else s

def execJtagInstruction (i : JtagInstr) (env : BootEnv) (s : State) : Res := .next (jtagInstruction i env s)

end Sys2Proof.Machine
end

