-- ==== Sys2Proof/Machine/Mgmt.lean ====
section
/-! DEFINITION. The management space (00_scope.md, R8 to R12; the register tables of every chapter): what each register
reads as. -/

namespace Sys2Proof.Machine

/-! ### Shadowed pairs (R12) -/

/-- Management offset of PKE_GALn_CTL. -/
def galCtl (n : Nat) : Nat := 0x501000 + n * 0x100

/-- The offsets X of all shadowed pairs. -/
def pairOffs : List Nat :=
  [0x44, 0x100, 0x144, 0x15C, 0x3A0, 0x5A0, 0x100028, 0x100048, 0x20F000, 0x300110, galCtl 0, galCtl 1, galCtl 2, galCtl 3,
   0x701000, 0x800100, 0x901000]

/-- The value that the pair at X holds. -/
def pairValue (s : State) (x : Nat) : Nat :=
  if x = 0x44 then s.sys.rstCtl else if x = 0x100 then s.sys.pwrCtl
  else if x = 0x144 then s.ret.rbReq * 0x10000 + s.sys.bootCtl
  else if x = 0x15C then s.sys.recovCtl else if x = 0x3A0 then s.sys.qCtl else if x = 0x5A0 then s.sys.tCtl
  else if x = 0x100028 then s.eav.ackCtl else if x = 0x100048 then s.eav.ringCtl else if x = 0x20F000 then s.img.cmd
  else if x = 0x300110 then s.hqi.setupCmd else if x = 0x701000 then s.ks.ctl else if x = 0x800100 then s.flc.ctl
  else if x = 0x901000 then s.slt.ctl
  else (galOf s ((x - 0x501000) / 0x100)).ctl

/-- What a read of X returns; a pair whose halves disagree reads as its reset value, zero (R371). -/
def pairRead (s : State) (x : Nat) : Word :=
  if (SMap.get {} s.pairs x).bad then 0 else BitVec.ofNat 32 (pairValue s x)

/-! ### Register files -/

/-- The index of `o` in a file of `n` words from offset `base`. -/
def regIdx (base n o : Nat) : Option Nat := if base ≤ o ∧ o < base + 4 * n then some ((o - base) / 4) else none

/-- Word `k` of a byte string. -/
def byteWord (bs : List Byte) (k : Nat) : Word := BitVec.ofNat 32 (leAt bs (4 * k) 4)

/-- Low and high word of a number. -/
def loWord (n : Nat) : Word := BitVec.ofNat 32 n
def hiWord (n : Nat) : Word := BitVec.ofNat 32 (n / 2 ^ 32)

/-- The first register file that holds `o`, else the rest. -/
def orFiles (fs : List (Nat × Nat × (Nat → Word))) (o : Nat) : Word :=
  match fs with
  | [] => 0
  | (base, n, f) :: fs => match regIdx base n o with
    | some k => f k
    | none => orFiles fs o

/-- A single register, or zero. -/
def orRegs (rs : List (Nat × Word)) (o : Nat) (other : Word) : Word :=
  match rs with
  | [] => other
  | (a, v) :: rs => if a = o then v else orRegs rs o other

/-! ### What each block's registers read as -/

/-- SYS_TRUSSn. -/
def trussWord (s : State) (n : Nat) : Word :=
  let p := physOf s n
  mkWord [(15, b2n (decide (p ≠ 0x3F))), (14, b2n (quarantined s n)), (13, b2n (bitOf s.sys.forge.toNat n)),
    (12, b2n (bitOf s.sys.map.spared n)), (0, p % 64)]

/-- STATE of SYS_PWR_STAT: Idle also while a wake is under way. -/
def pwrState (s : State) : Nat := match s.sys.power with
  | .idle => 1
  | .prep => 2
  | _ => 0

/-- The SYS block (R7, R479). -/
def readSys (s : State) (o : Nat) : Word :=
  orRegs
    [(0x0, loWord (isum s)), (0x4, loWord s.sys.isumMask.toNat), (0x8, gradeWord s), (0x10, s.sys.cause), (0x14, s.sys.mask),
     (0x40, loWord s.sys.rstReason),
     (0x108, mkWord [(16, s.sys.pwrStatus), (8, b2n (decide (s.sys.pwrRun ≠ .none))), (5, b2n s.sys.readyOff), (0, pwrState s)]),
     (0x10C, loWord (b2n s.sys.wakeDb)),
     (0x140, mkWord [(16, s.sys.svn), (8, rollback s), (6, s.ret.tries), (5, b2n s.sys.calDef),
       (4, b2n (decide (s.sys.power = .recovery))), (2, s.ret.pref), (0, s.sys.runSlot)]),
     (0x150, loWord s.sys.recovAddr.toNat), (0x154, hiWord s.sys.recovAddr.toNat), (0x158, s.sys.recovLen),
     (0x164, mkWord [(16, s.sys.recovStat), (8, b2n s.sys.recovBusy)]),
     (0x300, mkWord [(16, s.sys.pool.length), (4, s.sys.entFail.toNat), (0, (s.sys.entOn &&& ~~~s.sys.entFail).toNat)]),
     (0x3A8, mkWord [(16, s.sys.qStatus)]), (0x5A8, mkWord [(16, s.sys.tStatus), (0, timeCode s)]),
     (0x5B0, loWord s.sys.time), (0x5B4, loWord s.sys.timeLatch), (0xFFC, loWord s.sys.cert.length)] o
    (orFiles
      [(0x30, 4, fun k => loWord (fuseFld s (32 * k) 32)), (0x200, 32, trussWord s),
       (0x380, 8, fun k => SMap.get 0 s.sys.qNonce k), (0x400, 84, fun k => byteWord s.sys.quote k),
       (0x580, 8, fun k => byteWord s.sys.tNonce k), (0x600, 68, fun k => SMap.get 0 s.sys.tBuf k),
       (0x1000, 1023, fun k => byteWord s.sys.cert k)] o)

/-- EAV_SRCn. -/
def srcWord (s : State) (n : Nat) : Word :=
  mkWord [(16, SMap.get 0 s.eav.evCount n), (6, notifyOf s n), (3, levelOf s n), (2, b2n (srcDisabled s n)),
    (1, b2n (srcMonitored s n)), (0, b2n (srcActive s n))]

/-- The EAV block (R396). -/
def readEav (s : State) (o : Nat) : Word :=
  orRegs
    [(0x10, s.eav.cause), (0x14, s.eav.mask), (0x18, loWord s.eav.isrc.toNat),
     (0x20, mkWord [(10, b2n s.eav.ackRef), (9, b2n s.eav.rootLock), (8, b2n s.eav.vaultZero), (4, s.eav.lastLevel),
       (3, b2n s.eav.holdPurge), (0, heldLevel s)]),
     (0x30, loWord s.eav.pend.toNat), (0x34, mkWord [(16, s.eav.vbat1), (0, s.eav.vbat0)]),
     (0x38, loWord s.eav.aon), (0x3C, loWord s.eav.aonLatch),
     (0x40, mkWord [(16, s.eav.ringLost), (8, (s.eav.ringNext + 64 - s.eav.ringCount) % 64), (0, s.eav.ringCount)]),
     (0x484, mkWord [(8, fuseFld s 143 2), (0, lifecycle s)])] o
    (orFiles
      [(0x100, 22, srcWord s), (0x400, 32, fun k => loWord (fuseFld s (32 * k) 32)),
       (0x1000, 512, fun k => byteWord (SMap.get [] s.eav.ring (k / 8)) (k % 8))] o)

/-- STATE of GTE_IMG_STAT. -/
def imgState (s : State) : Nat := match s.img.phase with
  | .idle => 0 | .staging => 1 | .staged => 2 | .approved => 3 | .committing => 4 | .pendingReset => 5

/-- The mirror of a latched gate entry (R345): word `k` of target `t`, entry `e`. -/
def gateMirror (s : State) (i : Nat) : Word :=
  let t := i / 64
  let e := i / 4 % 16
  match s.img.latched.gates.find? fun x => x.target == t && x.entry == e with
  | none => 0
  | some x =>
    if i % 4 = 0 then
      mkWord [(31, b2n (entryValid s x)), (16, x.gable), (8, x.cls), (4, x.priv), (0, x.perm)]
    else if i % 4 = 2 then loWord x.base
    else if i % 4 = 3 then loWord x.limit
    else 0

/-- The head record of the fault FIFO. -/
def faultHead (s : State) : FaultRec := s.gte.fifo.headD ⟨0, 0, 0, 0⟩

/-- The GTE block (R51, R344, R345). -/
def readGte (s : State) (o : Nat) : Word :=
  orRegs
    [(0x10, s.gte.cause), (0x14, s.gte.mask), (0x20, (faultHead s).tag), (0x24, (faultHead s).info),
     (0x28, (faultHead s).offset), (0x2C, (faultHead s).len), (0x34, loWord s.gte.fifo.length), (0x38, loWord s.gte.dbgCnt),
     (0xF008, mkWord [(16, s.img.status), (14, s.img.source), (13, b2n s.img.divergent), (12, b2n s.img.degraded),
       (11, b2n s.img.locked), (8, b2n s.img.busy), (0, imgState s)]),
     (0xF010, loWord s.img.src.toNat), (0xF014, hiWord s.img.src.toNat), (0xF018, s.img.len),
     (0xF020, loWord s.img.gen), (0xF024, hiWord s.img.gen), (0xF0A0, mkWord [(16, s.img.refSect), (0, s.img.refCheck)])] o
    (orFiles
      [(0x100, 64, fun g => loWord (SMap.get 0 s.gte.gcnt g)), (0x1000, 0x5C * 64, gateMirror s),
       (0xF030, 12, fun k => byteWord s.img.digest k),
       (0xF070, 12, fun k => if s.img.phase = .staged ∨ s.img.phase = .approved then byteWord s.img.sdig k else 0)] o)

/-- Register `k` of ring context `c` (R75). -/
def ringWord (s : State) (c k : Nat) : Word :=
  let r := ringOf s c
  match k with
  | 0 => loWord r.base.toNat
  | 1 => hiWord r.base.toNat
  | 2 => mkWord [(24, burstOf s c), (16, weightOf s c), (11, b2n (!r.chains.isEmpty)), (10, b2n r.stopped),
      (9, b2n (ringInline s c)), (8, b2n r.isOpen), (0, r.sizeLog2)]
  | 3 => r.tail
  | 4 => r.head
  | 5 => r.cpl
  | 6 => loWord (ringInfl s c)
  | _ =>
    let held := (List.range 4).map fun j => if r.slots.getD j .empty == .empty then 0 else 2 ^ j
    mkWord [(8, held.sum), (3, b2n r.fetchErr), (2, b2n r.winWidth), (1, b2n r.inlOverrun), (0, b2n r.dbRange)]

/-- Register `k` of function `f` (R76). -/
def fnWord (s : State) (f k : Nat) : Word :=
  let x := fnOf s f
  match k with
  | 0 => mkWord [(8, ringCount s f), (4, b2n x.flrActive),
      (2, if f = 0 then 3 else if formed s f then modeOf s f else 0), (1, b2n (fnSuspended s f)), (0, b2n (fnReady s f))]
  | 1 => loWord (fnInfl s f)
  | 2 => loWord x.refuse
  | 3 => loWord x.drop
  | 4 => loWord (if f = 0 ∨ formed s f = true then fnCredit s f else 0)
  | _ => 0

/-- The HQI block (R72, R75, R76, R101). -/
def readHqi (s : State) (o : Nat) : Word :=
  orRegs
    [(0x10, s.hqi.cause), (0x14, s.hqi.mask), (0x20, loWord s.hqi.flrFn.toNat), (0x24, hiWord s.hqi.flrFn.toNat),
     (0x28, loWord s.hqi.stopFn.toNat), (0x2C, hiWord s.hqi.stopFn.toNat), (0x100, loWord s.hqi.setupCtx),
     (0x104, loWord s.hqi.setupBase.toNat), (0x108, hiWord s.hqi.setupBase.toNat), (0x10C, loWord s.hqi.setupSize),
     (0x118, mkWord [(16, s.hqi.setupStatus), (0, b2n s.hqi.setupReq.isSome)])] o
    (orFiles
      [(0x10000, 4096 * 8, fun i => ringWord s (i / 8) (i % 8)), (0x30000, 64 * 8, fun i => fnWord s (i / 8) (i % 8))] o)

/-- The RFB block (R326). -/
def readRfb (s : State) (o : Nat) : Word :=
  orRegs
    [(0x10, s.rfb.cause), (0x14, s.rfb.mask), (0x20, loWord (32768 - ((List.range 64).map fun g => cellsUsed s g).sum))] o
    (orFiles
      [(0x100, 64, fun g => mkWord [(16, cellQuota s g), (0, cellsUsed s g)]),
       (0x1000, 2048, fun q => mkWord [(16, ((queueOf s q).map fun p => cellsOf p.words.length).sum), (0, (queueOf s q).length)]),
       (0x3000, 2048, fun q =>
         mkWord [(8, (SMap.get [] s.rfb.waiters q).length), (7, b2n (queueOwner s q).isSome), (0, (queueOwner s q).getD 0)])] o)

/-- Register `k` of sequencer `n` (R180). -/
def galWord (s : State) (n k : Nat) : Word :=
  let g := galOf s n
  match k with
  | 2 => mkWord [(16, g.status), (15, b2n g.loaded), (8, b2n (decide (g.run ≠ .none)))]
  | 4 => loWord g.addr.toNat
  | 5 => hiWord g.addr.toNat
  | 6 => g.len
  | 7 => loWord g.service
  | 8 => g.arg
  | 9 => mkWord [(16, g.mpId), (0, g.mpVer)]
  | 10 => g.cycles
  | _ => 0

/-- A word of a sequencer's operand memory; a KEY-tagged one reads as zero (R180). -/
def galMemWord (s : State) (i : Nat) : Word :=
  let w := SMap.get (0, false) (galOf s (i / 0x2000)).mem (i % 0x2000 / 2)
  if w.2 then 0 else if i % 2 = 0 then loWord w.1.toNat else hiWord w.1.toNat

/-- The PKE block (R180, R187). -/
def readPke (s : State) (o : Nat) : Word :=
  orRegs [(0x10, s.pke.cause), (0x14, s.pke.mask), (0x20, s.pke.mismatch), (0x30, loWord s.tel.counts.galFloor)] o
    (orFiles
      [(0x1000, 4 * 64, fun i => galWord s (i / 64) (i % 64)), (0x80000, 4 * 0x2000, galMemWord s)] o)

/-- SYM_PIPEn_STAT. -/
def pipeWord (s : State) (p : Nat) : Word :=
  let x := pipeOf s p
  mkWord [(20, if x.kind = 1 then x.slot else 0), (16, loadersBusy s p), (8, 30 - (freeChains s p).length), (0, x.kind)]

/-- The SYM block (R216). -/
def readSym (s : State) (o : Nat) : Word :=
  orRegs
    [(0x10, s.sym.cause), (0x14, s.sym.mask), (0x20, s.sym.drbgFail), (0x24, loWord s.sym.ctrExh), (0x100, pipeWord s 0),
     (0x110, pipeWord s 1), (0x120, pipeWord s 2), (0x130, pipeWord s 3),
     (0x200, mkWord [(16, logFree s), (0, s.sym.ctr.nextPage % 128)]), (0x204, loWord s.sym.ctr.seq)] o 0

/-- The MSU block (R249). -/
def readMsu (s : State) (o : Nat) : Word :=
  let bgen := match s.ks.root with
    | some r => r.bGen
    | none => 0
  let pgen := match s.ks.pending with
    | some b => b.gen
    | none => 0
  orRegs
    [(0x10, s.msu.cause), (0x14, s.msu.mask), (0x20, loWord s.msu.fail),
     (0x28, mkWord [(16, s.msu.authFail), (0, s.msu.reread)]), (0x30, mkWord [(16, s.msu.unspared), (0, (s.msu.used.map (·.2)).sum)]),
     (0x1008, mkWord [(16, s.ks.status), (9, b2n s.ks.pending.isSome), (8, b2n (decide (s.ks.run ≠ .none))), (0, ksCode s)]),
     (0x1010, loWord s.ks.addr.toNat), (0x1014, hiWord s.ks.addr.toNat), (0x1018, loWord s.ks.arg.toNat),
     (0x101C, hiWord s.ks.arg.toNat), (0x1020, loWord bgen), (0x1024, hiWord bgen), (0x1028, loWord pgen),
     (0x102C, hiWord pgen), (0x1030, mkWord [(16, slotLogFree s), (0, (bufRecs s).length)])] o 0

/-- ERASE of FLC_STAT. -/
def eraseCode (s : State) : Nat := match s.flc.erase with
  | .none => 0 | .running => 1 | .suspended => 2 | .auto => 3

/-- The FLC block (R367). -/
def readFlc (s : State) (o : Nat) : Word :=
  orRegs
    [(0x10, s.flc.cause), (0x14, s.flc.mask), (0x108, loWord s.flc.addr),
     (0x10C, mkWord [(16, s.flc.status), (12, s.flc.pulses), (11, b2n s.flc.retired), (9, eraseCode s), (8, b2n (flcBusy s)),
       (0, s.flc.lastOp)]),
     (0x110, s.flc.rstat), (0x114, s.flc.rstatAny), (0x118, loWord s.flc.eraseSect),
     (0x11C, mkWord [(8, s.flc.pulseThresh), (4, s.flc.readThresh), (0, b2n s.flc.autosus)]), (0x120, s.flc.warn),
     (0x124, mkWord [(16, (freeSpares s).length), (0, 328 - (freeSpares s).length)]), (0x128, s.flc.retireReg),
     (0x12C, mkWord [(16, s.flc.uncorr), (0, s.flc.corr)]), (0x130, loWord s.flc.critEnd)] o
    (orFiles [(0x140, 16, fun k => flcData s k), (0x800, 64, fun k => byteWord s.flc.cal k)] o)

/-- Register `k` of slot `n` (R428). -/
def slotWord (s : State) (n k : Nat) : Word :=
  let x := slotOf s n
  match k with
  | 0 => mkWord [(16, x.tap), (12, x.rate), (8, x.proto), (4, b2n x.unconf), (3, b2n x.session.isSome), (2, b2n x.step),
      (1, b2n x.powered), (0, b2n x.present)]
  | 1 => mkWord [(16, x.crcErr), (0, x.timeouts)]
  | 2 => loWord x.wseq
  | 4 => byteWord x.custId 0
  | 5 => byteWord x.custId 1
  | 6 => byteWord x.custId 2
  | 7 => byteWord x.custId 3
  | _ => 0

/-- STATE of SLT_CER_STAT. -/
def cerState (s : State) : Nat := match s.slt.phase with
  | .idle => 0 | .approving => 1 | .postQuorum => 2 | .executing => 3 | .exportOpen => 4

/-- SLT_CER_COUNT. -/
def cerCountWord (s : State) : Word := match s.slt.cer with
  | some c => mkWord [(24, c.unconf), (16, c.post), (8, c.required), (0, c.counted.length)]
  | none => 0

/-- SLT_CER_LEFT: whole seconds, the last one begun counting as one. -/
def cerLeft (s : State) : Nat := match s.slt.cer with
  | some c => (c.endAt - s.eav.aon + 32767) / 32768
  | none => 0

/-- The SLT block (R428). -/
def readSlt (s : State) (o : Nat) : Word :=
  orRegs
    [(0x10, s.slt.cause), (0x14, s.slt.mask), (0x1008, mkWord [(16, s.slt.status), (8, b2n s.slt.busy), (0, cerState s)]),
     (0x100C, cerCountWord s), (0x1010, mkWord [(8, s.slt.target), (0, s.slt.ctype)]), (0x1014, s.slt.param),
     (0x1018, loWord s.slt.slotSel), (0x101C, loWord s.slt.cerNo), (0x1050, loWord (cerLeft s))] o
    (orFiles [(0x100, 16, fun i => slotWord s (i / 8) (i % 8)), (0x1020, 12, fun k => byteWord s.slt.subj k)] o)

/-- STATE of BTN_PORTn_STAT. -/
def portState (p : Port) : Nat := match p.phase with
  | .down => 0 | .training => 1 | .handshake => 2 | .up => 3 | .refused => 4 | .candidate => 5

/-- BTN_CLUSTER; a solo module has no successor. -/
def clusterWord (s : State) : Word :=
  let f := match s.btn.table with
    | some t => [(24, t.succ % 16), (20, t.ridge), (16, s.btn.member), (8, t.n)]
    | none => [(24, 0xF)]
  mkWord (f ++ [(2, b2n s.btn.candidate), (0, roleCode s)])

/-- The BTN block (R450). -/
def readBtn (s : State) (o : Nat) : Word :=
  let epoch := match s.btn.table with
    | some t => t.epoch.toNat
    | none => 0
  let stat := fun (n : Nat) =>
    let p := btnPort s n
    mkWord [(20, p.peer.getD 0xF), (8, p.lanes), (0, portState p)]
  let err := fun (n : Nat) => mkWord [(16, (btnPort s n).replays), (0, (btnPort s n).tagFail)]
  orRegs
    [(0x10, s.btn.cause), (0x14, s.btn.mask), (0x100, stat 0), (0x104, err 0), (0x120, stat 1), (0x124, err 1),
     (0x200, clusterWord s), (0x204, loWord epoch), (0x208, hiWord epoch), (0x20C, loWord (s.btn.reach.toNat % 0x10000)),
     (0x210, loWord s.ks.seq), (0x214, loWord (s.ks.seq / 2 ^ 32 % 2 ^ 24)), (0x218, loWord (holdLeft s)),
     (0x300, loWord s.btn.evtSrc)] o
    (orFiles [(0x304, 8, fun k => byteWord s.btn.evt k)] o)

/-- The TEL block (R480). TEL_REC is the snapshot as it would be written now. -/
def readTel (s : State) (o : Nat) : Word :=
  orRegs [(0x10, s.tel.cause), (0x14, s.tel.mask), (0x20, loWord (s.tel.counts.eq85 * 1000000 / lifeBudget))] o
    (orFiles [(0x1000, 128, fun k => byteWord (snapBody s (s.tel.snapSeq + 1)) k)] o)

/-- A register at a management offset, pairs and side effects apart; an offset without a register reads as zero. -/
def readBlock (s : State) (off : Nat) : Word :=
  let o := off % 0x100000
  match off / 0x100000 with
  | 0 => readSys s o
  | 1 => readEav s o
  | 2 => readGte s o
  | 3 => readHqi s o
  | 4 => readRfb s o
  | 5 => readPke s o
  | 6 => readSym s o
  | 7 => readMsu s o
  | 8 => readFlc s o
  | 9 => readSlt s o
  | 10 => readBtn s o
  | 11 => readTel s o
  | _ => 0

/-- In recovery only SYS, EAV, FLC and TEL answer; the other blocks read zero (R461). -/
def blockAnswers (s : State) (off : Nat) : Bool :=
  s.sys.power != .recovery || [0, 1, 8, 11].contains (off / 0x100000)

/-- Any register as it reads. -/
def readReg (s : State) (off : Nat) : Word :=
  if blockAnswers s off = false then 0
  else if pairOffs.contains off then pairRead s off
  else if 4 ≤ off ∧ pairOffs.contains (off - 4) = true then ~~~(pairRead s (off - 4))
  else readBlock s off

/-- Reads that latch (R396, R479). -/
def readLatch (off : Nat) (s : State) : State :=
  if off = 0x100038 then { s with eav := { s.eav with aonLatch := s.eav.aon / 2 ^ 32 % 2 ^ 16 } }
  else if off = 0x5B0 then { s with sys := { s.sys with timeLatch := s.sys.time / 2 ^ 32 } }
  else s

/-- A virtual function's BAR0 does not present the management space (R70). -/
def isVf : Who → Bool
  | .vf _ => true
  | _ => false

/-- A management read of one word: none where its gate refuses it (R336). -/
def mgmtRead32 (who : Who) (off : Nat) (s : State) : Option Word × State :=
  if 0xC00000 ≤ off ∨ isVf who = true then (some 0, s)
  else match mgmtGate who off kRead s with
    | (false, s) => (none, s)
    | (true, s) => (some (readReg s off), readLatch off s)

/-- A word of virtual function `n`'s BAR0 (R70): the mirrors of ring contexts and of the function's registers. -/
def vfRead32 (s : State) (n off : Nat) : Word :=
  if off < 0x40000 then
    if 0x800 ≤ off % 0x1000 ∧ off % 0x1000 < 0x820 then ringWord s (64 * n + off / 0x1000) (off % 0x1000 % 0x20 / 4) else 0
  else if off < 0x40020 then fnWord s n (off % 0x20 / 4)
  else 0

end Sys2Proof.Machine
end

