-- ==== Sys2Proof/Machine/MgmtCmds.lean ====
section
/-! DEFINITION. Writes of the management space (R10 to R12, R69 to R71, R85) and the commands that are such writes: the
named shadowed-pair commands, register accesses and the management SPI (R477). -/

namespace Sys2Proof.Machine

/-! ### Plain registers (R10) -/

/-- Replace a half of a 64-bit value. -/
def setLo (d : Dword) (v : Word) : Dword := BitVec.ofNat 64 (d.toNat / 2 ^ 32 * 2 ^ 32 + v.toNat)
def setHi (d : Dword) (v : Word) : Dword := BitVec.ofNat 64 (v.toNat * 2 ^ 32 + d.toNat % 2 ^ 32)

/-- The bits of a block's ICAUSE that hold causes. -/
def causeBits : Block → Word
  | .sys => 0x7FF | .eav => 0xFF | .gte => 0x80000007 | .hqi => 0x7F | .rfb => 0x7 | .pke => 0x1FF | .sym => 0x3F
  | .msu => 0xFF | .flc => 0xFF | .slt => 0x1FF | .btn => 0x7FF | .tel => 0x1F

/-- Write a block's ICAUSE: a 1 clears its bit. -/
def clearCause (b : Block) (v : Word) (s : State) : State :=
  match b with
  | .sys => { s with sys := { s.sys with cause := w1c s.sys.cause v } }
  | .eav => { s with eav := { s.eav with cause := w1c s.eav.cause v } }
  | .gte => { s with gte := { s.gte with cause := w1c s.gte.cause v } }
  | .hqi => { s with hqi := { s.hqi with cause := w1c s.hqi.cause v } }
  | .rfb => { s with rfb := { s.rfb with cause := w1c s.rfb.cause v } }
  | .pke => { s with pke := { s.pke with cause := w1c s.pke.cause v } }
  | .sym => { s with sym := { s.sym with cause := w1c s.sym.cause v } }
  | .msu => { s with msu := { s.msu with cause := w1c s.msu.cause v } }
  | .flc => { s with flc := { s.flc with cause := w1c s.flc.cause v } }
  | .slt => { s with slt := { s.slt with cause := w1c s.slt.cause v } }
  | .btn => { s with btn := { s.btn with cause := w1c s.btn.cause v } }
  | .tel => { s with tel := { s.tel with cause := w1c s.tel.cause v } }

/-- Write a block's IMASK. -/
def setMask (b : Block) (v : Word) (s : State) : State :=
  let v := v &&& causeBits b
  match b with
  | .sys => { s with sys := { s.sys with mask := v } }
  | .eav => { s with eav := { s.eav with mask := v } }
  | .gte => { s with gte := { s.gte with mask := v } }
  | .hqi => { s with hqi := { s.hqi with mask := v } }
  | .rfb => { s with rfb := { s.rfb with mask := v } }
  | .pke => { s with pke := { s.pke with mask := v } }
  | .sym => { s with sym := { s.sym with mask := v } }
  | .msu => { s with msu := { s.msu with mask := v } }
  | .flc => { s with flc := { s.flc with mask := v } }
  | .slt => { s with slt := { s.slt with mask := v } }
  | .btn => { s with btn := { s.btn with mask := v } }
  | .tel => { s with tel := { s.tel with mask := v } }

/-- Further registers of SYS (R479). -/
def writeSys (o : Nat) (v : Word) (s : State) : State :=
  let y := s.sys
  if o = 0x4 then { s with sys := { y with isumMask := v.setWidth 12 } }
  else if o = 0x10C then { s with sys := { y with wakeDb := bitOf v.toNat 0 } }
  else if o = 0x150 then { s with sys := { y with recovAddr := setLo y.recovAddr v } }
  else if o = 0x154 then { s with sys := { y with recovAddr := setHi y.recovAddr v } }
  else if o = 0x158 then { s with sys := { y with recovLen := v } }
  else match regIdx 0x380 8 o, regIdx 0x600 68 o with
    | some k, _ => { s with sys := { y with qNonce := SMap.set 0 y.qNonce k v } }
    | _, some k => { s with sys := { y with tBuf := SMap.set 0 y.tBuf k v } }
    | _, _ => s

/-- Further registers of GTE: the fault FIFO's POP and the image registers (R51, R344). -/
def writeGte (o : Nat) (v : Word) (s : State) : State :=
  if o = 0x30 then { s with gte := { s.gte with fifo := s.gte.fifo.tail } }
  else if o = 0xF010 then { s with img := { s.img with src := setLo s.img.src v } }
  else if o = 0xF014 then { s with img := { s.img with src := setHi s.img.src v } }
  else if o = 0xF018 then { s with img := { s.img with len := v } }
  else s

/-- Further registers of HQI (R72, R101). -/
def writeHqi (o : Nat) (v : Word) (s : State) : State :=
  let h := s.hqi
  let lo : Dword := v.setWidth 64
  let hi : Dword := BitVec.ofNat 64 (v.toNat * 2 ^ 32)
  if o = 0x20 then { s with hqi := { h with flrFn := h.flrFn &&& ~~~lo } }
  else if o = 0x24 then { s with hqi := { h with flrFn := h.flrFn &&& ~~~hi } }
  else if o = 0x28 then { s with hqi := { h with stopFn := h.stopFn &&& ~~~lo } }
  else if o = 0x2C then { s with hqi := { h with stopFn := h.stopFn &&& ~~~hi } }
  else if o = 0x100 then { s with hqi := { h with setupCtx := fld v 0 12 } }
  else if o = 0x104 then { s with hqi := { h with setupBase := setLo h.setupBase v } }
  else if o = 0x108 then { s with hqi := { h with setupBase := setHi h.setupBase v } }
  else if o = 0x10C then { s with hqi := { h with setupSize := fld v 0 5 } }
  else s

/-- A register of sequencer `n` (R180). -/
def writeGal (n k : Nat) (v : Word) (s : State) : State :=
  let g := galOf s n
  match k with
  | 4 => setGal n { g with addr := setLo g.addr v } s
  | 5 => setGal n { g with addr := setHi g.addr v } s
  | 6 => setGal n { g with len := v } s
  | 7 => setGal n { g with service := fld v 0 16 } s
  | 8 => setGal n { g with arg := v } s
  | _ => s

/-- A word of a sequencer's operand memory. Written over half a KEY-tagged word, it leaves the other half open: the spec
says nothing of it, so it is free. -/
def writeGalMem (i : Nat) (v : Word) (s : State) : State :=
  let n := i / 0x2000
  let k := i % 0x2000 / 2
  let w := SMap.get (0, false) (galOf s n).mem k
  let d := if w.2 then drawDword s else (w.1, s)
  let g := galOf d.2 n
  let x := if i % 2 = 0 then setLo d.1 v else setHi d.1 v
  setGal n { g with mem := SMap.set (0, false) g.mem k (x, false) } d.2

/-- Further registers of PKE. -/
def writePke (o : Nat) (v : Word) (s : State) : State :=
  if o = 0x20 then { s with pke := { s.pke with mismatch := w1c s.pke.mismatch v } }
  else match regIdx 0x1000 (4 * 64) o, regIdx 0x80000 (4 * 0x2000) o with
    | some i, _ => writeGal (i / 64) (i % 64) v s
    | _, some i => writeGalMem i v s
    | _, _ => s

/-- Further registers of MSU (R249). -/
def writeMsu (o : Nat) (v : Word) (s : State) : State :=
  let k := s.ks
  if o = 0x1010 then { s with ks := { k with addr := setLo k.addr v } }
  else if o = 0x1014 then { s with ks := { k with addr := setHi k.addr v } }
  else if o = 0x1018 then { s with ks := { k with arg := setLo k.arg v } }
  else if o = 0x101C then { s with ks := { k with arg := setHi k.arg v } }
  else s

/-- Further registers of FLC, which only the warden writes (R350, R367). -/
def writeFlc (o : Nat) (v : Word) (s : State) : State :=
  if o = 0x108 then { s with flc := { s.flc with addr := fld v 0 26 } }
  else if o = 0x11C then setFlcCfg v s
  else match regIdx 0x140 16 o with
    | some k => { s with flc := { s.flc with data := SMap.set 0 s.flc.data k v } }
    | none => s

/-- Further registers of SLT (R428). -/
def writeSlt (o : Nat) (v : Word) (s : State) : State :=
  let c := s.slt
  if o = 0x1010 then { s with slt := { c with ctype := fld v 0 8, target := fld v 8 8 } }
  else if o = 0x1014 then { s with slt := { c with param := v } }
  else if o = 0x1018 then { s with slt := { c with slotSel := fld v 0 1 } }
  else match regIdx 0x1020 12 o with
    | some k => { s with slt := { c with subj := patch c.subj (4 * k) (leBytes 4 v.toNat) } }
    | none => s

/-- The blocks in the order of R9. -/
def blockAt (k : Nat) : Option Block :=
  [Block.sys, .eav, .gte, .hqi, .rfb, .pke, .sym, .msu, .flc, .slt, .btn, .tel][k]?

/-- A write of a register that is no half of a pair. -/
def writeBlock (who : Who) (off : Nat) (v : Word) (s : State) : State :=
  let o := off % 0x100000
  match blockAt (off / 0x100000) with
  | none => s
  | some b =>
    if o = 0x10 then clearCause b v s
    else if o = 0x14 then setMask b v s
    else match b with
      | .sys => writeSys o v s
      | .eav => if o = 0x18 then { s with eav := { s.eav with isrc := s.eav.isrc &&& ~~~(v.setWidth 23) } } else s
      | .gte => writeGte o v s
      | .hqi => writeHqi o v s
      | .pke => writePke o v s
      | .sym => if o = 0x20 then { s with sym := { s.sym with drbgFail := w1c s.sym.drbgFail v } } else s
      | .msu => writeMsu o v s
      | .flc => if who = .warden then writeFlc o v s else s
      | .slt => writeSlt o v s
      | _ => s

/-! ### Shadowed pairs (R12) -/

/-- A write mismatch: SHADOW with kind 1, at most once per 32,768 AON ticks (R371). -/
def shadowMismatch (who : Who) (x : Nat) (s : State) : State :=
  let ev := fun (t : State) => raise srcShadow ([1, 0, 0, 0] ++ leBytes 4 x ++ leBytes 4 (tagWord (whoTag s who)).toNat)
    { t with eav := { t.eav with shadowAt := some t.eav.aon } }
  match s.eav.shadowAt with
  | some a => if s.eav.aon < a + 32768 then s else ev s
  | none => ev s

/-- Put a pair. -/
def setPair (x : Nat) (p : Pair) (s : State) : State := { s with pairs := SMap.set {} s.pairs x p }

/-- A write to X. -/
def pairWriteX (who : Who) (x : Nat) (v : Word) (s : State) : State :=
  let p := SMap.get {} s.pairs x
  match p.pend with
  | none => setPair x { p with pend := some (v, who) } s
  | some _ => shadowMismatch who x (setPair x { p with pend := none } s)

/-- A value takes effect in the pair at X. `arr` and `out` are what the flash array does for a READ or a RETIRE. -/
def pairEffect (x : Nat) (v : Word) (arr : LineRead) (out : FlashOutcome) (s : State) : State :=
  let c := fld v 0 4
  if x = 0x44 then
    let s := { s with sys := { s.sys with rstCtl := c } }
    if c = 5 then deviceReset 1 s else s
  else if x = 0x100 then pwrCommand c s
  else if x = 0x144 then bootCtlCommand v s
  else if x = 0x15C then recovCommand c s
  else if x = 0x3A0 then quoteCommand c s
  else if x = 0x5A0 then timeCommand c s
  else if x = 0x100028 then ackCommand v s
  else if x = 0x100048 then ringAck v s
  else if x = 0x20F000 then imgCommand c s
  else if x = 0x300110 then setupCommand v.toNat s
  else if x = 0x701000 then ksCommand c s
  else if x = 0x800100 then flcCommand v.toNat arr out s
  else if x = 0x901000 then cerCommand c s
  else galCommand ((x - 0x501000) / 0x100) c s

/-- A write to X + 4: the pair takes the pending value of the same initiator, or the value is discarded. -/
def pairWriteC (who : Who) (x : Nat) (v : Word) (arr : LineRead) (out : FlashOutcome) (s : State) : State :=
  let p := SMap.get {} s.pairs x
  match p.pend with
  | some (w, i) =>
    if i = who ∧ v = ~~~w then pairEffect x w arr out (setPair x { pend := none, work := true, bad := false } s)
    else shadowMismatch who x (setPair x { p with pend := none } s)
  | none => shadowMismatch who x s

/-- The pairs that only the warden writes: a write of another initiator is discarded before R12 sees it (R350, R396,
R479). -/
def wardenPairs : List Nat := [0x144, 0x100048, 0x800100]

/-- May an initiator write the pair at X? HQI_RSETUP_CMD takes the physical function and the management SPI alone (R71). -/
def mayWritePair (who : Who) (x : Nat) : Bool :=
  (decide (who = .warden) || !wardenPairs.contains x) && (x != 0x300110 || who == .pf || who == .spi)

/-- The pair that a write to `off` concerns. -/
def pairOf (off : Nat) : Option Nat :=
  if pairOffs.contains off then some off
  else if 4 ≤ off ∧ pairOffs.contains (off - 4) = true then some (off - 4)
  else none

/-- A write of one word that its gate has admitted. After READY_OFF only SYS_RST_CTL is written (R453). -/
def writeReg (who : Who) (off : Nat) (v : Word) (arr : LineRead) (out : FlashOutcome) (s : State) : State :=
  if blockAnswers s off = false then s
  else if s.sys.power = .prep ∧ pairOf off ≠ some 0x44 then s
  else match pairOf off with
    | some x =>
      if mayWritePair who x = false then s
      else if off = x then pairWriteX who x v s
      else pairWriteC who x v arr out s
    | none => writeBlock who off v s

/-- A management write of one word: whether its gate admitted it, and the state. -/
def mgmtWrite32 (who : Who) (off : Nat) (v : Word) (arr : LineRead) (out : FlashOutcome) (s : State) : Bool × State :=
  if 0xC00000 ≤ off ∨ isVf who = true then (true, s)
  else match mgmtGate who off kWrite s with
    | (false, s) => (false, s)
    | (true, s) => (true, writeReg who off v arr out s)

/-- The array without errors, for writes that are not one of the named flash commands. -/
def cleanLine : LineRead := ⟨[]⟩
def cleanOut : FlashOutcome := ⟨some 1, 0, 0⟩

/-- Both halves of a shadowed pair, value then complement, by one initiator. -/
def spWriteWith (who : Who) (x : Nat) (v : Word) (arr : LineRead) (out : FlashOutcome) (s : State) : State :=
  (mgmtWrite32 who (x + 4) (~~~v) arr out (mgmtWrite32 who x v arr out s).2).2

/-- The same for commands whose effect takes nothing from the array. -/
def spWrite (who : Who) (x : Nat) (v : Word) (s : State) : State := spWriteWith who x v cleanLine cleanOut s

/-- A command that the management space takes while the module answers. -/
def spCommand (who : Who) (x : Nat) (v : Word) (s : State) : Res := .next (if answers s then spWrite who x v s else s)

/-! ### Register accesses -/

/-- The ring and offset of a physical-function doorbell window in the management space (R71). -/
def pfWindow (off : Nat) : Option (Nat × Nat) :=
  if 0x380000 ≤ off ∧ off < 0x3C0000 ∧ off % 0x1000 < 0x100 then some ((off - 0x380000) / 0x1000, off % 0x1000) else none

/-- A write of `width` bytes to a doorbell window through a BAR (R82, R85). A 64-byte write is a command of its own. -/
def windowWrite (f ring o width : Nat) (v : Dword) (bad : Bool) (s : State) : State :=
  if takesDoorbells s = false then s
  else if width = 4 ∧ o = 0 then tailDoorbellEffect f ring (v.setWidth 32) bad s
  else throughWindow f ring o width (windowDiscard f ring bad) s

/-- Does a write come as a TLP, so that it may be poisoned or fail its ECRC: one through a function's BAR? -/
def isTlp : Who → Bool
  | .pf => true
  | .vf _ => true
  | _ => false

/-- REGISTER_WRITE (R10, R11, R70, R71): a write of any width at any offset. One that comes poisoned or fails its ECRC (`bad`)
is discarded and sets ECRC (R85, R101). Only a write through the physical function's BAR0 reaches its doorbell windows. -/
def registerWrite (who : Who) (off width : Nat) (v : Dword) (bad : Bool) (s : State) : State :=
  if answers s = false then s
  else match who with
    | .vf n =>
      if n < 1 ∨ 64 ≤ n ∨ fnEnabled s n = false then s
      else if off < 0x40000 ∧ off % 0x1000 < 0x100 then windowWrite n (off / 0x1000) (off % 0x1000) width v bad s
      else noteBadTlp bad s
    | _ => match pfWindow off with
      | some (r, o) => if who = .pf then windowWrite 0 r o width v bad s else s
      | none =>
        if isTlp who && bad then noteBadTlp true s
        else if width = 4 ∧ off % 4 = 0 then (mgmtWrite32 who off (v.setWidth 32) cleanLine cleanOut s).2
        else if width = 8 ∧ off % 8 = 0 then
          (mgmtWrite32 who (off + 4) (BitVec.ofNat 32 (v.toNat / 2 ^ 32)) cleanLine cleanOut
            (mgmtWrite32 who off (v.setWidth 32) cleanLine cleanOut s).2).2
        else s

def execRegisterWrite (who : Who) (off : Nat) (width : Nat) (value : BusData) (s : State) : Res :=
  .next (registerWrite who off width value.value value.bad s)

/-- A management read of one or two words, lower address first: none where a gate refuses one. -/
def mgmtRead (who : Who) (off width : Nat) (s : State) : Option Dword × State :=
  if width = 4 ∧ off % 4 = 0 then
    let r := mgmtRead32 who off s
    (r.1.map (·.setWidth 64), r.2)
  else if width = 8 ∧ off % 8 = 0 then
    let a := mgmtRead32 who off s
    let b := mgmtRead32 who (off + 4) a.2
    (match a.1, b.1 with
      | some x, some y => some (setHi (x.setWidth 64) y)
      | _, _ => none, b.2)
  else (some 0, s)

/-- REGISTER_READ (R11, R70, R336): the data leave the block, or the read ends without data. -/
def registerRead (who : Who) (off width : Nat) (s : State) : State :=
  if answers s = false then s
  else match who with
    | .vf n =>
      if n < 1 ∨ 64 ≤ n ∨ fnEnabled s n = false then s
      else
        let v := if width = 4 ∧ off % 4 = 0 then (vfRead32 s n off).setWidth 64
          else if width = 8 ∧ off % 8 = 0 then setHi ((vfRead32 s n off).setWidth 64) (vfRead32 s n (off + 4)) else 0
        emit (.regData who off v) s
    | _ => match mgmtRead who off width s with
      | (some v, s) => emit (.regData who off v) s
      | (none, s) => emit (.regAbort who off) s

def execRegisterRead (who : Who) (off : Nat) (width : Nat) (s : State) : Res := .next (registerRead who off width s)

/-- SHADOW_PENDING_WRITE (R12): a write to X. -/
def execShadowPendingWrite (who : Who) (off : Nat) (value : Word) (s : State) : Res :=
  .next (if answers s = true ∧ pairOffs.contains off = true then (mgmtWrite32 who off value cleanLine cleanOut s).2 else s)

/-- FAULT_POP (R344). -/
def execFaultPop (who : Who) (value : Word) (s : State) : Res :=
  .next (if answers s then (mgmtWrite32 who 0x200030 value cleanLine cleanOut s).2 else s)

/-! ### Named commands -/

/-- SYS_RST_CTL (R456, R479): the value 0x5; the boot ROM then runs. -/
def sysRstCtl (who : Who) (env : BootEnv) (s : State) : State :=
  if answers s then
    let s := spWrite who 0x44 5 s
    if s.sys.power = .inReset then boot env s else s
  else s

def execSysRstCtl (who : Who) (env : BootEnv) (s : State) : Res := .next (sysRstCtl who env s)

/-- Power commands (R453). -/
def execIdle (who : Who) (s : State) : Res := spCommand who 0x100 1 s
def execActive (who : Who) (s : State) : Res := spCommand who 0x100 2 s
def execStandbyPrep (who : Who) (s : State) : Res := spCommand who 0x100 3 s

/-- The fields of SYS_BOOT_CTL (R479); a command that is not RB_REQ writes RB_REQ back as it stands. -/
def bootCtlWord (s : State) (low : Nat) : Word := mkWord [(16, s.ret.rbReq), (0, low)]
def execKick (who : Who) (s : State) : Res := spCommand who 0x144 (bootCtlWord s 8) s
def execBootConfirm (who : Who) (s : State) : Res := spCommand who 0x144 (bootCtlWord s 4) s
def execSetPref (who : Who) (slot : BitVec 1) (s : State) : Res := spCommand who 0x144 (bootCtlWord s (2 + slot.toNat)) s
def execRbReq (who : Who) (svn : BitVec 7) (s : State) : Res := spCommand who 0x144 (mkWord [(16, svn.toNat)]) s

/-- Recovery, quotes and time (R461, R465, R469). -/
def execRecoveryLoad (who : Who) (s : State) : Res := spCommand who 0x15C 1 s
def execQuote (who : Who) (s : State) : Res := spCommand who 0x3A0 1 s
def execTimeNonce (who : Who) (s : State) : Res := spCommand who 0x5A0 1 s
def execTimeSet (who : Who) (s : State) : Res := spCommand who 0x5A0 2 s

/-- Acknowledgments (R379, R387). -/
def execAck (who : Who) (s : State) : Res := spCommand who 0x100028 1 s
def execRingAck (who : Who) (n : BitVec 7) (s : State) : Res := spCommand who 0x100048 (n.setWidth 32) s

/-- Image commands (R51). -/
def execStage (who : Who) (s : State) : Res := spCommand who 0x20F000 1 s
def execCommit (who : Who) (s : State) : Res := spCommand who 0x20F000 2 s
def execDiscard (who : Who) (s : State) : Res := spCommand who 0x20F000 3 s

/-- OPEN (R72, R73). -/
def execRingOpen (who : Who) (s : State) : Res := spCommand who 0x300110 1 s

/-- Key-store commands (R242). -/
def execKsInit (who : Who) (s : State) : Res := spCommand who 0x701000 1 s
def execBackup (who : Who) (s : State) : Res := spCommand who 0x701000 2 s
def execRestore (who : Who) (s : State) : Res := spCommand who 0x701000 3 s
def execConfirm (who : Who) (s : State) : Res := spCommand who 0x701000 4 s

/-- Ceremony commands (R428). -/
def execCeremonyOpen (who : Who) (s : State) : Res := spCommand who 0x901000 1 s
def execCeremonyStep (who : Who) (s : State) : Res := spCommand who 0x901000 2 s
def execCeremonyAbort (who : Who) (s : State) : Res := spCommand who 0x901000 3 s
def execCeremonyClose (who : Who) (s : State) : Res := spCommand who 0x901000 4 s

/-- Flash commands (R351). -/
def flashCommand (who : Who) (v : Nat) (arr : LineRead) (out : FlashOutcome) (s : State) : Res :=
  .next (if answers s then spWriteWith who 0x800100 (BitVec.ofNat 32 v) arr out s else s)
def execFlashRead (who : Who) (array : LineRead) (s : State) : Res := flashCommand who 1 array cleanOut s
def execProg (who : Who) (count : BitVec 4) (s : State) : Res := flashCommand who (16 * count.toNat + 2) cleanLine cleanOut s
def execErase (who : Who) (s : State) : Res := flashCommand who 3 cleanLine cleanOut s
def execFlashSuspend (who : Who) (s : State) : Res := flashCommand who 4 cleanLine cleanOut s
def execFlashResume (who : Who) (s : State) : Res := flashCommand who 5 cleanLine cleanOut s
def execRetire (who : Who) (out : FlashOutcome) (s : State) : Res := flashCommand who 6 cleanLine out s

/-- Sequencer commands (R180, R184, R185). A RUN command writes SERVICE first. -/
def execGalliardLoad (who : Who) (n : Fin 4) (s : State) : Res := spCommand who (galCtl n.val) 1 s
def execGalliardAbort (who : Who) (n : Fin 4) (s : State) : Res := spCommand who (galCtl n.val) 3 s
def galRunCommand (who : Who) (n service : Nat) (s : State) : Res :=
  .next (if answers s then
    spWrite who (galCtl n) 2 (mgmtWrite32 who (galCtl n + 0x1C) (BitVec.ofNat 32 service) cleanLine cleanOut s).2 else s)
def execGalEcdsaVerifyRom (who : Who) (n : Fin 4) (s : State) : Res := galRunCommand who n.val 0 s
def execGalRsaPrivate (who : Who) (n : Fin 4) (s : State) : Res := galRunCommand who n.val 1 s
def execGalRsaPublic (who : Who) (n : Fin 4) (s : State) : Res := galRunCommand who n.val 2 s
def execGalEcdsaVerify (who : Who) (n : Fin 4) (s : State) : Res := galRunCommand who n.val 3 s
def execGalEcdsaSign (who : Who) (n : Fin 4) (s : State) : Res := galRunCommand who n.val 4 s
def execGalEcdsaSignRom (who : Who) (n : Fin 4) (s : State) : Res := galRunCommand who n.val 0xFF00 s

/-! ### The management SPI (R477) -/

/-- The words of a READ frame with their status bytes. -/
def spiReadWords (off : Nat) : Nat → State → List (Word × Byte) × State
  | 0, s => ([], s)
  | n + 1, s =>
    let r := mgmtRead32 .spi (off % 2 ^ 24) s
    let t := spiReadWords (off + 4) n r.2
    ((r.1.getD 0, if r.1.isNone then 1 else 0) :: t.1, t.2)

/-- SPI_READ: a misaligned address returns zeros with ALIGN. -/
def spiRead (addr words : Nat) (s : State) : State :=
  if answers s = false then s
  else if addr % 4 ≠ 0 then emit (.spiData (List.replicate words (0, 4))) s
  else
    let r := spiReadWords addr words s
    emit (.spiData r.1) r.2

def execSpiRead (addr : BitVec 24) (words : Nat) (s : State) : Res := .next (spiRead addr.toNat words s)

/-- The words of a WRITE frame; whether a gate refused one. A physical-function doorbell window discards them (R71). -/
def spiWriteWords (off : Nat) : List Word → Bool × State → Bool × State
  | [], r => r
  | v :: vs, (e, s) =>
    let o := off % 2 ^ 24
    let r := if (pfWindow o).isSome then (true, s) else mgmtWrite32 .spi o v cleanLine cleanOut s
    spiWriteWords (off + 4) vs (e || !r.1, r.2)

/-- SPI_WRITE. -/
def spiWrite (addr : Nat) (words : List Word) (s : State) : State :=
  if answers s = false then s
  else
    let r := if addr % 4 ≠ 0 then (false, s) else spiWriteWords addr words (false, s)
    let st : Byte := if addr % 4 ≠ 0 then 4 else if r.1 then 1 else 0
    { r.2 with sys := { r.2.sys with spiStatus := st } }

def execSpiWrite (addr : BitVec 24) (words : List Word) (s : State) : Res := .next (spiWrite addr.toNat words s)

/-- SPI_STATUS. -/
def execSpiStatus (s : State) : Res := .next (if answers s then emit (.spiStatus s.sys.spiStatus) s else s)

end Sys2Proof.Machine
end

