-- ==== Sys2Proof/Machine/CoreMem.lean ====
section
/-! DEFINITION. What a core's loads, stores and fetches reach (08_camol_isa.md, R257 to R260, R283; R188 to R190): the
bytes behind an admitted access, and the symmetric port. -/

namespace Sys2Proof.Machine

/-! ### The symmetric port (R189, R190) -/

/-- Byte `i` of a port as a read returns it: 0x80 to 0x83 hold PSTAT. -/
def portByte (p : SymPort) (i : Nat) : Byte :=
  if i < 0x80 then SMap.get 0 p.mem i
  else if 0x80 ≤ i ∧ i < 0x84 then BitVec.ofNat 8 ((p.status * 0x10000 + b2n p.req.isSome) / 256 ^ (i - 0x80)) else 0

/-- Does a read of `len` bytes at `off` take in PSTAT while the port is busy, so that it stalls? -/
def portStalls (p : SymPort) (off len : Nat) : Bool := p.req.isSome && overlaps off len 0x80 4

/-- A write to a port: discarded while it is busy; one that takes in GO starts a request. -/
def portWrite (n off : Nat) (bs : List Byte) (s : State) : State :=
  let p := portOf s n
  if p.req.isSome ∨ 0x80 ≤ off then s
  else
    let s := setPort n { p with mem := Memory.write 0 p.mem off (bs.take (0x80 - off)) } s
    if overlaps off bs.length 0x20 4 then portGo n s else s

/-! ### Local data and truss SRAM -/

/-- Local data of truss `t`, by offset over all its cores (R257). -/
def localByte (s : State) (t i : Nat) : Byte := SMap.get 0 (s.core (4 * t + i / 0x4000)).loc (i % 0x4000)

/-- Write local data of truss `t`. -/
def writeLocal (t off : Nat) (bs : List Byte) (s : State) : State :=
  bs.zipIdx.foldl (fun u b =>
    let i := off + b.2
    u.updCore (4 * t + i / 0x4000) fun c => { c with loc := SMap.set 0 c.loc (i % 0x4000) b.1 }) s

/-! ### Behind the gates -/

/-- Flash bytes that an extent covers, read line by line: none for BUS_ERROR (R349). -/
def flashExtent (a n : Nat) : Nat → State → Option (List Byte) × State
  | 0, s => (some [], s)
  | k + 1, s =>
    if n = 0 then (some [], s)
    else
      let m := min n (64 - a % 64)
      match flashLoad a m s with
      | (some b, s) => match flashExtent (a + m) (n - m) k s with
        | (some c, s) => (some (b ++ c), s)
        | (none, s) => (none, s)
      | (none, s) => (none, s)

/-- A management block's bytes as the warden reads them: one word, or two (R11). -/
def readMgmt (off len : Nat) (s : State) : List Byte × State :=
  if len = 4 ∧ off % 4 = 0 then (leBytes 4 (readReg s off).toNat, readLatch off s)
  else if len = 8 ∧ off % 8 = 0 then
    let a := leBytes 4 (readReg s off).toNat
    let s := readLatch off s
    (a ++ leBytes 4 (readReg s (off + 4)).toNat, readLatch (off + 4) s)
  else (List.replicate len 0, s)

/-- The bytes of an admitted read of core `n`: none where sealed memory or flash fails (R224, R349). -/
def targetRead (n tgt off len : Nat) (s : State) : Option (List Byte) × State :=
  if tgt < 0x20 then (some (Memory.read 0 (s.truss tgt).sram off len), s)
  else if tgt < 0x40 then (some ((List.range len).map fun i => localByte s (tgt - 0x20) (off + i)), s)
  else if tgt = tgtSealed then msuRead off len true true s
  else if tgt = tgtSealed0 then msuRead (gable0Base + off) len true true s
  else if tgt = tgtFlash then flashExtent (svcAreaBase s.img.latched.partition * 4096 + off) len (len + 1) s
  else if tgt = tgtFlash0 then flashExtent off len (len + 1) s
  else if tgt = tgtWarden then (some (Memory.read 0 (s.core wardenNum).loc off len), s)
  else if tgt = tgtPort then (some ((List.range len).map fun i => portByte (portOf s n) (off + i)), s)
  else
    let r := readMgmt ((tgt - 0x50) * 0x100000 + off) len s
    (some r.1, r.2)

/-- The warden's write to a management block (R11, R12). -/
def writeMgmt (off : Nat) (bs : List Byte) (s : State) : State :=
  let put := fun (o : Nat) (u : State) => writeReg .warden o (BitVec.ofNat 32 (leAt bs (o - off) 4)) cleanLine cleanOut u
  if bs.length = 4 ∧ off % 4 = 0 then put off s
  else if bs.length = 8 ∧ off % 8 = 0 then put (off + 4) (put off s)
  else s

/-- An admitted write of core `n`. A partial line of sealed memory that fails stays unwritten (R224). -/
def targetWrite (n tgt off : Nat) (bs : List Byte) (s : State) : State :=
  if tgt < 0x20 then s.updTruss tgt fun t => { t with sram := Memory.write 0 t.sram off bs }
  else if tgt < 0x40 then writeLocal (tgt - 0x20) off bs s
  else if tgt = tgtSealed then (msuWrite off bs true true s).2
  else if tgt = tgtSealed0 then (msuWrite (gable0Base + off) bs true true s).2
  else if tgt = tgtWarden then s.updCore wardenNum fun c => { c with loc := Memory.write 0 c.loc off bs }
  else if tgt = tgtPort then portWrite n off bs s
  else if 0x50 ≤ tgt ∧ tgt ≤ 0x5B then writeMgmt ((tgt - 0x50) * 0x100000 + off) bs s
  else s

/-! ### Core accesses (R259, R260) -/

/-- How a load goes. -/
inductive MemRes where
  | ok (bytes : List Byte)
  | refused
  | failed
  | stall
deriving DecidableEq, Repr

/-- An access of sealed memory waits until initialisation has ended (R225). -/
def sealedWaits (s : State) (tgt : Nat) : Bool := (tgt == tgtSealed || tgt == tgtSealed0) && !s.msu.inited

/-- Load `len` bytes at address `a` with privilege level `pl`. -/
def coreLoadAs (n pl a len : Nat) (s : State) : MemRes × State :=
  match coreGate n pl a len kRead s with
  | (none, s) => (.refused, s)
  | (some (tgt, off), s) =>
    if tgt = tgtPort ∧ portStalls (portOf s n) off len = true then (.stall, s)
    else if (tgt = tgtFlash ∨ tgt = tgtFlash0) ∧ readWaits s = true then (.stall, s)
    else if sealedWaits s tgt then (.stall, s)
    else match targetRead n tgt off len s with
      | (some b, s) => (.ok b, s)
      | (none, s) => (.failed, s)

/-- Load at the core's own level. -/
def coreLoad (n a len : Nat) (s : State) : MemRes × State := coreLoadAs n (s.core n).pl a len s

/-- Store at the core's own level. -/
def coreStore (n a : Nat) (bs : List Byte) (s : State) : MemRes × State :=
  match coreGate n (s.core n).pl a bs.length kWrite s with
  | (none, s) => (.refused, s)
  | (some (tgt, off), s) => if sealedWaits s tgt then (.stall, s) else (.ok [], targetWrite n tgt off bs s)

/-! ### Instruction fetch (R261, R283, R365) -/

/-- Lines of an instruction cache (R283). -/
abbrev icacheLines : Nat := 512

/-- A line comes into the core's instruction cache. Which line makes room is a free choice: the spec gives no organisation of
the cache, so one line may go before all 512 are held (R283; DESIGN CHOICE, log 803). -/
def holdLine (n line : Nat) (s : State) : State :=
  let held := (s.core n).icache.length
  let d := if held = 0 then (0, s) else drawBelow (min (held + 1) icacheLines) 2 s
  d.2.updCore n fun c => { c with icache := SMap.set false (if held = 0 then c.icache else c.icache.eraseIdx d.1) line true }

/-- Fetch from the line of address `a`: its gate decides each fetch and each fill with the core's tag (R283, R331, R334), and a
line that is not in the core's instruction cache is filled. The result says that the gate refuses it, that the warden's flash
line does not read, or that the fill waits (R225, R357). `arr` is what the flash array returns for the line. -/
def fillLine (n a : Nat) (arr : LineRead) (s : State) : MemRes × State :=
  let line := a / 64
  match coreGate n (s.core n).pl (64 * line) 64 kExec s with
  | (none, s) => (.refused, s)
  | (some (tgt, off), s) =>
      if SMap.get false (s.core n).icache line then (.ok [], s)
      else if sealedWaits s tgt then (.stall, s)
      else if (tgt = tgtFlash ∨ (tgt = tgtFlash0 ∧ xipHit s (off / 64) = false)) ∧ readWaits s = true then (.stall, s)
      else
      let r := if tgt = tgtFlash0 then fillFromFlash (off / 64) arr s
        else
          let q := targetRead n tgt off 64 s
          (q.1.isSome, q.2)
      if r.1 then (.ok [], holdLine n line r.2)
      else (.failed, r.2)

/-- Fetch the instruction at PC, with its extension word where it has one. -/
def fetchAt (n : Nat) (ext : Bool) (s : State) : MemRes × State :=
  let pc := (s.core n).pc.toNat
  match fillLine n pc cleanLine s with
  | (.ok b, s) => if ext then fillLine n ((pc + 4) % 2 ^ 32) cleanLine s else (.ok b, s)
  | r => r

end Sys2Proof.Machine
end

