-- ==== Sys2Proof/Machine/Flags.lean ====
section
/-! DEFINITION. The arithmetic that Camol instructions share (08_camol_isa.md): flags (R252, R264), rounding and fitting
(R266, R267), divisions (R269) and condition codes (R265). -/

namespace Sys2Proof.Machine

/-! ### Status (R252) -/

/-- ST with new flags N, Z, C, V. -/
def setNZCV (st : Word) (n z c v : Bool) : Word := setFld st 0 4 (8 * b2n n + 4 * b2n z + 2 * b2n c + b2n v)

/-- ST with new N and Z; C and V stay. -/
def setNZ (st : Word) (r : Word) : Word := setFld st 2 2 (2 * b2n r.msb + b2n (r == 0))

/-- ST with a new Z. -/
def setZ (st : Word) (z : Bool) : Word := setFld st 2 1 (b2n z)

/-- Flags of ST. -/
def flagN (st : Word) : Bool := bitOf st.toNat 3
def flagZ (st : Word) : Bool := bitOf st.toNat 2
def flagC (st : Word) : Bool := bitOf st.toNat 1
def flagV (st : Word) : Bool := bitOf st.toNat 0

/-- Is an integer outside 32-bit two's complement? -/
def outside32 (x : Int) : Bool := decide (x < -2147483648) || decide (2147483647 < x)

/-- A sum with a carry in: the word, and ST with its flags (R264). -/
def addFlags (st a b : Word) (cin : Bool) : Word × Word :=
  let r := a + b + BitVec.ofNat 32 (b2n cin)
  (r, setNZCV st r.msb (r == 0) (decide (2 ^ 32 ≤ a.toNat + b.toNat + b2n cin)) (outside32 (a.toInt + b.toInt + (b2n cin : Int))))

/-- A difference with a borrow in: the word, and ST with its flags; C is 1 when no borrow occurs (R264). -/
def subFlags (st a b : Word) (bin : Bool) : Word × Word :=
  let r := a - b - BitVec.ofNat 32 (b2n bin)
  (r, setNZCV st r.msb (r == 0) (decide (b.toNat + b2n bin ≤ a.toNat)) (outside32 (a.toInt - b.toInt - (b2n bin : Int))))

/-- Does a condition code hold (R265)? Code 15 is illegal. -/
def condHolds (st : Word) (cond : Nat) : Bool :=
  let n := flagN st
  let z := flagZ st
  let c := flagC st
  let v := flagV st
  match cond with
  | 0 => z | 1 => !z | 2 => c | 3 => !c | 4 => n | 5 => !n | 6 => v | 7 => !v
  | 8 => c && !z | 9 => !c || z | 10 => n == v | 11 => n != v | 12 => !z && n == v | 13 => z || n != v
  | 14 => true
  | _ => false

/-! ### Fixed point (R253, R266, R267) -/

/-- FXCTL's fields. -/
def fxRM (fx : Word) : Nat := fld fx 0 2
def fxSat (fx : Word) : Bool := bitOf fx.toNat 2
def fxOvt (fx : Word) : Bool := bitOf fx.toNat 4

/-- rnd(x, d) for d > 0: 0 RNE, 1 RHA, 2 RTZ, 3 FLR (R266). -/
def rnd (rm : Nat) (x d : Int) : Int :=
  let q := x.fdiv d
  let r := x - q * d
  if rm = 0 ∧ (d < 2 * r ∨ (2 * r = d ∧ q % 2 ≠ 0)) then q + 1
  else if rm = 1 ∧ (d < 2 * r ∨ (2 * r = d ∧ 0 ≤ x)) then q + 1
  else if rm = 2 ∧ 0 < r ∧ x < 0 then q + 1
  else q

/-- fit(v, w): the value, whether SATF is set, and whether FX_OVERFLOW is raised (R267). -/
def fit (fx : Word) (v : Int) (w : Nat) : Int × Bool × Bool :=
  let lo : Int := -(2 ^ (w - 1) : Nat)
  let hi : Int := (2 ^ (w - 1) : Nat)
  if lo ≤ v ∧ v < hi then (v, false, false)
  else if fxSat fx then (if v < lo then lo else hi - 1, true, false)
  else ((BitVec.ofInt w v).toInt, false, fxOvt fx)

/-- The quotient of DIVR and DIVRU for a divisor other than zero: 64 bits, SATF, FX_OVERFLOW (R269). -/
def divide (fx : Word) (isSigned : Bool) (dividend : Dword) (divisor : Word) : Dword × Bool × Bool :=
  if isSigned then
    let x := if divisor.msb then -dividend.toInt else dividend.toInt
    let d : Int := divisor.toInt.natAbs
    let f := fit fx (rnd (fxRM fx) x d) 64
    (BitVec.ofInt 64 f.1, f.2)
  else (BitVec.ofInt 64 (rnd (fxRM fx) dividend.toNat divisor.toNat), false, false)

/-! ### Words -/

/-- A 64-bit value from its halves, low first. -/
def joinWords (lo hi : Word) : Dword := BitVec.ofNat 64 (lo.toNat + hi.toNat * 2 ^ 32)

/-- The halves of a 64-bit value. -/
def lowWord (d : Dword) : Word := BitVec.ofNat 32 d.toNat
def highWord (d : Dword) : Word := BitVec.ofNat 32 (d.toNat / 2 ^ 32)

/-- Count of leading zeros, 0 to 32. -/
def clz32 (w : Word) : Nat := ((List.range 32).takeWhile fun i => !w.getLsbD (31 - i)).length

end Sys2Proof.Machine
end

