-- ==== Sys2Proof/Machine/Exceptions.lean ====
section
/-! DEFINITION. Exceptions (09_privilege_exceptions.md): vector entries, the shadow stack, entry, return, privilege
forgery and interrupts. -/

namespace Sys2Proof.Machine

/-! ### Causes (R287) -/

abbrev exIllegal : Nat := 0
abbrev exPrivileged : Nat := 1
abbrev exAlign : Nat := 2
abbrev exGate : Nat := 3
abbrev exBus : Nat := 4
abbrev exStack : Nat := 5
abbrev exCallgate : Nat := 6
abbrev exDivZero : Nat := 7
abbrev exFx : Nat := 8
abbrev exSstack : Nat := 9
abbrev exForge : Nat := 10
abbrev exSystem : Nat := 16
abbrev exWma : Nat := 17
abbrev exTick : Nat := 18

/-- Frames that the shadow stack holds (R290). -/
abbrev frameMax : Nat := 32

/-! ### Vector entries (R288, R289) -/

/-- What an entry of the vector table, or of the call-gate table, gives a transfer. -/
structure EntryPoint where
  handler : Word
  tpl     : Nat
  sp      : Word
  limit   : Word
deriving DecidableEq, Repr

/-- Read a 16-byte entry with a Monitor-level tag: none where the read is not admitted or does not return. -/
def readEntry (n : Nat) (a : Nat) (s : State) : Option (List Byte) × State :=
  match coreGate n 0 (a % 2 ^ 32) 16 kRead s with
  | (none, s) => (none, s)
  | (some (tgt, off), s) => targetRead n tgt off 16 s

/-- Does the read of an entry at address `a` wait for sealed memory or for the flash array (R225, R357)? -/
def entryWaits (n a : Nat) (s : State) : Bool :=
  match coreAdmits s n 0 (a % 2 ^ 32) 16 kRead with
  | (.pass, tgt, _) => sealedWaits s tgt || ((tgt == tgtFlash || tgt == tgtFlash0) && readWaits s)
  | _ => false

/-- The transfer that a vector entry describes, taken from level `pl`: none where it is not usable (R289). -/
def usableEntry (cause pl : Nat) (b : List Byte) : Option EntryPoint :=
  let h := leAt b 0 4
  let ctl := leAt b 4 4
  let tpl := ctl % 4
  let top := if cause = exSstack ∨ cause = exForge then 0 else pl
  if bitOf ctl 31 = true ∧ ctl / 4 % 2 ^ 29 = 0 ∧ h % 4 = 0 ∧ tpl ≤ top then
    some ⟨BitVec.ofNat 32 h, tpl, BitVec.ofNat 32 (leAt b 8 4), BitVec.ofNat 32 (leAt b 12 4)⟩
  else none

/-- The vector entry for a cause at the core's present level; SSTACK and PRIV_FORGE use the entry for s = 0 (R288). -/
def vectorEntry (n cause : Nat) (s : State) : Option EntryPoint × State :=
  let c := s.core n
  let lvl := if cause = exSstack ∨ cause = exForge then 0 else c.pl
  match readEntry n (c.vbase.toNat + (4 * cause + lvl) * 16) s with
  | (some b, s) => (usableEntry cause c.pl b, s)
  | (none, s) => (none, s)

/-! ### Entry (R290, R292) -/

/-- A core after a transfer through `e`: the frame is pushed, XPC and XST are written, the level changes, and with it
g15 and SLIM. `keep` leaves GIE as it is (R300). -/
def enterCore (e : EntryPoint) (xpc : Word) (keep : Bool) (c : Core) : Core :=
  let switched := decide (e.tpl ≠ c.pl)
  let st := setFld c.st 8 2 e.tpl
  let d := { c with
    frames := ⟨c.pl, if switched then some (c.reg 15, c.slim) else none⟩ :: c.frames
    xpc := xpc &&& ~~~(3 : Word)
    xst := c.st
    st := if keep then st else setFld st 10 1 0
    pc := e.handler
    phase := .running }
  if switched then { d.setReg 15 e.sp with slim := e.limit } else d

/-- Transfer core `n` through an entry. -/
def enter (n : Nat) (e : EntryPoint) (xpc : Word) (keep : Bool) (s : State) : State :=
  s.updCore n (enterCore e xpc keep)

/-- Must the read of the vector entry for a cause wait for sealed memory or for the flash array (R225, R357)? -/
def vectorWaits (n cause : Nat) (s : State) : Bool :=
  let c := s.core n
  let lvl := if cause = exSstack ∨ cause = exForge then 0 else c.pl
  entryWaits n (c.vbase.toNat + (4 * cause + lvl) * 16) s

/-- The core stands still until the read of its vector entry can be made. -/
def park (n cause : Nat) (xpc : Word) (s : State) : State := s.updCore n fun c => { c with
    parked := some (cause, xpc)
    phase := .running }

/-! ### The comparison of a core pair (R282, R306) -/

/-- In Pavane both cores of a pair do what core `n` does next, and the module compares: true where they differ, which is a
free outcome (R282). -/
def pairDiffers (n : Nat) (s : State) : Bool × State :=
  if n ≠ wardenNum ∧ isPavane s (ownerOf s (trussOf n)) = true then
    let d := drawBelow 2 1 s
    (d.1 == 1, d.2)
  else (false, s)

/-- A mismatch: LOCKSTEP of a core pair, and no effect (R282, R306, R389). -/
def pairMismatch (n : Nat) (s : State) : State :=
  raise srcLockstep [1, BitVec.ofNat 8 (trussOf n), BitVec.ofNat 8 (coreInTruss n)] s

/-! ### Privilege forgery (R295, R297) -/

/-- The other cores of a truss stop at their next boundary; what they stalled on is abandoned (R295 step 2). -/
def stopOthers (n : Nat) (s : State) : State :=
  ((coresOfTruss (trussOf n)).filter (· ≠ n)).foldl
    (fun u m => dropWaiter m (u.updCore m fun c => { c with phase := .stopped })) s

/-- The forging core enters the PRIV_FORGE handler, pushing a frame while there is room; without a usable entry it stops
(R289, R295 step 3). -/
def enterForge (n : Nat) (xpc : Word) (s : State) : State :=
  if vectorWaits n exForge s then park n exForge xpc (s.updCore n fun c => { c with forging := true })
  else match vectorEntry n exForge s with
  | (some e, s) =>
    let full := decide (frameMax ≤ (s.core n).frames.length)
    let old := (s.core n).frames
    (enter n e xpc false s).updCore n fun c => { c with
      frames := if full then old else c.frames
      forging := true }
  | (none, s) => s.updCore n fun c => { c with phase := .stopped }

/-- A privilege forgery of core `n`: kind 1 a failed RETX, 2 a vector fault, 3 an entry with a full shadow stack. -/
def privForge (n kind : Nat) (xpc : Word) (s : State) : State :=
  let t := if n = wardenNum then 0x3F else trussOf n
  let s := dropWaiter n (raise srcPrivForge [BitVec.ofNat 8 kind, BitVec.ofNat 8 t, BitVec.ofNat 8 (coreInTruss n)] s)
  if n = wardenNum then enterForge n xpc s
  else forgeClears (trussOf n) (enterForge n xpc (stopOthers n s))

/-- The forging core's handler ends (R295 step 6): its truss is quarantined, or the warden stops (R297). -/
def endForge (n : Nat) (s : State) : State :=
  if n = wardenNum then s.updCore n fun c => { c with
      phase := .stopped
      forging := false }
  else quarantineTruss (trussOf n) s

/-! ### Taking an exception (R291 to R293) -/

/-- What an entry came to: the cause's own vector was entered, another one or a forgery took its place, its read of the
vector table waits, or the pair differed and it had no effect. -/
inductive EntryEnd where
  | own
  | other
  | waits
  | differs
deriving DecidableEq, Repr

/-- Take an exception or interrupt with the given cause and XPC: a 31st frame already held makes it SSTACK, a full stack or a
vector fault a forgery. -/
def takeEntry (n cause : Nat) (xpc : Word) (s : State) : EntryEnd × State :=
  let m := pairDiffers n s
  let s := m.2
  let d := (s.core n).frames.length
  if m.1 then (.differs, pairMismatch n s)
  else if frameMax ≤ d then (.other, privForge n 3 xpc s)
  else
    let c := if d + 1 = frameMax then exSstack else cause
    if vectorWaits n c s then (.waits, park n cause xpc s)
    else match vectorEntry n c s with
    | (some e, s) => (if c = cause then .own else .other, enter n e xpc false s)
    | (none, s) => (.other, privForge n 2 xpc s)

/-- Take an exception. -/
def takeException (n cause : Nat) (xpc : Word) (s : State) : State := (takeEntry n cause xpc s).2

/-- A precise fault of the instruction at PC (R293). -/
def faultHere (n cause : Nat) (s : State) : State := takeException n cause (s.core n).pc s

/-! ### Interrupts (R303 to R305) -/

/-- The interrupt inputs of a core that are pending, in the order in which they are served. -/
def pendingInterrupts (s : State) (n : Nat) : List Nat :=
  (if n = wardenNum ∧ systemPending s = true then [exSystem] else [])
    ++ (if (s.core n).intWma then [exWma] else []) ++ (if (s.core n).intTick then [exTick] else [])

/-- An interrupt is due at the next boundary: an input is pending and GIE is 1. -/
def interruptDue (s : State) (n : Nat) : Bool := (s.core n).gie && !(pendingInterrupts s n).isEmpty

/-- Clear an interrupt latch; SYSTEM is a level. -/
def clearLatch (n cause : Nat) (s : State) : State :=
  s.updCore n fun c => { c with
    intWma := c.intWma && decide (cause ≠ exWma)
    intTick := c.intTick && decide (cause ≠ exTick) }

/-- Does the core's logical core exist and have its clock: a truss core of a gable, outside quarantine, with truss
clocks, or the powered warden? -/
def coreClocked (s : State) (n : Nat) : Bool :=
  if n = wardenNum then powered s
  else trussClocks s && !quarantined s (trussOf n) && decide (ownerOf s (trussOf n) ≠ 0)
    && decide (coreInTruss n < coresPer s (ownerOf s (trussOf n)))

/-- Take the first pending interrupt. A stalled COPI is abandoned, and XPC holds its address (R279, R293). -/
def takeInterrupt (n : Nat) (s : State) : State :=
  match pendingInterrupts s n with
  | i :: _ =>
    let r := takeEntry n i (s.core n).pc (dropWaiter n s)
    if r.1 = .own then clearLatch n i r.2 else r.2
  | [] => s

/-- May the core take an interrupt now? A pending imprecise exception goes first (R302, R305). -/
def mayInterrupt (s : State) (n : Nat) : Bool :=
  coreClocked s n && decide ((s.core n).phase ≠ .stopped) && (s.core n).parked.isNone && (s.core n).imprec.isNone && interruptDue s n

/-- A parked entry goes on once its read can be made: the first thing that its core then does (R225, R357). -/
def unpark (n : Nat) (s : State) : State :=
  match (s.core n).parked with
  | some (cause, xpc) =>
    if coreClocked s n = true ∧ (s.core n).phase ≠ .stopped ∧ vectorWaits n cause s = false then
      let s := s.updCore n fun c => { c with parked := none }
      if cause = exForge then enterForge n xpc s
      else
        let r := takeEntry n cause xpc s
        if r.1 = .own then clearLatch n cause r.2 else r.2
    else s
  | none => s

/-- INTERRUPT_TAKEN (R292, R303 to R305). -/
def execInterruptTaken (c : CoreId) (s : State) : Res :=
  .next (if mayInterrupt s (coreNum c) then takeInterrupt (coreNum c) s else unpark (coreNum c) s)

/-- TICK (R303): bits 15:0 of the core's clock count become zero, and TICK latches. -/
def tick (n : Nat) (s : State) : State :=
  if coreClocked s n && decide ((s.core n).phase ≠ .stopped) then
    s.updCore n fun c => { c with
      clock := BitVec.ofNat 64 ((c.clock.toNat / 65536 + 1) * 65536)
      intTick := true }
  else s

def execTick (c : CoreId) (s : State) : Res := .next (tick (coreNum c) s)

/-- The latency of the first instruction still under way ends: its exception is detected, or merged into one that is pending
(R302). -/
def detectLate (c : Core) : Core :=
  match c.late with
  | _ :: ls => { c with
      imprec := some (c.imprec.getD exFx)
      late := ls }
  | [] => c

/-- Is the core at an instruction boundary: it runs, a WAIT ends, or an interrupt ends a stall (R265, R279)? -/
def atBoundary (s : State) (n : Nat) : Bool :=
  match (s.core n).phase with
  | .running => true
  | .stopped => false
  | .waiting => !(pendingInterrupts s n).isEmpty
  | .stalledTake _ _ => interruptDue s n
  | .stalledCopi _ _ => interruptDue s n

/-- A pending imprecise arithmetic exception is taken at a boundary (R302): XPC names the next instruction not yet issued. -/
def takeImprecise (n : Nat) (s : State) : State :=
  match (s.core n).imprec with
  | some cause =>
    if atBoundary s n then
      let r := takeEntry n cause (s.core n).pc (dropWaiter n s)
      if r.1 = .differs then r.2 else r.2.updCore n fun c => { c with imprec := none }
    else s
  | none => s

/-- IMPRECISE_EXCEPTION: a pending one is taken; without one pending, the first latency still running ends, and its exception
is taken at the boundary that follows. -/
def execImpreciseException (c : CoreId) (s : State) : Res :=
  let n := coreNum c
  .next (if coreClocked s n && decide ((s.core n).phase ≠ .stopped) && (s.core n).parked.isNone then
      takeImprecise n (if (s.core n).imprec.isSome then s else s.updCore n detectLate)
    else unpark n s)

/-- Is a forgery of the core in progress: its handler runs, or (on a truss) its steps 4 and 5 are done? -/
def forgeOpen (s : State) (n : Nat) : Bool :=
  if n = wardenNum then (s.core n).forging
  else bitOf s.sys.forge.toNat (trussOf n) && !quarantined s (trussOf n)

/-- QUARANTINE (R295 step 6): 65,536 core clocks of handler time have passed. -/
def execQuarantine (c : CoreId) (s : State) : Res :=
  .next (if forgeOpen s (coreNum c) then endForge (coreNum c) s else s)

/-! ### Return (R294) -/

/-- Does a RETX fail: a return that would raise privilege, or a level other than the frame's witness? -/
def retxForges (c : Core) : Bool :=
  decide (fld c.xst 8 2 < c.pl) || (match c.frames with | f :: _ => decide (fld c.xst 8 2 ≠ f.witness) | [] => false)

/-- ST after a RETX: XST with PRECISE and the reserved bits as they were. The warden stays at Monitor level (R297). -/
def retxStatus (isWarden : Bool) (st xst : Word) : Word :=
  let m : Word := if isWarden then 0x40F else 0x70F
  (st &&& ~~~m) ||| (xst &&& m)

/-- A core after a RETX that does not fail. -/
def retxCore (isWarden : Bool) (c : Core) : Core :=
  let d := match c.frames with
    | f :: fs => match f.saved with
      | some (g, l) => { c.setReg 15 g with
          slim := l
          frames := fs }
      | none => { c with frames := fs }
    | [] => c
  { d with
    st := retxStatus isWarden c.st c.xst
    pc := c.xpc }

/-- RETX on core `n`. -/
def retx (n : Nat) (s : State) : State :=
  if retxForges (s.core n) then privForge n 1 (s.core n).pc s
  else s.updCore n (retxCore (decide (n = wardenNum)))

end Sys2Proof.Machine
end

