-- ==== Sys2Proof/Machine/Operands.lean ====
section
/-! DEFINITION. How a Camol instruction issues (R261, R279, R305), its operand forms (R262, R263), its bit operands
(R272 to R274), and its special registers (R254, R286). -/

namespace Sys2Proof.Machine

/-! ### Issue -/

/-- May core `n` issue an instruction: it runs (a WAIT has ended), its clock runs, and no entry, imprecise exception or
interrupt comes first (R265, R302, R304, R305)? -/
def canIssue (s : State) (n : Nat) : Bool :=
  coreClocked s n && !interruptDue s n && (s.core n).parked.isNone && (s.core n).imprec.isNone
    && (match (s.core n).phase with
        | .running => true
        | .waiting => !(pendingInterrupts s n).isEmpty
        | _ => false)

/-- The core runs on. -/
def wake (n : Nat) (s : State) : State :=
  s.updCore n fun c => { c with phase := if c.phase = .waiting then .running else c.phase }

/-- An instruction issues: the instructions under way come nearer to the end of their latency, and what then ends is detected
(R280, R302). -/
def ageLate (c : Core) : Core :=
  { c with
    imprec := if c.late.any (fun x => decide (x ≤ 1)) then some (c.imprec.getD exFx) else c.imprec
    late := (c.late.map fun x => x - 1).filter fun x => decide (0 < x) }

/-- The instruction at PC is fetched and its pair compared: it does not go on where the fetch waits or the pair differs, the
latter having no effect but LOCKSTEP (R282). -/
def issueAt (n : Nat) (ext : Bool) (s : State) : MemRes × State :=
  match fetchAt n ext (wake n s) with
  | (.ok b, s) =>
    let m := pairDiffers n s
    if m.1 then (.stall, pairMismatch n m.2) else (.ok b, m.2.updCore n ageLate)
  | r => r

/-- One instruction of core `c`: the fetch, with its extension word where it has one, the check of its fields, and its
effect, in the order of R305. Where the core cannot issue it issues nothing; an entry that waited goes on. -/
def camol (c : CoreId) (ext legal : Bool) (body : Nat → State → State) (s : State) : State :=
  let n := coreNum c
  if canIssue s n then
    match issueAt n ext s with
    | (.refused, s) => faultHere n exGate s
    | (.failed, s) => faultHere n exBus s
    | (.stall, s) => s
    | (.ok _, s) => if legal then body n s else faultHere n exIllegal s
  else unpark n s

/-- A word of a MAJ or FN that no instruction has performs nothing and raises ILLEGAL (R261). No row of the table carries such
a word. -/
def unlistedWord (c : CoreId) (s : State) : State := camol c false false (fun _ s => s) s

/-- Is every WMA access of the core's context complete: none of MLD and MST is queued (R260, R273, R320)? Its loads and stores
are complete when they issue. -/
def accessesDone (s : State) (n : Nat) : Bool :=
  n == wardenNum || (wmaCtx (wmaOf s (trussOf n)) (coreInTruss n)).queue.all fun e => e.op != 0x0C && e.op != 0x0D

/-- Go on with the next instruction, `len` bytes on. -/
def Core.step (c : Core) (len : Nat) : Core := { c with pc := c.pc + BitVec.ofNat 32 len }

/-- Change the core and go on with the next instruction. -/
def finish (n : Nat) (f : Core → Core) (s : State) : State := s.updCore n fun c => (f c).step 4

/-- An arithmetic exception of the instruction just done (R270, R302): precise at once, with the XPC of R293; otherwise
detected when its latency ends, before which `left` further instructions can issue (R280). One pending keeps its cause. -/
def arithmetic (n cause left : Nat) (xpc : Word) (s : State) : State :=
  if (s.core n).precise then takeException n cause xpc s
  else s.updCore n fun c => { c with
    imprec := if left = 0 ∨ c.imprec.isSome = true then some (c.imprec.getD (if c.late.isEmpty then cause else exFx)) else none
    late := if left = 0 then [] else c.late ++ [left] }

/-! ### Loads and stores (R263) -/

/-- Bytes of an access. -/
def sizeM (f : FmtM) : Nat := 2 ^ f.sz.toNat

/-- Are the fields of a load or store legal? LDS accepts bytes and halves. -/
def legalM (f : FmtM) (extend : Bool) : Bool :=
  decide (f.am.toNat ≤ 3) && (f.am != 1 && f.am != 2 || f.low == 0) && (f.am != 3 || fld f.low 0 7 == 0)
    && (f.sz != 3 || f.rd.toNat % 2 == 0) && (!extend || decide (f.sz.toNat ≤ 1))

/-- The address of a load or store. -/
def addrM (c : Core) (f : FmtM) : Word :=
  let b := c.reg f.rb.toNat
  match f.am.toNat with
  | 0 => b + f.low.signExtend 32
  | 2 => b - BitVec.ofNat 32 (sizeM f)
  | 3 => b + (c.reg (fld f.low 9 4)) <<< (fld f.low 7 2)
  | _ => b

/-- The base update, once the access is performed. -/
def baseM (f : FmtM) (c : Core) : Core :=
  let b := c.reg f.rb.toNat
  match f.am.toNat with
  | 1 => c.setReg f.rb.toNat (b + BitVec.ofNat 32 (sizeM f))
  | 2 => c.setReg f.rb.toNat (b - BitVec.ofNat 32 (sizeM f))
  | _ => c

/-- The stack-limit check (R301). -/
def stackFault (c : Core) (f : FmtM) : Bool :=
  f.rb == 15 && f.am == 2 && decide (((c.reg 15).toNat : Int) - ((sizeM f : Nat) : Int) < (c.slim.toNat : Int))

/-- Write the loaded bytes: a pair's low word first. -/
def loadRegs (f : FmtM) (extend : Bool) (bs : List Byte) (c : Core) : Core :=
  let rd := f.rd.toNat
  match f.sz.toNat with
  | 0 => c.setReg rd (if extend then (BitVec.ofNat 8 (leAt bs 0 1)).signExtend 32 else BitVec.ofNat 32 (leAt bs 0 1))
  | 1 => c.setReg rd (if extend then (BitVec.ofNat 16 (leAt bs 0 2)).signExtend 32 else BitVec.ofNat 32 (leAt bs 0 2))
  | 2 => c.setReg rd (BitVec.ofNat 32 (leAt bs 0 4))
  | _ => (c.setReg rd (BitVec.ofNat 32 (leAt bs 0 4))).setReg (rd + 1) (BitVec.ofNat 32 (leAt bs 4 4))

/-- The bytes that a store writes. -/
def storeBytes (c : Core) (f : FmtM) : List Byte :=
  let rd := f.rd.toNat
  if f.sz = 3 then leBytes 4 (c.reg rd).toNat ++ leBytes 4 (c.reg (rd + 1)).toNat
  else leBytes (sizeM f) (c.reg rd).toNat

/-! ### Bits (R272 to R274) -/

/-- Bits of the private space, or of the truss space. -/
def spaceSize (sp : Bool) : Nat := if sp then 256 else 4096

/-- Does the core have the space? The warden has no truss space. -/
def hasSpace (n : Nat) (sp : Bool) : Bool := !sp || decide (n ≠ wardenNum)

/-- Read bit `i` of a space. -/
def bitAt (s : State) (n : Nat) (sp : Bool) (i : Nat) : Bool :=
  if sp then SMap.get false (s.truss (trussOf n)).bits i else SMap.get false (s.core n).bits i

/-- Write bit `i` of a space. -/
def putBit (n : Nat) (sp : Bool) (i : Nat) (v : Bool) (s : State) : State :=
  if sp then s.updTruss (trussOf n) fun t => { t with bits := SMap.set false t.bits i v }
  else s.updCore n fun c => { c with bits := SMap.set false c.bits i v }

/-- Bits `i` to `i + k - 1` as a number, bit `i` lowest. -/
def bitsAt (s : State) (n : Nat) (sp : Bool) (i : Nat) : Nat → Nat
  | 0 => 0
  | k + 1 => b2n (bitAt s n sp i) + 2 * bitsAt s n sp (i + 1) k

/-- Write the low `k` bits of `v` to bits `i` upward. -/
def putBits (n : Nat) (sp : Bool) (i k v : Nat) (s : State) : State :=
  (List.range k).foldl (fun u j => putBit n sp (i + j) (bitOf v j) u) s

/-- The bit number of format X1: with IND it wraps in its space. -/
def bitNo (c : Core) (f : FmtX1) : Nat :=
  if f.ind = 1 then (f.bn.toNat + (c.reg f.ra.toNat).toNat) % spaceSize (f.sp == 1) else f.bn.toNat

/-- Are the fields of format X1 legal? -/
def legalX1 (c : CoreId) (f : FmtX1) : Bool :=
  f.z == 0 && hasSpace (coreNum c) (f.sp == 1) && (f.ind == 1 || (f.ra == 0 && decide (f.bn.toNat < spaceSize (f.sp == 1))))

/-- Are bits `bn` to `bn + k` of a space that the core has? -/
def legalBits (c : CoreId) (sp : Bool) (bn k : Nat) : Bool := hasSpace (coreNum c) sp && decide (bn + k < spaceSize sp)

/-! ### Special registers (R254, R286) -/

/-- CORE_ID (R255). -/
def coreId (s : State) (n : Nat) : Word :=
  if n = wardenNum then mkWord [(14, 3), (7, 1)]
  else mkWord [(14, modeOf s (gableOfCore s n)), (8, gableOfCore s n), (5, coreInTruss n), (0, trussOf n)]

/-- May special register `k` be read, or written, at level `pl` (R254)? -/
def mayReadSpecial (k pl : Nat) : Bool :=
  if k = 6 then pl == 0 else if 1 ≤ k ∧ k ≤ 7 ∨ k = 12 ∨ k = 13 then decide (pl ≤ 1) else true

def mayWriteSpecial (k pl : Nat) : Bool :=
  if 3 ≤ k ∧ k ≤ 6 then pl == 0 else if k = 1 ∨ k = 2 ∨ k = 7 then decide (pl ≤ 1) else decide (k ≤ 10)

/-- The value of a special register; CYCLE_LO draws the low 16 bits of the clock count (R281 leaves them to timing) and
latches CYCLE_HI. -/
def readSpecial (n k : Nat) (s : State) : Word × State :=
  let c := s.core n
  match k with
  | 0 => (c.st, s)
  | 1 => (c.xpc, s)
  | 2 => (c.xst, s)
  | 3 => (c.vbase, s)
  | 4 => (c.gtbase, s)
  | 5 => (c.gtlim, s)
  | 6 => (BitVec.ofNat 32 c.frames.length, s)
  | 7 => (c.slim, s)
  | 8 => (c.fxctl, s)
  | 9 => (c.idx, s)
  | 10 => (c.cnt, s)
  | 11 => (coreId s n, s)
  | 12 =>
    let r := drawBelow 65536 2 s
    (BitVec.ofNat 32 (c.clock.toNat + r.1), r.2.updCore n fun d => { d with cycHi := highWord c.clock })
  | 13 => (c.cycHi, s)
  | _ => (0, s)

/-- Replace the bits of a register that `m` names. -/
def maskWrite (m old v : Word) : Word := (old &&& ~~~m) ||| (v &&& m)

/-- A core after an MTS to special register `k`; SSP only lowers. -/
def writeSpecial (k : Nat) (v : Word) (c : Core) : Core :=
  match k with
  | 0 => { c with st := maskWrite (if c.pl = 2 then 0xF else 0x40F) c.st v }
  | 1 => { c with xpc := v &&& ~~~(3 : Word) }
  | 2 => { c with xst := maskWrite 0xF0F c.xst v }
  | 3 => { c with vbase := v &&& ~~~(0x7FF : Word) }
  | 4 => { c with gtbase := v &&& ~~~(0xF : Word) }
  | 5 => { c with gtlim := if fld v 0 15 ≤ 16384 then BitVec.ofNat 32 (fld v 0 15) else c.gtlim }
  | 6 => { c with frames := c.frames.drop (c.frames.length - fld v 0 6) }
  | 7 => { c with slim := v }
  | 8 => { c with fxctl := v &&& 0x1F }
  | 9 => { c with idx := v }
  | 10 => { c with cnt := v }
  | _ => c

end Sys2Proof.Machine
end

