-- ==== Sys2Proof/Machine/CamolBits.lean ====
section
/-! DEFINITION. The bit instructions of Camol (R272 to R274). -/

namespace Sys2Proof.Machine

/-- Set Z of core `n`. -/
def flagZero (n : Nat) (z : Bool) (s : State) : State := s.updCore n fun k => { k with st := setZ k.st z }

/-- A truss bit instruction waits until the core's earlier accesses are complete (R273). -/
def bitWait (truss : Bool) (body : Nat → State → State) (n : Nat) (s : State) : State :=
  if truss = true ∧ accessesDone s n = false then s else body n s

/-- An X1 instruction: `zed` sets Z from the bit; `put` gives its new value. -/
def bitX1 (c : CoreId) (f : FmtX1) (zed : Bool) (put : Bool → Bool) (s : State) : State :=
  camol c false (legalX1 c f) (bitWait (f.sp == 1) fun n s =>
    let i := bitNo (s.core n) f
    let b := bitAt s n (f.sp == 1) i
    let s := putBit n (f.sp == 1) i (put b) s
    finish n id (if zed then flagZero n (!b) s else s)) s

def execBset (c : CoreId) (f : FmtX1) (s : State) : Res := .next (bitX1 c f false (fun _ => true) s)
def execBclr (c : CoreId) (f : FmtX1) (s : State) : Res := .next (bitX1 c f false (fun _ => false) s)
def execBnot (c : CoreId) (f : FmtX1) (s : State) : Res := .next (bitX1 c f false (fun b => !b) s)
def execBtst (c : CoreId) (f : FmtX1) (s : State) : Res := .next (bitX1 c f true (fun b => b) s)
def execBtas (c : CoreId) (f : FmtX1) (s : State) : Res := .next (bitX1 c f true (fun _ => true) s)
def execBtac (c : CoreId) (f : FmtX1) (s : State) : Res := .next (bitX1 c f true (fun _ => false) s)

/-- BLD: bit P of RD from the bit. -/
def execBld (c : CoreId) (f : FmtX2) (s : State) : Res :=
  .next (camol c false (legalBits c (f.sp == 1) f.bn.toNat 0) (bitWait (f.sp == 1) fun n s =>
    let b := bitAt s n (f.sp == 1) f.bn.toNat
    finish n (fun k => k.setReg f.rd.toNat (setFld (k.reg f.rd.toNat) f.p.toNat 1 (b2n b))) s) s)

/-- BST: the bit from bit P of RD. -/
def execBst (c : CoreId) (f : FmtX2) (s : State) : Res :=
  .next (camol c false (legalBits c (f.sp == 1) f.bn.toNat 0) (bitWait (f.sp == 1) fun n s =>
    finish n id (putBit n (f.sp == 1) f.bn.toNat (((s.core n).reg f.rd.toNat).getLsbD f.p.toNat) s)) s)

/-- BFLD: P + 1 bits into RD. -/
def execBfld (c : CoreId) (f : FmtX2) (s : State) : Res :=
  .next (camol c false (legalBits c (f.sp == 1) f.bn.toNat f.p.toNat) (bitWait (f.sp == 1) fun n s =>
    let v := bitsAt s n (f.sp == 1) f.bn.toNat (f.p.toNat + 1)
    finish n (fun k => k.setReg f.rd.toNat (BitVec.ofNat 32 v)) s) s)

/-- BFST: P + 1 bits from RD. -/
def execBfst (c : CoreId) (f : FmtX2) (s : State) : Res :=
  .next (camol c false (legalBits c (f.sp == 1) f.bn.toNat f.p.toNat) (bitWait (f.sp == 1) fun n s =>
    finish n id (putBits n (f.sp == 1) f.bn.toNat (f.p.toNat + 1) ((s.core n).reg f.rd.toNat).toNat s)) s)

/-- An X3 instruction: BD becomes `g` of BD and BS; both are read first. -/
def bitX3 (c : CoreId) (f : FmtX3) (g : Bool → Bool → Bool) (s : State) : State :=
  camol c false (legalBits c (f.spd == 1) f.bd.toNat 0 && legalBits c (f.sps == 1) f.bs.toNat 0) (bitWait (f.spd == 1 || f.sps == 1) fun n s =>
    let d := bitAt s n (f.spd == 1) f.bd.toNat
    let b := bitAt s n (f.sps == 1) f.bs.toNat
    finish n id (putBit n (f.spd == 1) f.bd.toNat (g d b) s)) s

def execBmov (c : CoreId) (f : FmtX3) (s : State) : Res := .next (bitX3 c f (fun _ b => b) s)
def execBand (c : CoreId) (f : FmtX3) (s : State) : Res := .next (bitX3 c f (fun d b => d && b) s)
def execBor (c : CoreId) (f : FmtX3) (s : State) : Res := .next (bitX3 c f (fun d b => d || b) s)
def execBxor (c : CoreId) (f : FmtX3) (s : State) : Res := .next (bitX3 c f (fun d b => d ^^ b) s)
def execBandn (c : CoreId) (f : FmtX3) (s : State) : Res := .next (bitX3 c f (fun d b => d && !b) s)

/-- A branch target: the instruction's address plus 4 × displacement (R262). -/
def branchTo (pc disp : Word) : Word := pc + 4 * disp

/-- BB: branch when the bit equals POL. -/
def execBb (c : CoreId) (f : FmtX4) (s : State) : Res :=
  .next (camol c false (legalBits c (f.sp == 1) f.bn.toNat 0) (bitWait (f.sp == 1) fun n s =>
    let taken := bitAt s n (f.sp == 1) f.bn.toNat == (f.pol == 1)
    s.updCore n fun k => { k with pc := if taken then branchTo k.pc (f.disp.signExtend 32) else k.pc + 4 }) s)

end Sys2Proof.Machine
end

