-- ==== Sys2Proof/Machine/CamolFx.lean ====
section
/-! DEFINITION. The accumulator instructions of Camol (R266 to R268). -/

namespace Sys2Proof.Machine

/-- Set SATF where a result saturated. -/
def noteSat (sat : Bool) (k : Core) : Core := { k with fxctl := if sat then setBit k.fxctl 3 else k.fxctl }

/-- An instruction whose fields are legal, whose exact result `v` fits into `w` bits and is put by `put`; an overflow that
is not saturated raises FX_OVERFLOW, with the result written (R267), two clocks after the next instruction can issue where an
accumulator takes the result and one where a register does (R280). -/
def fxWrite (w : Nat) (v : Core → Int) (put : Int → Core → Core) (n : Nat) (s : State) : State :=
  let k := s.core n
  let r := fit k.fxctl (v k) w
  let s := finish n (fun k => noteSat r.2.1 (put r.1 k)) s
  if r.2.2 then arithmetic n exFx (if w = 32 then 1 else 2) (s.core n).pc s else s

/-- Write an accumulator from an exact value. -/
def putAcc (ad : BitVec 2) (v : Int) (k : Core) : Core := k.setAcc ad.toNat (BitVec.ofInt 40 v)

/-- The rounded product of RG and RB. -/
def product (f : FmtA) (k : Core) : Int :=
  rnd (fxRM k.fxctl) ((k.reg f.rg.toNat).toInt * (k.reg f.rb.toNat).toInt) ((2 ^ f.f.toNat : Nat) : Int)

/-- Accumulators as integers. -/
def accInt (k : Core) (a : BitVec 2) : Int := (k.acc a.toNat).toInt

/-- MULF, MACF and MSUF: AS is unused and zero. -/
def execMulf (c : CoreId) (f : FmtA) (s : State) : Res :=
  .next (camol c false (f.z == 0 && f.as == 0) (fxWrite 40 (fun k => product f k) (putAcc f.ad)) s)
def execMacf (c : CoreId) (f : FmtA) (s : State) : Res :=
  .next (camol c false (f.z == 0 && f.as == 0) (fxWrite 40 (fun k => accInt k f.ad + product f k) (putAcc f.ad)) s)
def execMsuf (c : CoreId) (f : FmtA) (s : State) : Res :=
  .next (camol c false (f.z == 0 && f.as == 0) (fxWrite 40 (fun k => accInt k f.ad - product f k) (putAcc f.ad)) s)

/-- LDA: RG scaled up by F bits. -/
def execLda (c : CoreId) (f : FmtA) (s : State) : Res :=
  .next (camol c false (f.z == 0 && f.rb == 0 && f.as == 0)
    (fxWrite 40 (fun k => (k.reg f.rg.toNat).toInt * ((2 ^ f.f.toNat : Nat) : Int)) (putAcc f.ad)) s)

/-- STA: AS scaled down by F bits into RG. -/
def execSta (c : CoreId) (f : FmtA) (s : State) : Res :=
  .next (camol c false (f.z == 0 && f.rb == 0 && f.ad == 0)
    (fxWrite 32 (fun k => rnd (fxRM k.fxctl) (accInt k f.as) ((2 ^ f.f.toNat : Nat) : Int))
      (fun v k => k.setReg f.rg.toNat (BitVec.ofInt 32 v))) s)

/-- AADD and ASUB. -/
def execAadd (c : CoreId) (f : FmtA) (s : State) : Res :=
  .next (camol c false (f.z == 0 && f.rg == 0 && f.rb == 0 && f.f == 0)
    (fxWrite 40 (fun k => accInt k f.ad + accInt k f.as) (putAcc f.ad)) s)
def execAsub (c : CoreId) (f : FmtA) (s : State) : Res :=
  .next (camol c false (f.z == 0 && f.rg == 0 && f.rb == 0 && f.f == 0)
    (fxWrite 40 (fun k => accInt k f.ad - accInt k f.as) (putAcc f.ad)) s)

/-- MFA: a half of AS into RG. -/
def execMfa (c : CoreId) (f : FmtA) (s : State) : Res :=
  .next (camol c false (f.z == 0 && f.rb == 0 && f.ad == 0 && decide (f.f.toNat ≤ 1)) (fun n => finish n fun k =>
    let a := k.acc f.as.toNat
    k.setReg f.rg.toNat (if f.f = 0 then a.setWidth 32 else (BitVec.ofNat 8 (a.toNat / 2 ^ 32)).signExtend 32)) s)

/-- MTA: RB bits 7:0 and RG into AD. -/
def execMta (c : CoreId) (f : FmtA) (s : State) : Res :=
  .next (camol c false (f.z == 0 && f.as == 0 && f.f == 0) (fun n => finish n fun k =>
    k.setAcc f.ad.toNat (BitVec.ofNat 40 ((k.reg f.rb.toNat).toNat % 256 * 2 ^ 32 + (k.reg f.rg.toNat).toNat))) s)

end Sys2Proof.Machine
end

