-- ==== Sys2Proof/Machine/CamolInt.lean ====
section
/-! DEFINITION. The integer instructions of Camol (R264, R269), its loads and stores (R263). -/

namespace Sys2Proof.Machine

/-! ### Register format (R264) -/

/-- An instruction that writes RD from RA and RB and leaves ST. -/
def aluR (c : CoreId) (f : FmtR) (g : Word → Word → Word) (s : State) : State :=
  camol c false (f.s == 0) (fun n => finish n fun k =>
    k.setReg f.rd.toNat (g (k.reg f.ra.toNat) (k.reg f.rb.toNat))) s

/-- An instruction that writes RD and ST: `g` of ST, RA and RB gives both. -/
def aluFlags (c : CoreId) (f : FmtR) (g : Word → Word → Word → Word × Word) (s : State) : State :=
  camol c false (f.s == 0) (fun n => finish n fun k =>
    let r := g k.st (k.reg f.ra.toNat) (k.reg f.rb.toNat)
    { k.setReg f.rd.toNat r.1 with st := r.2 }) s

/-- An instruction that only sets flags; RD is zero. -/
def compareR (c : CoreId) (f : FmtR) (g : Word → Word → Word → Word) (s : State) : State :=
  camol c false (f.s == 0 && f.rd == 0) (fun n => finish n fun k =>
    { k with st := g k.st (k.reg f.ra.toNat) (k.reg f.rb.toNat) }) s

/-- An instruction that shifts RA by S, which is below 32. -/
def shiftI (c : CoreId) (f : FmtR) (g : Word → Nat → Word) (s : State) : State :=
  camol c false (decide (f.s.toNat < 32)) (fun n => finish n fun k =>
    k.setReg f.rd.toNat (g (k.reg f.ra.toNat) f.s.toNat)) s

/-- Write a 64-bit value to the pair from register `rd`. -/
def setPairReg (k : Core) (rd : Nat) (v : Dword) : Core := (k.setReg rd (lowWord v)).setReg (rd + 1) (highWord v)

/-- The 64-bit value of the pair from register `r`. -/
def pairReg (k : Core) (r : Nat) : Dword := joinWords (k.reg r) (k.reg (r + 1))

/-- A multiply that writes the pair RD. -/
def mulPair (c : CoreId) (f : FmtR) (g : Word → Word → Int) (s : State) : State :=
  camol c false (f.s == 0 && f.rd.toNat % 2 == 0) (fun n => finish n fun k =>
    setPairReg k f.rd.toNat (BitVec.ofInt 64 (g (k.reg f.ra.toNat) (k.reg f.rb.toNat)))) s

/-- Signed and unsigned products. -/
def prodS (a b : Word) : Int := a.toInt * b.toInt
def prodU (a b : Word) : Int := (a.toNat * b.toNat : Nat)

/-- Shift amount of a register shift. -/
def shiftBy (b : Word) : Nat := b.toNat % 32

def execAdd (c : CoreId) (f : FmtR) (s : State) : Res := .next (aluR c f (fun a b => a + b) s)
def execSub (c : CoreId) (f : FmtR) (s : State) : Res := .next (aluR c f (fun a b => a - b) s)
def execAdds (c : CoreId) (f : FmtR) (s : State) : Res := .next (aluFlags c f (fun st a b => addFlags st a b false) s)
def execSubs (c : CoreId) (f : FmtR) (s : State) : Res := .next (aluFlags c f (fun st a b => subFlags st a b false) s)
def execCmp (c : CoreId) (f : FmtR) (s : State) : Res := .next (compareR c f (fun st a b => (subFlags st a b false).2) s)
def execAnd (c : CoreId) (f : FmtR) (s : State) : Res := .next (aluR c f (fun a b => a &&& b) s)
def execOr (c : CoreId) (f : FmtR) (s : State) : Res := .next (aluR c f (fun a b => a ||| b) s)
def execXor (c : CoreId) (f : FmtR) (s : State) : Res := .next (aluR c f (fun a b => a ^^^ b) s)
def execAndn (c : CoreId) (f : FmtR) (s : State) : Res := .next (aluR c f (fun a b => a &&& ~~~b) s)
def execTst (c : CoreId) (f : FmtR) (s : State) : Res := .next (compareR c f (fun st a b => setNZ st (a &&& b)) s)
def execShl (c : CoreId) (f : FmtR) (s : State) : Res := .next (aluR c f (fun a b => a <<< shiftBy b) s)
def execShr (c : CoreId) (f : FmtR) (s : State) : Res := .next (aluR c f (fun a b => a >>> shiftBy b) s)
def execSar (c : CoreId) (f : FmtR) (s : State) : Res := .next (aluR c f (fun a b => a.sshiftRight (shiftBy b)) s)
def execShli (c : CoreId) (f : FmtR) (s : State) : Res := .next (shiftI c f (fun a n => a <<< n) s)
def execShri (c : CoreId) (f : FmtR) (s : State) : Res := .next (shiftI c f (fun a n => a >>> n) s)
def execSari (c : CoreId) (f : FmtR) (s : State) : Res := .next (shiftI c f (fun a n => a.sshiftRight n) s)
def execRoli (c : CoreId) (f : FmtR) (s : State) : Res := .next (shiftI c f (fun a n => a.rotateLeft n) s)
def execMin (c : CoreId) (f : FmtR) (s : State) : Res := .next (aluR c f (fun a b => if a.toInt ≤ b.toInt then a else b) s)
def execMax (c : CoreId) (f : FmtR) (s : State) : Res := .next (aluR c f (fun a b => if a.toInt ≤ b.toInt then b else a) s)
def execMinu (c : CoreId) (f : FmtR) (s : State) : Res := .next (aluR c f (fun a b => if a.toNat ≤ b.toNat then a else b) s)
def execMaxu (c : CoreId) (f : FmtR) (s : State) : Res := .next (aluR c f (fun a b => if a.toNat ≤ b.toNat then b else a) s)
def execMul (c : CoreId) (f : FmtR) (s : State) : Res := .next (aluR c f (fun a b => a * b) s)
def execMulh (c : CoreId) (f : FmtR) (s : State) : Res :=
  .next (aluR c f (fun a b => highWord (BitVec.ofInt 64 (prodS a b))) s)
def execMulhu (c : CoreId) (f : FmtR) (s : State) : Res :=
  .next (aluR c f (fun a b => highWord (BitVec.ofInt 64 (prodU a b))) s)
def execMull (c : CoreId) (f : FmtR) (s : State) : Res := .next (mulPair c f prodS s)
def execMullu (c : CoreId) (f : FmtR) (s : State) : Res := .next (mulPair c f prodU s)
def execClz (c : CoreId) (f : FmtR) (s : State) : Res := .next (aluR c f (fun a _ => BitVec.ofNat 32 (clz32 a)) s)
def execPopc (c : CoreId) (f : FmtR) (s : State) : Res := .next (aluR c f (fun a _ => BitVec.ofNat 32 (popCount a)) s)
def execMov (c : CoreId) (f : FmtR) (s : State) : Res := .next (aluR c f (fun a _ => a) s)
def execAdc (c : CoreId) (f : FmtR) (s : State) : Res := .next (aluFlags c f (fun st a b => addFlags st a b (flagC st)) s)
def execSbc (c : CoreId) (f : FmtR) (s : State) : Res := .next (aluFlags c f (fun st a b => subFlags st a b (!flagC st)) s)

/-! ### Division (R269) -/

/-- Is a division's word legal: S zero, even pairs? -/
def legalDiv (f : FmtR) : Bool := f.s == 0 && f.rd.toNat % 2 == 0 && f.ra.toNat % 2 == 0

/-- The effect of a division with a divisor other than zero. -/
def divideReg (f : FmtR) (isSigned : Bool) (n : Nat) (s : State) : State :=
  let k := s.core n
  let r := divide k.fxctl isSigned (pairReg k f.ra.toNat) (k.reg f.rb.toNat)
  let s := finish n (fun k => { setPairReg k f.rd.toNat r.1 with fxctl := if r.2.1 then setBit k.fxctl 3 else k.fxctl }) s
  if r.2.2 then arithmetic n exFx 0 (s.core n).pc s else s

/-- DIVR and DIVRU: a divisor of zero leaves the pair and raises DIV_ZERO. -/
def division (c : CoreId) (f : FmtR) (isSigned : Bool) (s : State) : State :=
  camol c false (legalDiv f) (fun n s =>
    let k := s.core n
    if k.reg f.rb.toNat = 0 then
      if k.precise then faultHere n exDivZero s else arithmetic n exDivZero 0 k.pc (finish n id s)
    else divideReg f isSigned n s) s

def execDivr (c : CoreId) (f : FmtR) (s : State) : Res := .next (division c f true s)
def execDivru (c : CoreId) (f : FmtR) (s : State) : Res := .next (division c f false s)

/-! ### Immediate format (R264) -/

/-- An instruction that writes RD from RA and the immediate. -/
def aluI (c : CoreId) (f : FmtI) (g : Word → Word) (s : State) : State :=
  camol c false true (fun n => finish n fun k => k.setReg f.rd.toNat (g (k.reg f.ra.toNat))) s

def execAddi (c : CoreId) (f : FmtI) (s : State) : Res := .next (aluI c f (fun a => a + f.imm.signExtend 32) s)
def execAndi (c : CoreId) (f : FmtI) (s : State) : Res := .next (aluI c f (fun a => a &&& f.imm.setWidth 32) s)
def execOri (c : CoreId) (f : FmtI) (s : State) : Res := .next (aluI c f (fun a => a ||| f.imm.setWidth 32) s)
def execXori (c : CoreId) (f : FmtI) (s : State) : Res := .next (aluI c f (fun a => a ^^^ f.imm.setWidth 32) s)

/-- CMPI: flags of RA minus the sign-extended immediate; RD is zero. -/
def execCmpi (c : CoreId) (f : FmtI) (s : State) : Res :=
  .next (camol c false (f.rd == 0) (fun n => finish n fun k =>
    { k with st := (subFlags k.st (k.reg f.ra.toNat) (f.imm.signExtend 32) false).2 }) s)

/-- MOVI: the extension word goes to RD. -/
def execMovi (c : CoreId) (f : FmtE) (s : State) : Res :=
  .next (camol c true (f.z == 0) (fun n s => s.updCore n fun k => (k.setReg f.rd.toNat f.imm).step 8) s)

/-! ### Loads and stores (R263) -/

/-- A load, its fields legal. -/
def loadM (f : FmtM) (extend : Bool) (n : Nat) (s : State) : State :=
  let k := s.core n
  let a := (addrM k f).toNat
  if a % sizeM f ≠ 0 then faultHere n exAlign s
  else if stackFault k f then faultHere n exStack s
  else match coreLoad n a (sizeM f) s with
    | (.ok bs, s) => finish n (fun k => loadRegs f extend bs (baseM f k)) s
    | (.refused, s) => faultHere n exGate s
    | (.failed, s) => faultHere n exBus s
    | (.stall, s) => s

/-- A store, its fields legal: the bytes are those held before the base update. -/
def storeM (f : FmtM) (n : Nat) (s : State) : State :=
  let k := s.core n
  let a := (addrM k f).toNat
  if a % sizeM f ≠ 0 then faultHere n exAlign s
  else if stackFault k f then faultHere n exStack s
  else match coreStore n a (storeBytes k f) s with
    | (.ok _, s) => finish n (baseM f) s
    | (.stall, s) => s
    | (_, s) => faultHere n exGate s

def execLd (c : CoreId) (f : FmtM) (s : State) : Res := .next (camol c false (legalM f false) (loadM f false) s)
def execLds (c : CoreId) (f : FmtM) (s : State) : Res := .next (camol c false (legalM f true) (loadM f true) s)
def execSt (c : CoreId) (f : FmtM) (s : State) : Res := .next (camol c false (legalM f false) (storeM f) s)

end Sys2Proof.Machine
end

