-- ==== Sys2Proof/Machine/CamolSystem.lean ====
section
/-! DEFINITION. The branch and system instructions of Camol (R265), special-register moves (R254), call gates (R298 to
R300), and RETX, WAIT and IFENCE as instructions. -/

namespace Sys2Proof.Machine

/-! ### Branches (R265) -/

/-- B.cond: COND 15 is illegal. -/
def execBCond (c : CoreId) (f : FmtB) (s : State) : Res :=
  .next (camol c false (f.cond != 15) (fun n s =>
    s.updCore n fun k => { k with pc := if condHolds k.st f.cond.toNat then branchTo k.pc (f.disp.signExtend 32) else k.pc + 4 }) s)

/-- BL: COND is 14. -/
def execBl (c : CoreId) (f : FmtB) (s : State) : Res :=
  .next (camol c false (f.cond == 14) (fun n s =>
    s.updCore n fun k => { k.setReg 14 (k.pc + 4) with pc := branchTo k.pc (f.disp.signExtend 32) }) s)

/-- JR: a target that is no multiple of 4 raises ALIGN. -/
def execJr (c : CoreId) (f : FmtJ) (s : State) : Res :=
  .next (camol c false (f.z == 0) (fun n s =>
    let t := (s.core n).reg f.ra.toNat
    if t.toNat % 4 ≠ 0 then faultHere n exAlign s
    else s.updCore n fun k => { (if f.l = 1 then k.setReg f.rd.toNat (k.pc + 4) else k) with pc := t }) s)

/-! ### Special registers (R254) -/

/-- MFS: numbers from 14 are illegal. -/
def execMfs (c : CoreId) (f : FmtR) (s : State) : Res :=
  .next (camol c false (decide (f.s.toNat < 14)) (fun n s =>
    if mayReadSpecial f.s.toNat (s.core n).pl then
      let r := readSpecial n f.s.toNat s
      finish n (fun k => k.setReg f.rd.toNat r.1) r.2
    else faultHere n exPrivileged s) s)

/-- MTS: a raise of SSP is PRIVILEGED (R286). -/
def execMts (c : CoreId) (f : FmtR) (s : State) : Res :=
  .next (camol c false (decide (f.s.toNat < 14)) (fun n s =>
    let k := s.core n
    let v := k.reg f.ra.toNat
    if mayWriteSpecial f.s.toNat k.pl = false ∨ (f.s.toNat = 6 ∧ k.frames.length < fld v 0 6) then faultHere n exPrivileged s
    else finish n (writeSpecial f.s.toNat v) s) s)

/-! ### FENCE, IFENCE, WAIT, NOP (R260, R265, R283) -/

/-- FENCE (R260): it waits for the core's WMA accesses; its loads and stores are complete when they issue. -/
def execFence (c : CoreId) (_f : FmtR) (s : State) : Res :=
  .next (camol c false true (fun n s => if accessesDone s n then finish n id s else s) s)

/-- IFENCE: the core's instruction cache is invalidated; PRIVILEGED at User level. -/
def execIfence (c : CoreId) (_f : FmtR) (s : State) : Res :=
  .next (camol c false true (fun n s =>
    if (s.core n).pl = 2 then faultHere n exPrivileged s else finish n (fun k => { k with icache := [] }) s) s)

/-- WAIT: the core stalls until an interrupt input is pending. In the handler of a privilege forgery it ends the handler
(R295 step 6). -/
def execWait (c : CoreId) (_f : FmtR) (s : State) : Res :=
  .next (camol c false true (fun n s =>
    if (s.core n).forging then endForge n s
    else finish n (fun k => { k with phase := if (pendingInterrupts s n).isEmpty then .waiting else k.phase }) s) s)

def execNopInstruction (c : CoreId) (_f : FmtR) (s : State) : Res := .next (camol c false true (fun n => finish n id) s)

/-- RETX: PRIVILEGED at User level. -/
def execRetx (c : CoreId) (_f : FmtR) (s : State) : Res :=
  .next (camol c false true (fun n s => if (s.core n).pl = 2 then faultHere n exPrivileged s else retx n s) s)

/-! ### Call gates (R298 to R300) -/

/-- Is one access kind of an argument's extent admitted to the caller (R299 check 5)? -/
def argKind (s : State) (n a len k : Nat) : Bool := (coreAdmits s n (s.core n).pl a len k).1 == .pass

/-- Is argument `k` of a call with ARGS value `m` admitted: a length of zero passes? -/
def argOk (s : State) (n m k : Nat) : Bool :=
  let a := ((s.core n).reg k).toNat
  let len := ((s.core n).reg (k + 4)).toNat
  m == 0 || len == 0
    || (decide (a + len ≤ 2 ^ 32) && (m == 2 || argKind s n a len kRead) && (m == 1 || argKind s n a len kWrite))

/-- The callee that a call-gate entry describes: none where checks 2 to 5 fail (R299). -/
def gateEntry (s : State) (n : Nat) (b : List Byte) : Option (EntryPoint × Bool) :=
  let t := leAt b 0 4
  let ctl := leAt b 4 4
  let pl := (s.core n).pl
  if bitOf ctl 31 = true ∧ ctl / 2 ^ 5 % 8 = 0 ∧ ctl / 2 ^ 16 % 2 ^ 15 = 0 ∧ t % 4 = 0
      ∧ pl ≤ ctl / 4 % 4 ∧ ctl % 4 ≤ pl ∧ ((List.range 4).all fun k => argOk s n (ctl / 2 ^ (8 + 2 * k) % 4) k) = true then
    some (⟨BitVec.ofNat 32 t, ctl % 4, BitVec.ofNat 32 (leAt b 8 4), BitVec.ofNat 32 (leAt b 12 4)⟩, bitOf ctl 4)
  else none

/-- A transfer through a call gate pushes a frame as an exception entry does, and meets R291 as one. -/
def gateTransfer (n : Nat) (e : EntryPoint) (keep : Bool) (s : State) : State :=
  let k := s.core n
  let xpc := k.pc + 4
  if frameMax ≤ k.frames.length then privForge n 3 k.pc s
  else if k.frames.length + 1 = frameMax then takeException n exSstack xpc s
  else enter n e xpc keep s

/-- GATE; a read of its table that must wait leaves it to be issued again (R225, R357). -/
def execGate (c : CoreId) (f : FmtG) (s : State) : Res :=
  .next (camol c false (f.z == 0) (fun n s =>
    let k := s.core n
    if fld k.gtlim 0 15 ≤ f.index.toNat then faultHere n exCallgate s
    else if entryWaits n (k.gtbase.toNat + 16 * f.index.toNat) s then s
    else match readEntry n (k.gtbase.toNat + 16 * f.index.toNat) s with
      | (some b, s) => match gateEntry s n b with
        | some (e, keep) => gateTransfer n e keep s
        | none => faultHere n exCallgate s
      | (none, s) => faultHere n exCallgate s) s)

end Sys2Proof.Machine
end

