-- ==== Sys2Proof/Machine/CamolTable.lean ====
section
/-! DEFINITION. Table look-up with interpolation and the resumable instructions of Camol (R275 to R277). -/

namespace Sys2Proof.Machine

/-! ### TLI (R275) -/

/-- The interval of x and its offset in it, clamped to the last point. -/
def tliPoint (sh n x : Nat) : Nat × Nat :=
  let i := x / 2 ^ sh
  if n ≤ i then (n - 1, 2 ^ sh) else (i, x - i * 2 ^ sh)

/-- A table word as an integer. -/
def tableWord (sgn : Bool) (w : Word) : Int := if sgn then w.toInt else (w.toNat : Int)

/-- The interpolated value between two table words at offset `fr`. -/
def tliResult (rm sh : Nat) (sgn : Bool) (lo hi : Word) (fr : Nat) : Word :=
  let l := tableWord sgn lo
  let h := tableWord sgn hi
  BitVec.ofInt 32 (l + rnd rm ((h - l) * (fr : Int)) ((2 ^ sh : Nat) : Int))

/-- Read one word of core `n`, checking alignment: the cause of the fault where it does not come. -/
def loadWord (n : Nat) (a : Word) (s : State) : Except (Option Nat) Word × State :=
  if a.toNat % 4 ≠ 0 then (.error (some exAlign), s)
  else match coreLoad n a.toNat 4 s with
    | (.ok bs, s) => (.ok (BitVec.ofNat 32 (leNat bs)), s)
    | (.refused, s) => (.error (some exGate), s)
    | (.failed, s) => (.error (some exBus), s)
    | (.stall, s) => (.error none, s)

/-- TLI's fields: S to 16, N at least 1. -/
def legalT (f : FmtT) : Bool := decide (f.s.toNat ≤ 16) && decide (1 ≤ f.n.toNat)

/-- The look-up of `x` in the table at RB. -/
def lookup (n : Nat) (f : FmtT) (x : Word) (s : State) : Except (Option Nat) Word × State :=
  let k := s.core n
  let p := tliPoint f.s.toNat f.n.toNat x.toNat
  let a := k.reg f.rb.toNat + BitVec.ofNat 32 (4 * p.1)
  match loadWord n a s with
  | (.ok lo, s) => match loadWord n (a + 4) s with
    | (.ok hi, s) => (.ok (tliResult (fxRM k.fxctl) f.s.toNat (f.sgn == 1) lo hi p.2), s)
    | r => r
  | r => r

/-- A fault of a read, or a stall that leaves the instruction to be issued again. -/
def readFault (n : Nat) (e : Option Nat) (s : State) : State :=
  match e with
  | some cause => faultHere n cause s
  | none => s

def execTli (c : CoreId) (f : FmtT) (s : State) : Res :=
  .next (camol c false (legalT f) (fun n s =>
    match lookup n f ((s.core n).reg f.ra.toNat) s with
    | (.ok v, s) => finish n (fun k => k.setReg f.rd.toNat v) s
    | (.error e, s) => readFault n e s) s)

/-! ### Resumable instructions (R276, R277): one element, or one group of 64, between boundaries -/

/-- Element `k` of core `n` is done: IDX is k + 1, and after the last one the next instruction follows. -/
def elementDone (n : Nat) (s : State) : State :=
  s.updCore n fun k =>
    let d := { k with idx := k.idx + 1 }
    if d.idx.toNat < d.cnt.toNat then d else d.step 4

/-- Write element `k`'s word. -/
def writeElement (n : Nat) (a v : Word) (s : State) : State :=
  match coreStore n a.toNat (leBytes 4 v.toNat) s with
  | (.ok _, s) => elementDone n s
  | (.stall, s) => s
  | (_, s) => faultHere n exGate s

/-- One element of a resumable instruction: its word is read at RA + 4k, passed through `g`, and written at RD + 4k. An
address that is not a multiple of 4, the source's, the destination's or the table's, gives ALIGN before any access
(R305). -/
def element (rd ra : BitVec 4) (table : List (BitVec 4)) (g : Nat → Word → State → Except (Option Nat) Word × State)
    (n : Nat) (s : State) : State :=
  let k := s.core n
  if k.cnt.toNat ≤ k.idx.toNat then finish n id s
  else if ((ra :: rd :: table).any fun r => (k.reg r.toNat).toNat % 4 != 0) = true then faultHere n exAlign s
  else match loadWord n (k.reg ra.toNat + 4 * k.idx) s with
    | (.ok x, s) => match g n x s with
      | (.ok v, s) => writeElement n (k.reg rd.toNat + 4 * k.idx) v s
      | (.error e, s) => readFault n e s
    | (.error e, s) => readFault n e s

def execTvi (c : CoreId) (f : FmtT) (s : State) : Res :=
  .next (camol c false (legalT f) (element f.rd f.ra [f.rb] fun n x => lookup n f x) s)

def execBcopy (c : CoreId) (f : FmtR) (s : State) : Res :=
  .next (camol c false (f.s == 0) (element f.rd f.ra [] fun _ x s => (.ok x, s)) s)

/-- Is BSCAN legal with the core's CNT: RA, RB and S bits 5:2 zero, CNT within the space? -/
def legalScan (c : CoreId) (f : FmtR) (s : State) : Bool :=
  let sp := f.s.getLsbD 0
  f.ra == 0 && f.rb == 0 && decide (f.s.toNat < 4) && hasSpace (coreNum c) sp
    && decide ((s.core (coreNum c)).cnt.toNat ≤ spaceSize sp)

/-- The next group of up to 64 bits of BSCAN. -/
def scanGroup (f : FmtR) (n : Nat) (s : State) : State :=
  let k := s.core n
  let i := k.idx.toNat
  let stop := min (i + 64) k.cnt.toNat
  if k.cnt.toNat ≤ i then finish n id s
  else match (List.range (stop - i)).find? fun j => bitAt s n (f.s.getLsbD 0) (i + j) == f.s.getLsbD 1 with
    | some j => finish n (fun k => { k.setReg f.rd.toNat (BitVec.ofNat 32 (i + j)) with
        idx := BitVec.ofNat 32 (i + j)
        st := setZ k.st false }) s
    | none =>
      if stop < k.cnt.toNat then s.updCore n fun k => { k with idx := BitVec.ofNat 32 stop }
      else finish n (fun k => { k.setReg f.rd.toNat 0xFFFFFFFF with
        idx := k.cnt
        st := setZ k.st true }) s

def execBscan (c : CoreId) (f : FmtR) (s : State) : Res := .next (camol c false (legalScan c f s) (bitWait (f.s.getLsbD 0) (scanGroup f)) s)

end Sys2Proof.Machine
end

