-- ==== Sys2Proof/Machine/Wma.lean ====
section
/-! DEFINITION. The WMA unit (05_public_key_engines.md, R157 to R179): operands, the instructions' effects, issue and
the end of an instruction. -/

namespace Sys2Proof.Machine

/-! ### Operands (R158, R161, R162) -/

/-- Does an operand field name the shared region? -/
def inShared (v : BitVec 8) : Bool := decide (0xC0 ≤ v.toNat)

/-- First word of operand field `v` of `len` words; none where it lies outside its region (R161). -/
def operandAt (s : State) (t c : Nat) (v : BitVec 8) (len : Nat) : Option Nat :=
  let r := privRegion s t c
  if inShared v then
    let a := 768 + 4 * (v.toNat - 0xC0)
    if a + len ≤ 1024 then some a else none
  else if 2 * v.toNat < r.2 ∧ 2 * v.toNat + len ≤ r.2 then some (r.1 + 2 * v.toNat) else none

/-- An operand's words. -/
def operandWords (w : Wma) (a len : Nat) : List WmaWord := (List.range len).map fun i => SMap.get {} w.mem (a + i)

/-- The integer that words hold, least significant word first. -/
def wordsNat : List WmaWord → Nat
  | [] => 0
  | x :: xs => x.val.toNat + 2 ^ 64 * wordsNat xs

/-- Any word tagged KEY; any word tagged REP. -/
def anyKey (ws : List WmaWord) : Bool := ws.any (·.key)
def anyRep (ws : List WmaWord) : Bool := ws.any (·.rep)

/-- The words of an integer with the given tags. -/
def natWords (len v : Nat) (key rep : Bool) : List WmaWord :=
  (List.range len).map fun i => ⟨BitVec.ofNat 64 (v / 2 ^ (64 * i)), key, rep⟩

/-- Put words into operand memory. -/
def Wma.put (w : Wma) (a : Nat) (ws : List WmaWord) : Wma :=
  { w with mem := (ws.zipIdx).foldl (fun m p => SMap.set {} m (a + p.2) p.1) w.mem }

/-- Read a source of a modular instruction (R162): the residue, or none where a plain source is 2m or more. -/
def residueOf (m : Nat) (ws : List WmaWord) : Option Nat :=
  let x := wordsNat ws
  if anyRep ws then some (x % m) else if x < 2 * m then some (x % m) else none

/-- Does the context write randomised values (R160)? -/
def randomised (s : State) (t : Nat) : Bool := modeOf s (ownerOf s t) != 1

/-! ### Instruction operands (R163, R164) -/

/-- The operands that an instruction writes: field values. -/
def wmaDests (op : Nat) (o : WmaOp) : List (BitVec 8) :=
  if op = 7 then [o.a, o.b]
  else if op = 0x01 ∨ op = 0x0B ∨ op = 0x0D ∨ 0x11 ≤ op then [] else [o.d]

/-- The operands that an instruction names, each with its length in words. -/
def wmaOperands (op : Nat) (o : WmaOp) (len : Nat) : List (BitVec 8 × Nat) :=
  match wmaUses op with
  | some (d, a, b, _) =>
    (if d then [(o.d, len)] else [])
      ++ (if a then [(o.a, if op = 8 then len + (fld o.arg 16 8) * (2 ^ (fld o.arg 12 2 + 1) - 1) else len)] else [])
      ++ (if b then [(o.b, len)] else [])
  | none => []

/-! ### Effects -/

/-- Set sticky bits of a context. -/
def stick (t c : Nat) (bits : List Nat) (s : State) : State :=
  let w := wmaOf s t
  let x := wmaCtx w c
  setWma t (w.setCtx c { x with sticky := bits.foldl setBit x.sticky }) s

/-- Write operand words. -/
def putOperand (t a : Nat) (ws : List WmaWord) (s : State) : State := setWma t ((wmaOf s t).put a ws) s

/-- Draw λ for each execution of an instruction: one, or two independent ones in Pavane (R160, R169). The first execution's
result is the one written. -/
def drawLambda (t : Nat) (s : State) : Option (List Byte) × State :=
  match drbgDraw t 8 false s with
  | (some l, s) =>
    if pavaneTruss s t then
      match drbgDraw t 8 false s with
      | (some _, s) => (some l, s)
      | (none, s) => (none, s)
    else (some l, s)
  | (none, s) => (none, s)

/-- Write a modular result: in randomised representation with a fresh λ, or as it is (R160). A DRBG without output
aborts the context (R168). -/
def putResidue (t c a len m v : Nat) (key : Bool) (s : State) : State :=
  if randomised s t then
    match drawLambda t s with
    | (some l, s) => putOperand t a (natWords len (v + leNat l * m) key true) s
    | (none, s) => contextAbort t c s
  else putOperand t a (natWords len v key false) s

/-- An unspecified result: free words that represent whatever they do (R162). -/
def putUnspecified (t a len : Nat) (key : Bool) (s : State) : State :=
  let r := drawBytes (8 * len) s
  putOperand t a (natWords len (leNat r.1) key false) r.2

/-- A modular instruction with sources `src`: writes `f` of the residues to `dst`, or an unspecified result with RANGE
where a plain source is 2m or more (R162, R171). -/
def modular (t c dst len m : Nat) (src : List (List WmaWord)) (f : List Nat → Nat) (s : State) : State :=
  let rs := src.map (residueOf m)
  let key := src.any anyKey
  if rs.all (·.isSome) then putResidue t c dst len m (f (rs.filterMap id) % m) key s
  else stick t c [8] (putUnspecified t dst len key s)

/-- MODSET (R164): w from the argument, m from plain A. -/
def wmaModset (t c : Nat) (o : WmaOp) (s : State) : State :=
  let w := wmaOf s t
  let x := wmaCtx w c
  let n := fld o.arg 0 4
  let bad := fun (u : State) => let v := wmaOf u t
    setWma t (v.setCtx c { wmaCtx v c with m := 0, w := 0, sw := false, last := false, sticky := setBit x.sticky 9 }) u
  let ok := if modeOf s (ownerOf s t) = 1 then decide (4 ≤ n ∧ n ≤ 9) else decide (4 ≤ n ∧ n ≤ 8)
  if ok = false then bad s
  else
    let len := storedLen s t { x with w := n }
    match operandAt s t c o.a len with
    | none => stick t c [10] s
    | some a =>
      let m := wordsNat (operandWords w a len)
      if m % 2 = 0 ∨ m < 3 ∨ m < 2 ^ (64 * (n - 1)) ∨ 2 ^ (64 * n) ≤ m then bad s
      else setWma t (w.setCtx c { x with m := m, w := n, sw := false, last := false }) s

/-- T⁻¹ mod m with T = 2^(64 L) (R160). -/
def invT (m len : Nat) : Nat := invMod m (2 ^ (64 * len) % m)

/-- MCSWAP (R165, R171). -/
def wmaSwap (t c d a b len : Nat) (arg : Word) (s : State) : State :=
  let w := wmaOf s t
  let x := wmaCtx w c
  let ds := operandWords w d len
  let i := fld arg 0 10
  let tt := if bitOf arg.toNat 31 then false else decide (i < 64 * len) && (wordsNat ds).testBit i
  let hold := bitOf arg.toNat 30
  let sv := if hold then x.last else tt != x.sw
  let as := operandWords w a len
  let bs := operandWords w b len
  let key := anyKey ds || anyKey as || anyKey bs
  let mark := fun (ws : List WmaWord) => ws.map fun z => { z with key := z.key || key }
  let w := (w.put a (mark (if sv then bs else as))).put b (mark (if sv then as else bs))
  setWma t (w.setCtx c { x with sw := if hold then x.sw else tt, last := sv }) s

/-- MSEL (R164, R171): all candidates are read. -/
def wmaSelect (t d a b len : Nat) (arg : Word) (s : State) : State :=
  let w := wmaOf s t
  let n := fld arg 12 2 + 1
  let stride := fld arg 16 8
  let bs := operandWords w b len
  let g := wordsNat bs / 2 ^ fld arg 0 10 % 2 ^ n
  let key := anyKey bs || (List.range (2 ^ n)).any fun k => anyKey (operandWords w (a + stride * k) len)
  putOperand t d ((operandWords w (a + stride * g) len).map fun z => { z with key := z.key || key }) s

/-- MCMP (R164, R171): with a modulus both sources are read as residues, without one as held. -/
def wmaCompare (t c a b len m : Nat) (s : State) : State :=
  let w := wmaOf s t
  let as := operandWords w a len
  let bs := operandWords w b len
  let setZ := fun (z : Bool) (u : State) => let v := wmaOf u t
    let x := wmaCtx v c
    setWma t (v.setCtx c { x with sticky := setFld x.sticky 7 1 (b2n z) }) u
  if anyKey as || anyKey bs then stick t c [12] s
  else if m = 0 then
    if anyRep as || anyRep bs then stick t c [9] s else setZ (decide (wordsNat as = wordsNat bs)) s
  else match residueOf m as, residueOf m bs with
    | some x, some y => setZ (decide (x = y)) s
    | _, _ =>
      let r := drawBelow 2 1 s
      stick t c [8] (setZ (r.1 == 1) r.2)

/-- MST (R164, R171, R172): the reduced value of a REP operand with a zero word, or a plain operand as held. -/
def wmaStore (t c : Nat) (e : WmaEntry) (a len m : Nat) (s : State) : State :=
  let ws := operandWords (wmaOf s t) a len
  if anyKey ws then stick t c [12] s
  else if anyRep ws = true ∧ m = 0 then stick t c [9] s
  else
    let v := if anyRep ws then wordsNat ws % m else wordsNat ws
    let off := e.o.arg.toNat
    let r := gate (wmaTag s t e.pl) t off (8 * len) kWrite s
    if r.1 then r.2.updTruss t fun u => { u with sram := Memory.write 0 u.sram off (leBytes (8 * len) v) }
    else stick t c [16] r.2

/-- MLD (R164, R172, R173): the words read at the start, plain. -/
def wmaLoad (t c d len : Nat) (s : State) : State :=
  let w := wmaOf s t
  match (wmaCtx w c).latch with
  | some (some bs) => putOperand t d (natWords len (leNat bs) false false) s
  | some none => stick t c [16] s
  | none => s

/-- As many bits as m has, from the truss's DRBG (R168). -/
def randBits (t m : Nat) (s : State) : Option Nat × State :=
  let bits := Nat.log2 m + 1
  match drbgDraw t ((bits + 7) / 8) false s with
  | (some l, s) => (some (leNat l % 2 ^ bits), s)
  | (none, s) => (none, s)

/-- MRAND (R168): the drawn value where it lies in [1, m − 1], and otherwise the draw is repeated (`wmaInstructionEnd`); a
DRBG without output aborts the context. -/
def wmaRand (t c d len m : Nat) (key : Bool) (s : State) : State :=
  match randBits t m s with
  | (some v, s) => if 1 ≤ v ∧ v < m then putOperand t d (natWords len v key false) s else s
  | (none, s) => contextAbort t c s

/-- MKEY (R164, R171): the loader's key goes to D, tagged KEY when private; a public key goes as x and then y. -/
def wmaKey (t c : Nat) (o : WmaOp) (d len : Nat) (s : State) : State :=
  let w := wmaOf s t
  match SMap.get [] w.tags (fld o.arg 0 16) with
  | priv :: bs =>
    let w := { w with tags := SMap.set [] w.tags (fld o.arg 0 16) [] }
    if priv = 1 then setWma t (w.put d (natWords len (beNat bs) true false)) s
    else
      match operandAt s t c o.d (2 * len) with
      | none => stick t c [10] (setWma t w s)
      | some d =>
        let k := bs.length / 2
        setWma t ((w.put d (natWords len (beNat (bs.take k)) false false)).put (d + len)
          (natWords len (beNat (bs.drop k)) false false)) s
  | [] => s

/-- The instruction's effect once its operands lie in their regions. -/
def wmaRun (t c : Nat) (e : WmaEntry) (len m : Nat) (d a b : Nat) (s : State) : State :=
  let w := wmaOf s t
  let ds := operandWords w d len
  let as := operandWords w a len
  let bs := operandWords w b len
  match e.op with
  | 0x02 => modular t c d len m [as, bs] (fun r => r.getD 0 0 * r.getD 1 0 * invT m len) s
  | 0x03 => modular t c d len m [as, bs, ds] (fun r => r.getD 0 0 * r.getD 1 0 * invT m len + r.getD 2 0) s
  | 0x04 => modular t c d len m [as, bs] (fun r => r.getD 0 0 + r.getD 1 0) s
  | 0x05 => modular t c d len m [as, bs] (fun r => r.getD 0 0 + m - r.getD 1 0) s
  | 0x06 => putOperand t d (natWords len (wordsNat as + wordsNat bs) (anyKey as || anyKey bs) false) s
  | 0x07 => wmaSwap t c d a b len e.o.arg s
  | 0x08 => wmaSelect t d a b len e.o.arg s
  | 0x09 => putOperand t d (as.map fun z => { z with key := anyKey as }) s
  | 0x0A => putOperand t d (List.replicate len {}) s
  | 0x0B => wmaCompare t c a b len m s
  | 0x0C => wmaLoad t c d len s
  | 0x0D => wmaStore t c e a len m s
  | 0x0E => wmaRand t c d len m (bitOf e.o.arg.toNat 0) s
  | 0x0F => wmaKey t c e.o d len s
  | 0x10 => putOperand t d (ds.map fun z => { z with key := false }) s
  | _ => s

/-- Does the instruction need a modulus (R162, R164, R168)? -/
def needsModulus (op : Nat) : Bool := decide (2 ≤ op ∧ op ≤ 5) || op == 0x0E

/-- What keeps a legal instruction of `len` words from working: sticky bits ADDR, MODBAD, PRIV (R161, R164, R170, R172). -/
def wmaErrors (s : State) (t c : Nat) (e : WmaEntry) (len : Nat) : List Nat :=
  (if (wmaOperands e.op e.o len).any fun p => (operandAt s t c p.1 p.2).isNone then [10] else [])
    ++ (if needsModulus e.op && (wmaCtx (wmaOf s t) c).m == 0 then [9] else [])
    ++ (if e.pl ≠ 0 ∧ ((wmaDests e.op e.o).any inShared = true ∨ e.op = 0x10) then [11] else [])

/-- Carry out one queued instruction (R163, R164, R167, R170 to R172). -/
def wmaExec (t c : Nat) (e : WmaEntry) (s : State) : State :=
  if wmaLegal e.op e.o = false then stick t c [5] s
  else if e.op = 0x01 then wmaModset t c e.o s
  else
    let r := match e.op, (wmaCtx (wmaOf s t) c).latch with
      | 0x0C, some (some bs) => (bs.length / 8, s)
      | _, _ => runLength t c s
    let s := r.2
    let len := r.1
    let errs := wmaErrors s t c e len
    if errs.isEmpty then
      let at0 := fun (v : BitVec 8) => (operandAt s t c v len).getD 0
      wmaRun t c e len (wmaCtx (wmaOf s t) c).m (at0 e.o.d) (at0 e.o.a) (at0 e.o.b) s
    else stick t c errs s

/-- Where an MRAND's draw lies outside [1, m − 1], the state in which it draws again (R168). -/
def randAgain (t c : Nat) (e : WmaEntry) (s : State) : Option State :=
  let m := (wmaCtx (wmaOf s t) c).m
  if e.op = 0x0E ∧ wmaLegal e.op e.o = true ∧ (wmaErrors s t c e (storedLen s t (wmaCtx (wmaOf s t) c))).isEmpty = true then
    match randBits t m s with
    | (some v, s) => if 1 ≤ v ∧ v < m then none else some s
    | (none, _) => none
  else none

/-! ### Issue (R159, R169, R170, R179) -/

/-- The status word that MSTAT returns (R170). RAND shows the representation of a context with a modulus: every bit is 0 once
the context is cleared. -/
def wmaStatus (s : State) (t c : Nat) : Word :=
  let x := wmaCtx (wmaOf s t) c
  x.sticky ||| mkWord [(24, x.queue.length), (15, b2n !x.queue.isEmpty), (6, b2n (randomised s t && x.w != 0)), (4, b2n x.sw), (0, x.w)]

/-- Raise the WMA interrupt of a core (R174, R303). -/
def wmaIrq (t c : Nat) (on : Bool) (s : State) : State :=
  if on then s.updCore (4 * t + c) fun k => { k with intWma := true } else s

/-- MSTAT: the status, and with CLEAR bits 14:8 cleared. A word that R163 discards returns nothing. -/
def wmaMstat (t c : Nat) (o : WmaOp) (s : State) : Option Word × State :=
  if wmaLegal 0x11 o = false then (none, wmaIrq t c (o.irq == 1) (stick t c [5] s))
  else
    let v := wmaStatus s t c
    let w := wmaOf s t
    let x := wmaCtx w c
    let s := if bitOf o.arg.toNat 0 then setWma t (w.setCtx c { x with sticky := x.sticky &&& ~~~(0x7F00 : Word) }) s else s
    (some v, wmaIrq t c (o.irq == 1) s)

/-- Issue a WMA instruction from core `c` of truss `t` at level `pl`. None where the queue is full and the core stalls
(R169); else the value for RD, if the instruction returns one. -/
def wmaIssue (t c pl op : Nat) (o : WmaOp) (s : State) : Option (Option Word) × State :=
  let w := wmaOf s t
  let x := wmaCtx w c
  if op = 0x11 then
    let r := wmaMstat t c o s
    (some r.1, r.2)
  else if bitOf x.sticky.toNat 14 then (some none, s)
  else if op = 0x12 then
    if wmaLegal op o then (some none, wmaIrq t c (o.irq == 1) (contextAbort t c s))
    else (some none, wmaIrq t c (o.irq == 1) (stick t c [5] s))
  else if 8 ≤ x.queue.length then (none, s)
  else (some none, wmaStart t (setWma t (w.setCtx c { x with queue := x.queue ++ [⟨op, o, pl⟩] }) s))

/-! ### The end of an instruction (R169, R174) -/

/-- May the head of context `c` end now: it holds the datapath, or it is an MRAND, or an MKEY whose key the loader
holds? -/
def mayEnd (s : State) (t c : Nat) : Bool :=
  let w := wmaOf s t
  match (wmaCtx w c).queue with
  | e :: _ => w.dp == some c || e.op == 0x0E
      || (e.op == 0x0F && (!wmaLegal e.op e.o || !(SMap.get [] w.tags (fld e.o.arg 0 16)).isEmpty))
  | [] => false

/-- A Pavane mismatch (R169): no result, MISMATCH, PKE_MISMATCH, LOCKSTEP, and a context abort. -/
def wmaMismatch (t c : Nat) (s : State) : State :=
  let s := cause .pke 8 { s with pke := { s.pke with mismatch := setBit s.pke.mismatch t } }
  contextAbort t c (stick t c [13] (raise srcLockstep [2, BitVec.ofNat 8 t, BitVec.ofNat 8 c] s))

/-- Take the head instruction out of the queue. -/
def dropHead (t c : Nat) (s : State) : State :=
  let w := wmaOf s t
  let x := wmaCtx w c
  setWma t (w.setCtx c { x with
    queue := x.queue.drop 1
    latch := none }) s

/-- The head instruction of context `c` ends, or an MRAND draws again (R168). -/
def wmaInstructionEnd (t c : Nat) (mismatch : Bool) (s : State) : State :=
  if mayEnd s t c then
    match (wmaCtx (wmaOf s t) c).queue with
    | e :: _ =>
      if mismatch && pavaneTruss s t then wmaMismatch t c s
      else match randAgain t c e s with
        | some u => u
        | none => leaveDatapath t c (wmaIrq t c (e.o.irq == 1) (dropHead t c (wmaExec t c e s)))
    | [] => s
  else s

/-- WMA_INSTRUCTION_END (R169, R174). -/
def execWmaInstructionEnd (truss : Fin 32) (ctx : Fin 4) (mismatch : Bool) (s : State) : Res :=
  .next (if trussClocks s then wmaInstructionEnd truss.val ctx.val mismatch s else s)

end Sys2Proof.Machine
end

