-- ==== Sys2Proof/Machine/Copi.lean ====
section
/-! DEFINITION. Coprocessor issue (R278, R279), the WMA instructions as commands (R163, R164), and the Reed commands
(R310 to R316). -/

namespace Sys2Proof.Machine

/-! ### The issue of a COPI -/

/-- A COPI that runs: legal, and PRIVILEGED at User level. -/
def copiStep (c : CoreId) (legal : Bool) (body : Nat → State → State) (s : State) : State :=
  camol c true legal (fun n s => if (s.core n).pl = 2 then faultHere n exPrivileged s else body n s) s

/-- A COPI that is done: its value, if it returns one, goes to RD. -/
def copiDone (n : Nat) (rd : BitVec 4) (v : Option Word) (s : State) : State :=
  s.updCore n fun k =>
    let k := match v with
      | some w => k.setReg rd.toNat w
      | none => k
    { k.step 8 with phase := .running }

/-! ### UNIT 0: the WMA unit -/

/-- Is a WMA COPI legal: not on the warden, and RD zero where no value is returned (R278)? -/
def legalWma (c : CoreId) (op : Nat) (o : WmaOp) : Bool :=
  decide (c ≠ .warden) && (op == 0x11 || o.rd == 0)

/-- Hand a WMA instruction to the unit; a full queue stalls the core (R169, R279). -/
def wmaHand (op : Nat) (o : WmaOp) (n : Nat) (s : State) : State :=
  match wmaIssue (trussOf n) (coreInTruss n) (s.core n).pl op o s with
  | (some v, s) => copiDone n o.rd v s
  | (none, s) => s.updCore n fun k => { k with phase := .stalledCopi op o }

/-- A WMA instruction as a command: the COPI that issues it. -/
def wmaRow (op : Nat) (c : CoreId) (o : WmaOp) (s : State) : Res :=
  .next (copiStep c (legalWma c op o) (wmaHand op o) s)

def execModset (c : CoreId) (o : WmaOp) (s : State) : Res := wmaRow 0x01 c o s
def execMmul (c : CoreId) (o : WmaOp) (s : State) : Res := wmaRow 0x02 c o s
def execMmac (c : CoreId) (o : WmaOp) (s : State) : Res := wmaRow 0x03 c o s
def execMadd (c : CoreId) (o : WmaOp) (s : State) : Res := wmaRow 0x04 c o s
def execMsub (c : CoreId) (o : WmaOp) (s : State) : Res := wmaRow 0x05 c o s
def execIadd (c : CoreId) (o : WmaOp) (s : State) : Res := wmaRow 0x06 c o s
def execMcswap (c : CoreId) (o : WmaOp) (s : State) : Res := wmaRow 0x07 c o s
def execMsel (c : CoreId) (o : WmaOp) (s : State) : Res := wmaRow 0x08 c o s
def execMmov (c : CoreId) (o : WmaOp) (s : State) : Res := wmaRow 0x09 c o s
def execMclr (c : CoreId) (o : WmaOp) (s : State) : Res := wmaRow 0x0A c o s
def execMcmp (c : CoreId) (o : WmaOp) (s : State) : Res := wmaRow 0x0B c o s
def execMld (c : CoreId) (o : WmaOp) (s : State) : Res := wmaRow 0x0C c o s
def execMst (c : CoreId) (o : WmaOp) (s : State) : Res := wmaRow 0x0D c o s
def execMrand (c : CoreId) (o : WmaOp) (s : State) : Res := wmaRow 0x0E c o s
def execMkey (c : CoreId) (o : WmaOp) (s : State) : Res := wmaRow 0x0F c o s
def execMrelease (c : CoreId) (o : WmaOp) (s : State) : Res := wmaRow 0x10 c o s
def execMstat (c : CoreId) (o : WmaOp) (s : State) : Res := wmaRow 0x11 c o s
def execMabort (c : CoreId) (o : WmaOp) (s : State) : Res := wmaRow 0x12 c o s

/-! ### UNIT 1: the Reed fabric -/

/-- The fields of the argument word that a Reed command defines: bits outside them are zero (R310). -/
def reedArgMask (op : Nat) : Word :=
  match op with
  | 0x01 => 0x7F0FFF
  | 0x02 | 0x03 | 0x0A => 0xFFFFFFFF
  | 0x08 | 0x0D => 0x7FF
  | _ => 0

/-- Is the IMM field in its range? -/
def reedImmOk (op : Nat) (imm : BitVec 16) : Bool :=
  match op with
  | 0x01 => true
  | 0x03 | 0x0A => decide (4 ≤ imm.toNat ∧ imm.toNat ≤ 4096) && decide (imm.toNat % 4 = 0)
  | _ => imm == 0

/-- Does the command return a value in RD? -/
def reedReturns (op : Nat) : Bool := [0x04, 0x08, 0x09, 0x0B, 0x0C, 0x0D].contains op

/-- Is a Reed COPI with argument word `arg` legal (R308, R310)? -/
def legalReed (op : Nat) (o : ReedOp) (arg : Word) : Bool :=
  [0x01, 0x02, 0x03, 0x04, 0x05, 0x08, 0x09, 0x0A, 0x0B, 0x0C, 0x0D].contains op
    && o.z == 0 && reedImmOk op o.imm && arg &&& ~~~(reedArgMask op) == 0 && (reedReturns op || o.rd == 0)
    && (op != 0x01 || !bitOf arg.toNat 11 || decide (fld arg 0 11 ≤ 1))

/-- Record the first error of a context's packet (R312). -/
def prodErr (x st : Nat) (s : State) : State :=
  let p := prodOf s x
  if p.err.isSome ∨ p.discarded = true then s else setProd x { p with err := some st } s

/-- OPEN (R311, R312): an open packet stays, with STATE_REFUSED to be reported. -/
def reedOpen (n typ : Nat) (arg : Word) (s : State) : State :=
  let x := ctxOf n (s.core n).pl
  if (prodOf s x).isOpen then prodErr x stStateRefused s
  else
    let sink := bitOf arg.toNat 11
    let q := fld arg 0 11
    setProd x { isOpen := true, typ := typ, dest := q, sink := sink, fn := if bitOf arg.toNat 22 then some (fld arg 16 6) else none,
                err := if mayCommit s n sink q then none else some stNotPermitted } s

/-- Append words to the open packet (R312, R316). -/
def reedPut (n : Nat) (ws : List Word) (s : State) : State :=
  let x := ctxOf n (s.core n).pl
  let p := prodOf s x
  let g := ctxGable s x
  let total := p.words.length + ws.length
  let more := cellsOf total - cellsOf p.words.length
  if p.isOpen = false ∨ p.err.isSome = true ∨ p.discarded = true then s
  else if 1024 < total then prodErr x stRange s
  else if cellsFree s g < more then prodErr x stExhausted s
  else addCells g more (setProd x { p with words := p.words ++ ws } s)

/-- The status with which a COMMIT ends (R312, R322, R323). -/
def commitStatus (s : State) (n : Nat) (p : ProdCtx) : Nat :=
  if p.isOpen = false then stStateRefused
  else match p.err with
    | some e => e
    | none =>
      if p.discarded then stAborted
      else if p.words.isEmpty then stRange
      else if p.sink = true ∧ (if p.dest = 0 then sink0Admits p.typ else sink1Admits n p.typ) = false then stNotPermitted
      else if p.sink = false ∧ (queueOwner s p.dest).isNone = true then stAborted
      else stOk

/-- COMMIT (R312, R320): the packet becomes visible, or its cells return. The link takes a packet of sink 1 at once, and its
cells return with that (R316). -/
def reedCommit (n : Nat) (s : State) : Word × State :=
  let pl := (s.core n).pl
  let x := ctxOf n pl
  let p := prodOf s x
  let st := commitStatus s n p
  let s := setProd x {} s
  let s :=
    if st = stOk then
      let pkt : Packet := ⟨p.typ, p.words, sourceWord s n pl p.fn, gableOfCore s n, p.fn, x⟩
      if p.sink then (if p.dest = 0 then toSink 0 pkt s else drainSinkOne (toSink 1 pkt s)) else enqueue p.dest pkt s
    else
      let s := subCells (ctxGable s x) (cellsOf p.words.length) s
      if st = stNotPermitted then cause .rfb 1 s else if st = stExhausted then cause .rfb 0 s else s
  (BitVec.ofNat 32 (st * 0x10000), s)

/-- ABORT (R311, R319): the open packet goes. -/
def reedAbort (n : Nat) (s : State) : State :=
  let x := ctxOf n (s.core n).pl
  setProd x {} (subCells (ctxGable s x) (cellsOf (prodOf s x).words.length) s)

/-- A packet's descriptor (R313). -/
def descriptor (p : Packet) : Word := mkWord [(16, p.typ), (0, p.words.length)]

/-- Hand packet `i` of queue `q` to core `n` (R313). -/
def givePacket (n q i : Nat) (s : State) : Option (Word × State) :=
  match (queueOf s q)[i]? with
  | some p => some (descriptor p, setCons (ctxOf n (s.core n).pl) { pkt := some p } (setQueue q ((queueOf s q).eraseIdx i) s))
  | none => none

/-- The cores that wait on a queue, in order. -/
def waitersOf (s : State) (q : Nat) : List Nat := SMap.get [] s.rfb.waiters q

/-- TAKE (R313, R315): the first packets are those of the cores that already stall on the queue, one each, and the core receives
the next one. None where the core stalls. -/
def reedTake (n q : Nat) (s : State) : Option Word × State :=
  if mayTake s n q = false ∨ (consOf s (ctxOf n (s.core n).pl)).pkt.isSome = true then (some 0, cause .rfb 1 s)
  else match givePacket n q (waitersOf s q).length s with
    | some (d, s) => (some d, s)
    | none => (none, s)

/-- The core begins to stall in TAKE. -/
def stallTake (n q : Nat) (rd : BitVec 4) (s : State) : State :=
  let s := s.updCore n fun k => { k with phase := .stalledTake q rd.toNat }
  { s with rfb := { s.rfb with waiters := SMap.set [] s.rfb.waiters q (waitersOf s q ++ [n]) } }

/-- The words of a taken packet from its read position: words beyond it, and without a packet, are zero (R314). -/
def nextWords (c : ConsCtx) (k : Nat) : List Word :=
  match c.pkt with
  | some p => (List.range k).map fun i => p.words.getD (c.pos + i) 0
  | none => List.replicate k 0

/-- Advance the read position. -/
def advanceRead (n k : Nat) (s : State) : State :=
  let x := ctxOf n (s.core n).pl
  let c := consOf s x
  if c.pkt.isSome then setCons x { c with pos := c.pos + k } s else s

/-- RELEASE (R314). -/
def reedRelease (n : Nat) (s : State) : Word × State :=
  let x := ctxOf n (s.core n).pl
  let c := consOf s x
  match c.pkt with
  | some p => (0, setCons x {} (freePacket p s))
  | none => (BitVec.ofNat 32 ((if c.discarded then stAborted else stStateRefused) * 0x10000), setCons x {} s)

/-- INFO (R313): the source word of the taken packet, or zero. -/
def reedInfo (n : Nat) (s : State) : Word :=
  match (consOf s (ctxOf n (s.core n).pl)).pkt with
  | some p => p.src
  | none => 0

/-- COUNT (R310, R315). -/
def reedCount (n q : Nat) (s : State) : Word :=
  if mayTake s n q then
    mkWord [(16, ((queueOf s q).map fun p => cellsOf p.words.length).sum), (0, (queueOf s q).length)]
  else 0xFFFFFFFF

/-- May PUTB copy from this address: the core's own local data or its truss SRAM (R311)? -/
def putSource (n a : Nat) : Bool := decide (a < 0x4000) || (decide (n ≠ wardenNum) && decide (0x100000 ≤ a ∧ a < 0x140000))

/-- PUTB (R311, R312): the whole source extent is checked first. -/
def reedPutB (n : Nat) (a : Word) (len : Nat) (s : State) : State :=
  if a.toNat % 4 ≠ 0 then faultHere n exAlign s
  else if putSource n a.toNat = false then
    faultHere n exGate (recordRefusal (coreTag s n (s.core n).pl 0) tgtNone a.toNat len kRead rUnmapped none s)
  else match coreLoad n a.toNat len s with
    | (.ok bs, s) => copiDone n 0 none (reedPut n (wordsOf bs) s)
    | (.failed, s) => faultHere n exBus s
    | (.stall, s) => s
    | (_, s) => faultHere n exGate s

/-- GETB (R314): the whole destination extent is checked first. -/
def reedGetB (n : Nat) (a : Word) (len : Nat) (s : State) : State :=
  if a.toNat % 4 ≠ 0 then faultHere n exAlign s
  else match coreStore n a.toNat (bytesOf (nextWords (consOf s (ctxOf n (s.core n).pl)) (len / 4))) s with
    | (.ok _, s) => copiDone n 0 none (advanceRead n (len / 4) s)
    | (.stall, s) => s
    | (_, s) => faultHere n exGate s

/-- Hand a legal Reed command with argument word `arg` to the fabric. COMMIT waits for the core's WMA accesses (R320). -/
def reedHand (op : Nat) (o : ReedOp) (arg : Word) (n : Nat) (s : State) : State :=
  match op with
  | 0x01 => copiDone n 0 none (reedOpen n o.imm.toNat arg s)
  | 0x02 => copiDone n 0 none (reedPut n [arg] s)
  | 0x03 => reedPutB n arg o.imm.toNat s
  | 0x04 =>
    if accessesDone s n then
      let r := reedCommit n s
      copiDone n o.rd (some r.1) r.2
    else s
  | 0x05 => copiDone n 0 none (reedAbort n s)
  | 0x08 => match reedTake n (fld arg 0 11) s with
    | (some v, s) => copiDone n o.rd (some v) s
    | (none, s) => stallTake n (fld arg 0 11) o.rd s
  | 0x09 => copiDone n o.rd ((nextWords (consOf s (ctxOf n (s.core n).pl)) 1).head?) (advanceRead n 1 s)
  | 0x0A => reedGetB n arg o.imm.toNat s
  | 0x0B =>
    let r := reedRelease n s
    copiDone n o.rd (some r.1) r.2
  | 0x0C => copiDone n o.rd (some (reedInfo n s)) s
  | 0x0D => copiDone n o.rd (some (reedCount n (fld arg 0 11) s)) s
  | _ => s

/-- A Reed command as a command: the COPI that issues it, with the argument word in RA. -/
def reedRow (op : Nat) (c : CoreId) (o : ReedOp) (s : State) : Res :=
  let arg := (s.core (coreNum c)).reg o.ra.toNat
  .next (copiStep c (legalReed op o arg) (reedHand op o arg) s)

def execReedOpen (c : CoreId) (o : ReedOp) (s : State) : Res := reedRow 0x01 c o s
def execPutw (c : CoreId) (o : ReedOp) (s : State) : Res := reedRow 0x02 c o s
def execPutb (c : CoreId) (o : ReedOp) (s : State) : Res := reedRow 0x03 c o s
def execReedCommit (c : CoreId) (o : ReedOp) (s : State) : Res := reedRow 0x04 c o s
def execReedAbort (c : CoreId) (o : ReedOp) (s : State) : Res := reedRow 0x05 c o s
def execTake (c : CoreId) (o : ReedOp) (s : State) : Res := reedRow 0x08 c o s
def execGetw (c : CoreId) (o : ReedOp) (s : State) : Res := reedRow 0x09 c o s
def execGetb (c : CoreId) (o : ReedOp) (s : State) : Res := reedRow 0x0A c o s
def execRelease (c : CoreId) (o : ReedOp) (s : State) : Res := reedRow 0x0B c o s
def execInfo (c : CoreId) (o : ReedOp) (s : State) : Res := reedRow 0x0C c o s
def execCount (c : CoreId) (o : ReedOp) (s : State) : Res := reedRow 0x0D c o s

/-! ### COPI as encoded (R278) -/

/-- The fields of a WMA command word (R163) with its argument. -/
def wmaOfWord (rd : BitVec 4) (w arg : Word) : WmaOp :=
  ⟨rd, BitVec.ofNat 1 (fld w 26 1), BitVec.ofNat 2 (fld w 24 2), BitVec.ofNat 8 (fld w 16 8), BitVec.ofNat 8 (fld w 8 8),
   BitVec.ofNat 8 (fld w 0 8), arg⟩

/-- The fields of a Reed command word (R310). -/
def reedOfWord (rd ra : BitVec 4) (w : Word) : ReedOp :=
  ⟨rd, ra, BitVec.ofNat 11 (fld w 16 11), BitVec.ofNat 16 (fld w 0 16)⟩

/-- COPI: UNIT 0 the WMA unit, UNIT 1 the Reed fabric, others illegal. -/
def execCopi (c : CoreId) (f : FmtC) (s : State) : Res :=
  let arg := (s.core (coreNum c)).reg f.ra.toNat
  let op := fld f.cmd 27 5
  let w := wmaOfWord f.rd f.cmd arg
  let r := reedOfWord f.rd f.ra f.cmd
  let legal := f.z == 0 && (if f.unit = 0 then legalWma c op w else f.unit == 1 && legalReed op r arg)
  .next (copiStep c legal (fun n => if f.unit = 0 then wmaHand op w n else reedHand op r arg n) s)

/-! ### The end of a stall (R279, R315) -/

/-- A stalled TAKE of the first waiter receives the packet at the head of its queue. -/
def takeResume (n : Nat) (s : State) : State :=
  match (s.core n).phase with
  | .stalledTake q rd =>
    if (waitersOf s q).head? = some n then
      match givePacket n q 0 s with
      | some (d, s) => copiDone n (BitVec.ofNat 4 rd) (some d) (dropWaiter n s)
      | none => s
    else s
  | _ => s

/-- A COPI that stalled on a full WMA queue is accepted once there is room. -/
def copiResume (n : Nat) (s : State) : State :=
  match (s.core n).phase with
  | .stalledCopi op o => match wmaIssue (trussOf n) (coreInTruss n) (s.core n).pl op o s with
    | (some v, t) => copiDone n o.rd v t
    | (none, _) => s
  | _ => takeResume n s

def execTakeResume (c : CoreId) (s : State) : Res :=
  .next (if coreClocked s (coreNum c) then takeResume (coreNum c) s else s)
def execCopiStallEnd (c : CoreId) (s : State) : Res :=
  .next (if coreClocked s (coreNum c) then copiResume (coreNum c) s else s)

/-! ### Cache fills and debug (R338 to R340, R365) -/

/-- CACHE_FILL: a fill of the warden's instruction cache at a core address in flash, `array` what the array returns. -/
def execCacheFill (addr : Nat) (array : LineRead) (s : State) : Res :=
  .next (if wardenUp s = true ∧ 0x20000000 ≤ addr ∧ addr < 0x24000000 then (fillLine wardenNum addr array s).2 else s)

/-- What JTAG shows of a read of `len` bytes. -/
def jtagOut (len : Nat) (bs : List Byte) (s : State) : State := emit (.jtagData (BitVec.ofNat 64 (leNat (bs.take len)))) s

/-- A debug load or store with the tag of the selected core: a refusal is recorded and raises no exception; a locked read
returns 0xDEAD_BEEF in every word, another refused read zero. An access that waits for sealed memory or for the flash array has not been made (R225,
R357). -/
def debugAccess (n : Nat) (write : Bool) (a len : Nat) (v : Dword) (s : State) : State :=
  let k := if write then kWrite else kRead
  match tagAdmits s (debugTag s n) n a len k with
  | (.pass, tgt, off) =>
    if sealedWaits s tgt || (!write && (tgt == tgtFlash || tgt == tgtFlash0) && readWaits s) then s
    else if write then targetWrite n tgt off (leBytes len v.toNat) s
    else
      let r := targetRead n tgt off len s
      jtagOut len (r.1.getD (List.replicate len 0)) r.2
  | (.refuse why e, tgt, off) =>
    let s := recordRefusal (debugTag s n) tgt off len k why e s
    if write then s
    else if why = rDebugLocked then jtagOut len [0xEF, 0xBE, 0xAD, 0xDE, 0xEF, 0xBE, 0xAD, 0xDE] s
    else jtagOut len (List.replicate len 0) s

/-- DEBUG_ACCESS: only in DEV; sizes 1, 2, 4 and 8, aligned. -/
def execDebugAccess (c : CoreId) (write : Bool) (addr : Word) (len : Nat) (value : Dword) (s : State) : Res :=
  .next (if lifecycle s = lcDev ∧ powered s = true ∧ [1, 2, 4, 8].contains len = true ∧ addr.toNat % len = 0 then
    debugAccess (coreNum c) write addr.toNat len value s else s)

end Sys2Proof.Machine
end

