-- ==== Sys2Proof/Machine/Services.lean ====
section
/-! DEFINITION. How the gable runtime carries out a native command (04_transaction_services.md, R102 to R113, R118,
R119, R506): the order of checks, its keys, its source data, its result, and changes to the key store (R131, R136,
R137). The commands themselves stand in the files that follow. -/

namespace Sys2Proof.Machine

/-- What a command's work answers: it ends with a status, RESULT, INLINE and destination bytes, or it waits. -/
inductive Answer where
  | ends (status result : Nat) (inl dest : List Byte) (s : State)
  | waits (s : State)

/-- A key that a command uses: its handle, and the policy that its role asks for (R110). -/
structure KeyRole where
  handle  : Nat
  permits : LoadedKey → Bool

/-- What the service table holds for one native opcode: what checks 1 to 8 ask, and the work of check 9. -/
structure Service where
  opcode   : Nat
  classK   : Bool := true
  /-- KEY must be zero. -/
  keyZero  : Bool := false
  /-- Reserved PARAM bytes and bits are clear (R96, R103). -/
  clear    : List Byte → Bool
  /-- Check 3: handles, counter indices and tariff indices of PARAM, and spans (R234). -/
  ranges   : State → Nat → List Byte → Bool := fun _ _ _ => true
  /-- The extent of sealed memory that check 4 reads: a target's directory entry, a tariff slot. -/
  sealed   : State → Nat → List Byte → Option (Nat × Nat) := fun _ _ _ => none
  /-- Check 4: the command state permits the command (R112). -/
  ready    : State → Nat → List Byte → Bool := fun _ _ _ => true
  /-- Check 5: OK, or the status of the first field that fails. -/
  fields   : List Byte → Nat := fun _ => stOk
  /-- Result size that PARAM decides, where it goes to DST unless it is short (R118). -/
  size     : List Byte → Nat := fun _ => 0
  short    : Bool := false
  /-- The command reads SRC. -/
  source   : Bool := false
  /-- Keys, in the order in which they are resolved. -/
  keys     : List Byte → List KeyRole := fun _ => []
  /-- Its work drives the WMA unit of its core (R504). -/
  wma      : List Byte → Bool := fun _ => false
  /-- The work, given the command, the truss of its worker, the entry, SRC and the keys. -/
  work     : CmdRef → Nat → List Byte → List Byte → List LoadedKey → State → Answer

/-! ### The service table (R102, R143) -/

/-- The opcodes of R102. -/
def nativeOpcodes : List Nat :=
  [0x0000, 0x0100, 0x0101, 0x0110, 0x0111, 0x0120, 0x0128, 0x0129, 0x0130, 0x0131, 0x0140, 0x0141, 0x0142, 0x0143,
    0x0144, 0x0145, 0x0150, 0x0151, 0x0160, 0x0161, 0x0170, 0x0171, 0x0180, 0x0190, 0x01A0, 0x01A1, 0x01F0, 0x01F1]

/-- The command whose install step the gable's runtime has before it (R156). -/
def installWaits (s : State) (g : Nat) : Option CmdRef :=
  match SMap.get none s.svc.waiting g with
  | some r => if (findCmd s r).isSome then some r else none
  | none => none

/-- The installed package of a gable. -/
def installed (s : State) (g : Nat) : Option Package := SMap.get none s.svc.pkgs g

/-- The entry of the installed package for a tenant opcode. -/
def tenantOpcode (s : State) (g op : Nat) : Option (Nat × Nat × Nat × Nat) :=
  (installed s g).bind fun p => p.opcodes.find? fun o => o.1 == op

/-- Is an opcode in the gable's service table? -/
def inTable (s : State) (g op : Nat) : Bool :=
  (nativeOpcodes.contains op && !((op == 0x0170 || op == 0x0171) && decide ((gableCfg s g).sealedLen = 0)))
    || (tenantOpcode s g op).isSome

/-! ### Checks (R103) -/

/-- The suspension reasons that hold for a gable (R115). -/
def reasonsOf (s : State) (g : Nat) : Nat :=
  SMap.get 0 s.svc.reasons g % 2 + 2 * b2n (s.ks.phase != .isOpen) + 4 * b2n (bitOf (SMap.get 0 s.svc.reasons g) 2)

/-- Check 4 for a class K command: the gable state (R112), in which a command granted before a GABLE_RESUME completed still
finds HOST set (R117), and an isolated member after HOLD (R444). -/
def gableStatus (s : State) (r : CmdRef) : Nat :=
  if s.svc.diverg then stDivergent
  else if reasonsOf s r.fn ≠ 0 ∨ (SMap.get [] s.svc.stale r.fn).contains r = true then stStateRefused
  else if s.btn.role = .isolated ∧ s.btn.holdOut = true then stLinkLost
  else stOk

/-- An extent of a sub-command: core addresses of the worker's truss SRAM that the runtime, at Supervisor level, may access
(R155). -/
def subExtent (s : State) (n a len k : Nat) : Bool :=
  len == 0 || (decide (0x100000 ≤ a ∧ a + len ≤ 0x140000)
    && gateDecide s (coreTag s n 1 0) (trussOf n) (a - 0x100000) len k == .pass)

/-- Check 6 for the extents: SRC in a READ window, DST in a WRITE window (R94). A command served for a peer makes no
host access, and those of a sub-command lie in truss SRAM (R155). -/
def extentsOk (s : State) (r : CmdRef) (e : List Byte) : Bool :=
  if isSub r then
    subExtent s (r.ring - 128) (eSrc e) (eSrcLen e) kRead && subExtent s (r.ring - 128) (eDst e) (eDstLen e) kWrite
  else isServed r
    || ((eSrcLen e == 0 || inWindow s r.fn (eSrc e) (eSrcLen e) 0) && (eDstLen e == 0 || inWindow s r.fn (eDst e) (eDstLen e) 1))

/-- Does a result of `n` bytes fit in DST, or in INLINE where it is short (R94, R118)? -/
def sizeOk (short : Bool) (n : Nat) (e : List Byte) : Bool :=
  decide (n ≤ eDstLen e) || (short && eDstLen e == 0)

/-- Status of the first of checks 2 to 4 that fails before anything of sealed memory is looked at. -/
def entryChecks (v : Service) (r : CmdRef) (e : List Byte) (s : State) : Nat :=
  firstFail
    [(v.keyZero || handleInRange s r.fn (eKey e), stNotPermitted),
     (v.ranges s r.fn e, stNotPermitted),
     (!v.classK || gableStatus s r == stOk, gableStatus s r)]

/-- Status of the first of checks 2 to 6 that fails. -/
def earlyChecks (v : Service) (r : CmdRef) (e : List Byte) (s : State) : Nat :=
  firstFail
    [(entryChecks v r e s == stOk, entryChecks v r e s),
     (v.ready s r.fn e, stStateRefused),
     (v.fields e == stOk, v.fields e),
     (!(v.short && eDstLen e == 0 && decide (48 < v.size e)), stRange),
     (extentsOk s r e, stNotPermitted),
     (sizeOk v.short (v.size e) e, stRange)]

/-- Check 8: every key's policy permits its role, and PAVANE_ONLY is clear or the gable runs in Pavane (R110). -/
def policiesOk (s : State) (g : Nat) (roles : List KeyRole) (keys : List LoadedKey) : Bool :=
  (List.zipWith (fun (r : KeyRole) k => r.permits k && (!pBit k.policy 23 || isPavane s g)) roles keys).all id

/-- A role's usage and mode bit. -/
def roleIs (usage bit : Nat) (k : LoadedKey) : Bool := pUsage k.policy == usage && pBit k.policy bit

/-! ### Answers (R118) -/

/-- A failure. -/
def failed (status : Nat) (s : State) : Answer := .ends status 0 [] [] s

/-- OK, or VERIFY_FAILED. -/
def verdict (b : Bool) (s : State) : Answer := .ends (if b then stOk else stVerifyFailed) 0 [] [] s

/-- A short result: to INLINE from byte 16 where DST_LEN is zero, else to DST. -/
def shortResult (e res : List Byte) (result : Nat) (s : State) : Answer :=
  if eDstLen e = 0 then .ends stOk result res [] s else .ends stOk result [] res s

/-- Draw bytes from the worker truss's DRBG; a DRBG in its error state ends the command with INTEGRITY (R206). -/
def withDraw (t n : Nat) (s : State) (f : List Byte → State → Answer) : Answer :=
  match drbgDraw t n false s with
  | (some b, u) => f b u
  | (none, u) => failed stIntegrity u

/-! ### Running a command -/

/-- The command that `r` names, where the runtime may work on it now: its entry is in its queue, it has not finished, no
peer holds it, and its chain has come to it (R90). -/
def runnable (s : State) (r : CmdRef) : Option Cmd :=
  match findCmd s r with
  | some c => if c.committed && !c.finished && c.fwd.isNone && r.fn != 0 && trussClocks s && chainTurn s r then some c else none
  | none => none

/-- A command's work is done: with OK its destination bytes go out, and it completes. Where the gable's cells do not
suffice for them, the command's work has not begun. -/
def settle (r : CmdRef) (e : List Byte) (before : State) : Answer → State
  | .waits s => s
  | .ends st result inl dest s =>
    if offRing r ∨ hostWriteCells dest.length + 2 ≤ cellsFree s r.fn then
      endCmd r st result inl (if st = stOk then commitHostWrites r (eDst e) dest s else s)
    else before

/-- A handle that does not resolve on a rafter is looked up again once the ridge's latest changes have come (R441);
elsewhere the command ends with INVALID_KEY. -/
def missingKey (r : CmdRef) (c : Cmd) (s : State) : State :=
  match s.btn.table with
  | some t =>
    if s.btn.role = .rafter ∧ ridgeRoute s = true ∧ c.synced = false then
      if c.asked then s
      else sendControl t.ridge ctlMissing (leBytes 8 s.ks.seq) (updCmd r (fun x => { x with asked := true }) s)
    else endCmd r stInvalidKey 0 [] s
  | none => endCmd r stInvalidKey 0 [] s

/-- The curve with which a command's work loads its WMA context, where the keys or PARAM name one. -/
def workCurve (e : List Byte) (keys : List LoadedKey) : Option Curve :=
  (keys.head?.bind fun k => curveOf (pAlg k.policy)).or (curveOf (eParam e 48 1))

/-- A free word of operand memory that is not tagged KEY. -/
def freeWord (rand : Bool) (s : State) : WmaWord × State :=
  let d := drawBytes 9 s
  (⟨BitVec.ofNat 64 (leAt d.1 0 8), false, rand && bitOf (leAt d.1 8 1) 0⟩, d.2)

/-- Free words from address `a` of a unit's operand memory on. -/
def freeWords (t : Nat) (rand : Bool) : Nat → Nat → State → State
  | 0, _, s => s
  | k + 1, a, s =>
    let d := freeWord rand s
    freeWords t rand k (a + 1) (setWma t { wmaOf d.2 t with mem := SMap.set {} (wmaOf d.2 t).mem a d.1 } d.2)

/-- What a command that completes normally leaves in its core's WMA context (R178): the sequence that the runtime issues is
not given, so operands and swap state are free, no operand holds a KEY word, and the modulus is the curve's p or n. The
blinding draws have advanced the truss's DRBG (R104, R205) by requests whose number is not given. -/
def wmaLeft (n : Nat) (k : Option Curve) (s : State) : State :=
  let t := trussOf n
  let c := coreInTruss n
  let rand := randomised s t
  let r := privRegion s t c
  let s := freeWords t rand r.2 r.1 s
  let d := drawBytes 2 s
  let w := wmaOf d.2 t
  let bit := fun (i : Nat) => bitOf (leAt d.1 0 1) i
  let x := wmaCtx w c
  let s := setWma t (w.setCtx c { x with
    m := match k with
      | some q => if bit 0 then q.p else q.n
      | none => x.m
    w := match k with
      | some q => q.len / 8
      | none => x.w
    sw := bit 1
    last := bit 2 }) d.2
  if rand then
    let f := drawBytes 66 s
    setDrbg t { drbgOf f.2 t with
      since := leAt f.1 64 2
      key := f.1.take 32
      v := slice f.1 32 16
      last := slice f.1 48 16 } f.2
  else s

/-- The runtime clears the sticky bits that MSTAT clears in core `n`'s WMA context before it drives it (R177). -/
def wmaBegin (n : Nat) (s : State) : State :=
  let w := wmaOf s (trussOf n)
  let x := wmaCtx w (coreInTruss n)
  setWma (trussOf n) (w.setCtx (coreInTruss n) { x with sticky := x.sticky &&& ~~~(0x7F00 : Word) }) s

/-- Work that drives the WMA context of core `n` (R169, R170, R177, R178). The runtime clears the context's sticky bits
first; in Pavane two executions of an instruction may differ; a context that shows ILLOP at the end, the one of the bits of
R177 that MSTAT does not clear, ends the command with INTEGRITY. -/
def wmaWork (n : Nat) (e : List Byte) (keys : List LoadedKey) (work : State → Answer) (s : State) : Answer :=
  let t := trussOf n
  let c := coreInTruss n
  let s := wmaBegin n s
  let d := drawBelow 2 1 s
  if pavaneTruss s t = true ∧ d.1 = 1 then failed stIntegrity (wmaMismatch t c d.2)
  else match work (if pavaneTruss s t then d.2 else s) with
    | .waits u => .waits u
    | .ends st result inl dest u =>
      if st = stOk ∨ st = stVerifyFailed ∨ st = stInvalidKey then
        if bitOf (wmaCtx (wmaOf u t) c).sticky.toNat 5 then failed stIntegrity u
        else .ends st result inl dest (wmaLeft n (workCurve e keys) u)
      else .ends st result inl dest u

/-- The next key of a command (R16, R25, R111, R197): it asks for a loader of its gable's pipeline, waits until one has begun
the load, and then resolves the key once. In Pavane the two loaders may differ. -/
def loadNext (r : CmdRef) (c : Cmd) (k : KeyRole) (s : State) : State :=
  match c.load with
  | none => serveLoads (updCmd r (fun x => { x with
      load := some ((gablePipe s r.fn).getD 0)
      begun := false }) s)
  | some p =>
    if c.begun = false ∨ loadWaits s k.handle = true then serveLoads s
    else
      match loadKey r.fn k.handle (updCmd r (fun x => { x with
        load := none
        begun := false }) s) with
      | (st, none, t) => if st = stInvalidKey then missingKey r c t else endCmd r st 0 [] t
      | (_, some key, t) =>
        let d := drawBelow 2 1 t
        if isPavane s r.fn = true ∧ d.1 = 1 then endCmd r stIntegrity 0 [] (loaderMismatch p d.2)
        else updCmd r (fun x => { x with keys := x.keys ++ [key] }) (if isPavane s r.fn then d.2 else t)

/-- Checks 7 and 8 and the work, once SRC is at hand (R103, R506): each activation loads one key, and with all of them
loaded the policies are judged and the work is done. -/
def carryOut (v : Service) (r : CmdRef) (c : Cmd) (truss : Nat) (src : Nat × List Byte) (s : State) : State :=
  let roles := v.keys c.entry
  match roles[c.keys.length]? with
  | some k => loadNext r c k s
  | none =>
    if policiesOk s r.fn roles c.keys = false then endCmd r stPolicyRefused 0 [] s
    else if src.1 ≠ stOk then endCmd r src.1 0 [] s
    else
      let work := v.work r truss c.entry src.2 c.keys
      settle r c.entry s (if v.wma c.entry then wmaWork (c.core.getD (4 * truss)) c.entry c.keys work s else work s)

/-- A key-store change that this command waits for: still on its way to the ridge (R440). -/
def planWaits (s : State) (p : Plan) : Bool :=
  p.agreed.isNone && s.btn.table.isSome && (s.btn.role != .ridge || s.btn.electing)

/-- Go on with a command that has passed checks 1 to 6: its change has been agreed, or SRC is at hand. -/
def proceed (v : Service) (r : CmdRef) (c : Cmd) (truss : Nat) (s : State) : State :=
  match c.plan with
  | some p =>
    if planWaits s p then s
    else match p.agreed with
      | some gen =>
        let h := if p.store then leBytes 8 (mkHandle p.resident gen p.index) else []
        settle r c.entry s (.ends stOk p.dest.length (h ++ p.inline) p.dest s)
      | none => carryOut v r { c with plan := none } truss (stOk, match c.src with
          | .got b => b
          | _ => []) (updCmd r (fun x => { x with plan := none }) s)
  | none => match c.src with
    | .waiting => s
    | .failed st => carryOut v r c truss (st, []) s
    | .none => carryOut v r c truss (stOk, []) s
    | .got b =>
      match if offRing r || c.here then none else forwardPeer s r c.entry with
      | some m => forwardCmd r c.entry b m s
      | none => carryOut v r c truss (stOk, b) s

/-- Does an inbound queue of the gable's runtime hold an entry packet (R504)? -/
def entriesQueued (s : State) (g : Nat) : Bool :=
  s.rfb.queues.any fun q => queueOwner s q.1 == some g && q.2.any fun p => p.typ == 1

/-- The logical cores that may take up a native command (R504): those of the gable's live trusses that run no tenant program,
without the dispatch core where the command uses a WMA unit or an entry waits to be dispatched; where that leaves none, it
goes to the dispatch core. -/
def workerCores (v : Service) (r : CmdRef) (e : List Byte) (s : State) : List Nat :=
  let all := (liveTrusses s r.fn).flatMap fun t => (List.range (coresPer s r.fn)).map (4 * t + ·)
  let free := all.filter fun n => !(s.hqi.cmds.any fun c => c.worker == some n && !c.finished)
  let away := free.filter fun n => n != dispatchOf s r.fn
  let away := if away.isEmpty then all.filter fun n => n != dispatchOf s r.fn else away
  let cs := if v.wma e || entriesQueued s r.fn then away else free
  if cs.isEmpty then [dispatchOf s r.fn] else cs

/-- The dispatch core hands a checked command to a worker core, which reads SRC (R29, R94, R504). A sub-command stays with the
core of its program and reads its truss SRAM (R155). -/
def dispatch (v : Service) (r : CmdRef) (c : Cmd) (s : State) : State :=
  let cs := workerCores v r c.entry s
  let d := drawBelow cs.length 1 s
  let n := if isSub r then r.ring - 128 else cs.getD d.1 0
  let s := if isSub r then s else d.2
  let reads := v.source && decide (0 < eSrcLen c.entry)
  if offRing r ∨ reads = false then
    let c := { c with
      truss := some (trussOf n)
      core := some n
      src := if isServed r then c.src
        else if isSub r ∧ reads = true then .got (Memory.read 0 (s.truss (trussOf n)).sram (eSrc c.entry - 0x100000) (eSrcLen c.entry))
        else .got [] }
    proceed v r c (trussOf n) (updCmd r (fun _ => c) s)
  else
    let u := updCmd r (fun x => { x with
      truss := some (trussOf n)
      core := some n
      src := .waiting }) s
    issueRead (.cmd r) r.fn (eSrc c.entry) (eSrcLen c.entry) { u with hqi := { u.hqi with reads := u.hqi.reads ++ [.cmd r] } }

/-- What check 4 reads of sealed memory: none where it waits for initialisation (R225); else whether it verified (R222,
R224). -/
def sealedLook (v : Service) (r : CmdRef) (e : List Byte) (s : State) : Option (Bool × State) :=
  match v.sealed s r.fn e with
  | some (a, n) =>
    if entryChecks v r e s ≠ stOk then some (true, s)
    else if s.msu.inited = false then none
    else some (verifyLines (a / 64) true true (lineCount a n) s)
  | none => some (true, s)

/-- Checks 2 to 6, and on. A line of sealed memory that fails ends the command with INTEGRITY (R224). -/
def serve (v : Service) (r : CmdRef) (c : Cmd) (s : State) : State :=
  match c.truss with
  | some t => proceed v r c t s
  | none => match sealedLook v r c.entry s with
    | none => s
    | some (false, s) => endCmd r stIntegrity 0 [] s
    | some (true, s) =>
      let st := earlyChecks v r c.entry s
      if st = stOk then dispatch v r c s else endCmd r st 0 [] s

/-- Does an entry depart from chapter 3 or from its opcode's definition in a way that R103 gives no status (R96)? -/
def malformedFor (v : Service) (e : List Byte) : Bool := entryReserved e || (v.keyZero && eKey e != 0) || !v.clear e

/-- A command ends with some STATUS, RESULT and INLINE. -/
def endAnyhow (r : CmdRef) (s : State) : State :=
  let d := drawBytes 54 s
  endCmd r (leAt d.1 0 2) (leAt d.1 2 4) (d.1.drop 6) d.2

/-- Some byte of some truss SRAM of gable `g` takes some value. -/
def disturbTruss (g : Nat) (s : State) : State :=
  let ts := liveTrusses s g
  let d := drawBytes 5 s
  let t := ts.getD (leAt d.1 0 1 % ts.length) 0
  if ts.isEmpty then d.2
  else d.2.updTruss t fun x => { x with sram := Memory.write 0 x.sram (leAt d.1 1 3 % 0x40000) (d.1.drop 4) }

/-- A malformed entry (R96) has an undefined result in the sense of R2, within its gable. A free value decides: it stalls
where it stands (`stalled`); it completes with some STATUS, RESULT and INLINE; it vanishes without a completion (R80); or it
completes so and leaves something else in a truss SRAM of its gable (from `taken`; DESIGN CHOICE, log 301). -/
def malformed (r : CmdRef) (stalled taken : State) : State :=
  let pick := drawBytes 1 stalled
  let taken := { taken with free := pick.2.free }
  match leNat pick.1 % 4 with
  | 0 => pick.2
  | 1 => endAnyhow r taken
  | 2 => dropCmd r taken
  | _ => endAnyhow r (disturbTruss r.fn taken)

/-- The pseudo-opcode under which BLOCK stands in a sub-command's entry (R155); no ring entry has it. -/
abbrev blockOpcode : Nat := 0x7FFF

/-- One step of the gable runtime on the command that `r` names, as the service `v`. A command of another opcode is left
to that opcode's row, a tenant command is held while an install step waits (R156), and a command that is not to be worked
on now leaves the state as it is. -/
def native (v : Service) (r : CmdRef) (s : State) : Res :=
  match runnable s r with
  | none => .next s
  | some c =>
    let u := takeEntryPacket r s
    if (liveTrusses s r.fn).isEmpty then .next (endCmd r stAborted 0 [] u)
    else if c.bad then .next (malformed r s u)
    else if isSub r = true ∧ eOpcode c.entry = blockOpcode then .next s
    else if 0x8000 ≤ eOpcode c.entry ∧ (installWaits s r.fn).isSome = true then .next s
    else if inTable s r.fn (eOpcode c.entry) = false then .next (endCmd r stUnsupported 0 [] u)
    else if eOpcode c.entry ≠ v.opcode then .next s
    else if malformedFor v c.entry then .next (malformed r s u)
    else .next (serve v r c u)

/-! ### Changes to the key store (R131, R136, R137, R234) -/

/-- Does the span of a store from an index lie inside the gable's range (R234)? -/
def spanInRange (s : State) (g : Nat) (resident : Bool) (i alg len : Nat) : Bool :=
  (List.range (if resident then 1 else 2 ^ spanLog2 alg len)).all fun k => indexOwned s g resident (i + k)

/-- Is a target index a multiple of the span? A resident key takes one index. -/
def spanAligned (resident : Bool) (i alg len : Nat) : Bool := resident || decide (i % 2 ^ spanLog2 alg len = 0)

/-- Is every slot of the span free? -/
def spanFree (s : State) (g : Nat) (resident : Bool) (i alg len : Nat) : Bool :=
  (List.range (if resident then 1 else 2 ^ spanLog2 alg len)).all fun k => slotFree s resident g (i + k)

/-- Whether this module commits changes itself: alone, or as the ridge. -/
def commitsHere (s : State) : Bool := s.btn.table.isNone || (s.btn.role == .ridge && !s.btn.electing)

/-- Make a change here, and send it on as the ridge: true where it was made. -/
def changeHere (resident : Bool) (x : LogRec) (s : State) : Bool × State :=
  let c := commitChange resident x s
  let t := c.2
  (c.1, if c.1 = true ∧ t.btn.table.isSome = true then
    sendControls (reachables t) ctlChange (changeBytes t.btn.member resident x) t else t)

/-- Hand a change to the ridge and wait for it (R440); without a route it is not made (R137, R444). -/
def changeThere (r : CmdRef) (resident : Bool) (x : LogRec) (inl dest : List Byte) (s : State) : Answer :=
  match s.btn.table with
  | some t =>
    if s.btn.role = .ridge ∨ ridgeRoute s = true then
      let u := if s.btn.role = .ridge then s
        else sendControl t.ridge ctlChange (changeBytes s.btn.member resident x) s
      let order := 1 + (s.hqi.cmds.filterMap (·.plan)).foldl (fun m p => max m p.order) 0
      let plan : Plan := { resident := resident, index := x.index, store := x.store, inline := inl, dest := dest, order := order }
      .waits (updCmd r (fun c => { c with plan := some plan }) u)
    else failed stLinkLost s
  | none => failed stLinkLost s

/-- May a change be made now: OK, SUSPENDED where the slot log has no room (R248), or none where it waits for a place in
the buffer (R239)? -/
def changeGate (resident : Bool) (s : State) : Option Nat :=
  if resident then some stOk
  else if logHasRoom s = false then some stSuspended
  else if bufHasPlace s then some stOk
  else none

/-- Store a key in a target (R131, R134, R135): the completion carries the new handle, then `inl`, and `dest`. -/
def storeKey (r : CmdRef) (target : Nat) (policy : Word) (secret pub inl dest : List Byte) (s : State) : Answer :=
  let res := hResident target
  let i := hIndex target
  let d := readDir res i (2 ^ spanLog2 (pAlg policy) secret.length) s
  let s := d.2
  if d.1 = false then failed stIntegrity s
  else if spanFree s r.fn res i (pAlg policy) secret.length = false then failed stStateRefused s
  else match changeGate res s with
    | none => .waits s
    | some st =>
      if st ≠ stOk then failed st s
      else
        let x := storeRec s r.fn res i policy secret pub
        if commitsHere s then match changeHere res x s with
          | (true, t) => .ends stOk dest.length (leBytes 8 (mkHandle res x.gen i) ++ inl) dest t
          | (false, t) => failed stExhausted t
        else changeThere r res x inl dest s

/-- Key check value (R131): the leftmost 3 bytes of the encipherment of a zero block; zero for other keys. -/
def checkValue (k : LoadedKey) : List Byte :=
  let a := pAlg k.policy
  if algTdes a || algAes a then (blockEnc a k.secret (List.replicate (algBlock a) 0)).take 3 else [0, 0, 0]

/-- A key target: a handle of PARAM bytes 40 to 47. -/
def eTarget (e : List Byte) : Nat := eParam e 40 8

end Sys2Proof.Machine
end

