-- ==== Sys2Proof/Machine/KeyServices.lean ====
section
/-! DEFINITION. Key import, export, generation, deletion and description (04_transaction_services.md, R131 to R137). The
steps of ISO 20038 (the version D key block of TR-31) are taken from that standard (PRESUMED). -/

namespace Sys2Proof.Machine

/-! ### Key blocks (ISO 20038, version D; R132) -/

/-- The upper-case hexadecimal digits of bytes. -/
def hexOf (bs : List Byte) : List Byte :=
  bs.flatMap fun b => [b.toNat / 16, b.toNat % 16].map fun n => BitVec.ofNat 8 (if n ≤ 9 then 48 + n else 55 + n)

/-- The value of a hexadecimal digit. -/
def hexDigit (b : Byte) : Option Nat :=
  let n := b.toNat
  if 48 ≤ n ∧ n ≤ 57 then some (n - 48) else if 65 ≤ n ∧ n ≤ 70 then some (n - 55) else none

/-- Bytes from hexadecimal digits. -/
def ofHex (ds : List Byte) : Option (List Byte) :=
  if ds.length % 2 = 0 ∧ ds.all (fun d => (hexDigit d).isSome) = true then
    some ((chunks 2 ds).map fun p => BitVec.ofNat 8 (16 * ((hexDigit (p.getD 0 0)).getD 0) + (hexDigit (p.getD 1 0)).getD 0))
  else none

/-- A decimal number in ASCII. -/
def ofDecimal (ds : List Byte) : Option Nat :=
  if ds.all (fun d => decide (48 ≤ d.toNat ∧ d.toNat ≤ 57)) = true then some (ds.foldl (fun a d => 10 * a + (d.toNat - 48)) 0) else none

/-- A decimal number of `n` digits in ASCII. -/
def toDecimal (n v : Nat) : List Byte := (List.range n).reverse.map fun i => BitVec.ofNat 8 (48 + v / 10 ^ i % 10)

/-- A key derived from a key-block protection key: `use` 0 enciphers, 1 authenticates. -/
def blockKey (kbpk : List Byte) (use : Byte) : List Byte :=
  let n := kbpk.length
  let alg : Byte := if n = 16 then 2 else if n = 24 then 3 else 4
  ((if n = 16 then [1] else [1, 2]).flatMap fun c => aesCmac kbpk ([c, 0, use, 0, 0, alg] ++ beBytes 2 (8 * n))).take n

/-- The key usage code of a USAGE (R109). -/
def usageCode (u : Nat) : Option (List Byte) :=
  (match u with
    | 1 => some "P0" | 2 => some "V0" | 3 => some "B0" | 4 => some "B1" | 5 => some "M1" | 6 => some "M3" | 7 => some "M6"
    | 8 => some "M7" | 9 => some "C0" | 0xA => some "E0" | 0xB => some "K1" | 0xC => some "S0" | 0xD => some "91"
    | 0x10 => some "D0" | _ => none).map ascii

/-- The USAGE of a key usage code. -/
def usageOf (code : List Byte) : Option Nat := (List.range 17).find? fun u => usageCode u == some code

/-- Mode bits (ENC, DEC, WRAP, UNWRAP, DERIVE as bits 16 to 20 of a policy) that a mode of use gives for a usage and an
ALG (R132). -/
def modeBits (mode : Byte) (usage alg : Nat) : Option (List Nat) :=
  let k1 := usage == 0xB
  match mode.toNat with
  | 66 => some [16, 17]
  | 67 => some [16, 17]
  | 68 => some (if k1 then [19] else [17])
  | 69 => some (if k1 then [18] else [16])
  | 71 => some [16]
  | 86 => some [17]
  | 83 => some [16]
  | 88 => some [20]
  | 78 => some
      (if k1 then [18, 19] else if usage = 3 ∨ usage = 4 ∨ usage = 0xA then [20] else if usage = 0x10 then [16, 17, 20]
        else if algPrivate alg then [16] else [16, 17])
  | _ => none

/-- Optional blocks of a header: identifier and data; none where one has no length of its own. -/
def optBlocks : Nat → List Byte → Option (List (List Byte × List Byte) × List Byte)
  | 0, bs => some ([], bs)
  | n + 1, bs =>
    match ofHex (slice bs 2 2) with
    | some [l] =>
      if l.toNat < 4 ∨ bs.length < l.toNat then none
      else (optBlocks n (bs.drop l.toNat)).map fun p => ((bs.take 2, slice bs 4 (l.toNat - 4)) :: p.1, p.2)
    | _ => none

/-- A key block whose header R132 admits. -/
structure KeyBlock where
  usage  : Nat
  alg    : Byte
  mode   : Byte
  expo   : Byte
  opts   : List (List Byte × List Byte)
  header : List Byte
  rest   : List Byte
deriving DecidableEq, Repr

/-- Read a key block's header; none where it holds a value outside R132. -/
def parseBlock (b : List Byte) : Option KeyBlock :=
  let alg := b.getD 7 0
  let expo := b.getD 11 0
  match usageOf (slice b 5 2), ofDecimal (slice b 12 2) with
  | some u, some n =>
    match optBlocks n (b.drop 16) with
    | some (opts, rest) =>
      let ok := b.take 1 == ascii "D" && (ascii "ATEH").contains alg && (modeBits (b.getD 8 0) u 0).isSome && (ascii "ENS").contains expo
        && slice b 14 2 == ascii "00" && opts.all fun o => [ascii "KC", ascii "KS", ascii "PB"].contains o.1
      if ok then some ⟨u, alg, b.getD 8 0, expo, opts, b.take (b.length - rest.length), rest⟩ else none
    | none => none
  | _, _ => none

/-- The payload of a key block whose MAC verifies under a key-block protection key. -/
def openKeyBlock (kbpk : List Byte) (k : KeyBlock) : Option (List Byte) :=
  match ofHex (k.rest.take (k.rest.length - 32)), ofHex (k.rest.drop (k.rest.length - 32)) with
  | some ct, some mac =>
    if ct.length % 16 = 0 ∧ 0 < ct.length ∧ mac.length = 16 then
      let pt := cbcDec 16 (aesDec (blockKey kbpk 0)) mac ct
      if aesCmac (blockKey kbpk 1) (k.header ++ pt) = mac then some pt else none
    else none
  | _, _ => none

/-- The key of a payload: its length in bits, then the key. -/
def payloadKey (p : List Byte) : Option (List Byte) :=
  let n := beNat (p.take 2)
  if n % 8 = 0 ∧ n / 8 + 2 ≤ p.length then some (slice p 2 (n / 8)) else none

/-- ALG of a block's key: by its algorithm letter and length, for algorithm E by EC_ALG (R131, R132). -/
def blockAlg (letter : Byte) (ecAlg len : Nat) : Option Nat :=
  match letter.toNat with
  | 65 => if len = 16 then some 3 else if len = 24 then some 4 else if len = 32 then some 5 else none
  | 84 => if len = 16 then some 1 else if len = 24 then some 2 else none
  | 72 => if keyLenOk 6 len then some 6 else none
  | 69 => if keyLenOk ecAlg len && algPrivate ecAlg then some ecAlg else none
  | _ => none

/-- A policy word from ALG, USAGE and bits. -/
def policyOf (alg usage : Nat) (bits : List Nat) : Word := bits.foldl (fun w i => setBit w i) (mkWord [(8, usage), (0, alg)])

/-- Is an imported or generated secret one that the on-use check would refuse (R131, R237)? -/
def secretOk (alg : Nat) (key : List Byte) : Bool :=
  keyLenOk alg key.length && (!algTdes alg || !tdesWeak key)
    && (match curveOf alg with
      | some c => decide (1 ≤ beNat key ∧ beNat key < c.n)
      | none => true)

/-- The public point that a slot holds beside a private key. -/
def pointFor (alg : Nat) (secret : List Byte) : List Byte :=
  match curveOf alg with
  | some c => publicOf c (beNat secret)
  | none => []

/-- Does a KC block name the computed check value: the legacy version 00 and its digits (PRESUMED)? -/
def kcOk (kcv : List Byte) (o : List Byte × List Byte) : Bool := o.1 != ascii "KC" || o.2 == ascii "00" ++ hexOf kcv

/-! ### KEY_IMPORT (R131, R132) -/

/-- KEY_IMPORT's work: the block is opened and checked, and its key stored. -/
def importWork (r : CmdRef) (e src kbpk : List Byte) (s : State) : Answer :=
  let target := eTarget e
  let i := hIndex target
  let res := hResident target
  if ofDecimal (slice src 1 4) ≠ some (eSrcLen e) then failed stRange s
  else match parseBlock src with
  | none => failed stUnsupported s
  | some k =>
    if (eParam e 48 1 ≠ 0) ≠ (k.alg = 69) then failed stRange s
    else match openKeyBlock kbpk k with
    | none => failed stIntegrity s
    | some p =>
      match payloadKey p with
      | none => failed stInvalidKey s
      | some key =>
        match blockAlg k.alg (eParam e 48 1) key.length with
        | none => failed stInvalidKey s
        | some alg =>
          if secretOk alg key = false then failed stInvalidKey s
          else
            let bits := (modeBits k.mode k.usage alg).getD [] ++ (if k.expo = 69 then [21] else [])
            let policy := policyOf alg k.usage bits
            let pub := pointFor alg key
            let kcv := checkValue ⟨policy, key, pub⟩
            if k.opts.all (kcOk kcv) = false then failed stIntegrity s
            else if policyAllowed policy = false then failed stPolicyRefused s
            else if spanAligned res i alg key.length = false then failed stRange s
            else if spanInRange s r.fn res i alg key.length = false then failed stNotPermitted s
            else storeKey r target policy key pub kcv [] s

/-- The directory entries that a look at a target reads: those of the aligned group of 4 slots around it. -/
def targetDir (_ : State) (_ : Nat) (e : List Byte) : Option (Nat × Nat) :=
  if hResident (eTarget e) then none else some (slotDir + 16 * (hIndex (eTarget e) / 4), 16)

/-- KEY_IMPORT (R131). -/
def svcKeyImport : Service where
  opcode := 0x0140
  clear e := allZero (slice e 49 15)
  ranges s g e := handleInRange s g (eTarget e)
  sealed := targetDir
  ready s g e := slotFree s (hResident (eTarget e)) g (hIndex (eTarget e))
  fields e := firstFail
    [(decide (16 ≤ eSrcLen e ∧ eSrcLen e ≤ 9999), stRange), (hGen (eTarget e) == 0, stRange),
     (eParam e 48 1 == 0 || algPrivate (eParam e 48 1), stRange)]
  source := true
  wma e := eParam e 48 1 != 0
  keys e := [⟨eKey e, roleIs 0xB 19⟩]
  work r _ e src ks s := match ks with
    | [k] => importWork r e src k.secret s
    | _ => failed stInvalidKey s

def execKeyImport (r : CmdRef) (s : State) : Res := native svcKeyImport r s

/-! ### KEY_EXPORT (R133) -/

/-- The mode of use that a key's bits give, by usage; none where no letter of ISO 20038 covers them. -/
def modeLetter (p : Word) : Option Byte :=
  let u := pUsage p
  let enc := pBit p 16
  let dec := pBit p 17
  if u = 0xB then some (if pBit p 18 && pBit p 19 then 78 else if pBit p 18 then 69 else 68)
  else if u = 0xC ∨ u = 0xD then some 83
  else if u = 1 ∨ u = 0x10 then
    if pBit p 20 then (if enc && dec then some 78 else if enc || dec then none else some 88)
    else some (if enc && dec then 66 else if enc then 69 else 68)
  else if pBit p 20 then some 88
  else some (if enc && dec then 67 else if enc then 71 else 86)

/-- The algorithm letter of an ALG. -/
def algLetter (a : Nat) : Byte := if algTdes a then 84 else if algAes a then 65 else if a = 6 then 72 else 69

/-- Bytes of the payload of a key of `n` bytes, before it is enciphered. -/
def payloadLen (n : Nat) : Nat := roundUp 16 (n + 2)

/-- The version D block of a key (R133), with random bytes that fill the payload. -/
def makeBlock (kbpk : List Byte) (k : LoadedKey) (mode : Byte) (fill : List Byte) : List Byte :=
  let pt := (beBytes 2 (8 * k.secret.length) ++ k.secret ++ fill).take (payloadLen k.secret.length)
  let n := 16 + 2 * pt.length + 32
  let h := ascii "D" ++ toDecimal 4 n ++ (usageCode (pUsage k.policy)).getD [] ++ [algLetter (pAlg k.policy), mode]
    ++ ascii "00N0000"
  let mac := aesCmac (blockKey kbpk 1) (h ++ pt)
  h ++ hexOf (cbcEnc 16 (aesEnc (blockKey kbpk 0)) mac pt) ++ hexOf mac

/-- KEY_EXPORT's work. -/
def exportWork (r : CmdRef) (t : Nat) (e : List Byte) (kbpk k : LoadedKey) (s : State) : Answer :=
  let n := 48 + 2 * payloadLen k.secret.length
  if pBit k.policy 22 = true ∧ s.slt.exportG ≠ some r.fn then failed stStateRefused s
  else if eDstLen e < n then failed stRange s
  else withDraw t 16 s fun fill u =>
    let m := match modeLetter k.policy with
      | some m => (m, u)
      | none => ((drawBytes 1 u).1.headD 0, (drawBytes 1 u).2)
    .ends stOk n [] (makeBlock kbpk.secret k m.1 fill) m.2

/-- KEY_EXPORT (R133). A key without EXPORTABLE, and a public key, is refused by its policy. -/
def svcKeyExport : Service where
  opcode := 0x0141
  clear e := allZero (slice e 48 16)
  ranges s g e := handleInRange s g (eTarget e)
  keys e :=
    [⟨eKey e, roleIs 0xB 18⟩,
     ⟨eTarget e, fun k => pUsage k.policy != 0xE && pUsage k.policy != 0xF && pBit k.policy 21 && !algPublic (pAlg k.policy)⟩]
  work r t e _ ks s := match ks with
    | [kb, k] => exportWork r t e kb k s
    | _ => failed stInvalidKey s

def execKeyExport (r : CmdRef) (s : State) : Res := native svcKeyExport r s

/-! ### KEY_GENERATE, KEY_IMPORT_PUBLIC (R134, R135) -/

/-- The policy word of PARAM bytes 48 to 51. -/
def ePolicy (e : List Byte) : Word := BitVec.ofNat 32 (eParam e 48 4)

/-- Does a policy word hold values that R107 to R109 list? -/
def policyListed (p : Word) : Bool :=
  let a := pAlg p
  decide ((1 ≤ a ∧ a ≤ 6) ∨ (0x10 ≤ a ∧ a ≤ 0x17)) && decide (1 ≤ pUsage p ∧ pUsage p ≤ 0x10) && fld p 24 8 == 0

/-- Secret length of a generated key. -/
def genLen (a : Nat) : Nat := match curveOf a with
  | some c => c.len
  | none => if a = 1 ∨ a = 3 then 16 else if a = 2 ∨ a = 4 then 24 else 32

/-- Size of a curve's public point; zero for other keys. -/
def pointLen (a : Nat) : Nat := match curveOf a with
  | some c => 2 * c.len
  | none => 0

/-- A generated secret from drawn bytes: a scalar in [1, n − 1], or a TDES key that its own on-use check admits; none where
the module draws again (R134). -/
def secretFrom (alg : Nat) (d : List Byte) : Option (List Byte) :=
  match curveOf alg with
  | some c => if 1 ≤ beNat d ∧ beNat d < c.n then some d else none
  | none => if algTdes alg && tdesWeak d then none else some d

/-- KEY_GENERATE's work. A draw that is refused is repeated when the command is worked on next. -/
def generateWork (r : CmdRef) (t : Nat) (e : List Byte) (s : State) : Answer :=
  let policy := ePolicy e
  let alg := pAlg policy
  withDraw t (genLen alg) s fun d u =>
    match secretFrom alg d with
    | none => .waits u
    | some secret =>
      let pub := pointFor alg secret
      storeKey r (eTarget e) policy secret pub (checkValue ⟨policy, secret, pub⟩) (if eDstLen e = 0 then [] else pub) u

/-- Does a target with a listed ALG and an aligned index lie in the gable's range (R234)? Other values are check 5's to
refuse (R506). -/
def targetRanges (listed : Bool) (len : Nat) (s : State) (g : Nat) (e : List Byte) : Bool :=
  let alg := pAlg (ePolicy e)
  let res := hResident (eTarget e)
  let i := hIndex (eTarget e)
  handleInRange s g (eTarget e) && (!listed || !spanAligned res i alg len || spanInRange s g res i alg len)

/-- Is the target free, as far as its span is known (R112, R234)? -/
def targetFree (listed : Bool) (len : Nat) (s : State) (g : Nat) (e : List Byte) : Bool :=
  let alg := pAlg (ePolicy e)
  let res := hResident (eTarget e)
  let i := hIndex (eTarget e)
  if listed && spanAligned res i alg len then spanFree s g res i alg len else slotFree s res g i

/-- May KEY_GENERATE name this policy word: ALG and USAGE listed, no public ALG (R134)? -/
def generateListed (e : List Byte) : Bool := policyListed (ePolicy e) && !algPublic (pAlg (ePolicy e))

/-- KEY_GENERATE (R134, R506). -/
def svcKeyGenerate : Service where
  opcode := 0x0142
  keyZero := true
  clear e := allZero (slice e 52 12)
  ranges s g e := targetRanges (generateListed e) (genLen (pAlg (ePolicy e))) s g e
  sealed := targetDir
  ready s g e := targetFree (generateListed e) (genLen (pAlg (ePolicy e))) s g e
  fields e :=
    let p := ePolicy e
    firstFail
      [(generateListed e, stRange), (policyAllowed p, stPolicyRefused), (hGen (eTarget e) == 0, stRange),
       (spanAligned (hResident (eTarget e)) (hIndex (eTarget e)) (pAlg p) (genLen (pAlg p)), stRange)]
  wma e := (curveOf (pAlg (ePolicy e))).isSome
  size e := if eDstLen e = 0 then 0 else pointLen (pAlg (ePolicy e))
  work r t e _ _ s := generateWork r t e s

def execKeyGenerate (r : CmdRef) (s : State) : Res := native svcKeyGenerate r s

/-- A policy word for a public key (R135). -/
def publicPolicy (p : Word) : Bool :=
  policyAllowed p && algPublic (pAlg p) && (pUsage p == 0xC || pUsage p == 0xD || pUsage p == 0xE || pUsage p == 0xF)

/-- Is x then y a point of the curve of an ALG (R135)? -/
def pointOk (alg : Nat) (pub : List Byte) : Bool := match curveOf alg with
  | some c => onCurve c (beNat (slice pub 0 c.len)) (beNat (slice pub c.len c.len))
  | none => false

/-- KEY_IMPORT_PUBLIC (R135, R506). -/
def svcKeyImportPublic : Service where
  opcode := 0x0143
  keyZero := true
  clear e := allZero (slice e 52 12)
  ranges s g e := targetRanges (policyListed (ePolicy e)) 0 s g e
  sealed := targetDir
  ready s g e := targetFree (policyListed (ePolicy e)) 0 s g e
  fields e :=
    let p := ePolicy e
    firstFail
      [(policyListed p, stRange), (publicPolicy p, stPolicyRefused), (hGen (eTarget e) == 0, stRange),
       (spanAligned (hResident (eTarget e)) (hIndex (eTarget e)) (pAlg p) 0, stRange),
       (eSrcLen e == pointLen (pAlg p), stRange)]
  wma _ := true
  source := true
  work r _ e src _ s :=
    if pointOk (pAlg (ePolicy e)) src then storeKey r (eTarget e) (ePolicy e) [] src [] [] s else failed stInvalidKey s

def execKeyImportPublic (r : CmdRef) (s : State) : Res := native svcKeyImportPublic r s

/-! ### KEY_DELETE, KEY_INFO (R136) -/

/-- KEY_DELETE's work: the slot is emptied at the commit, where the handle still resolves. -/
def deleteWork (r : CmdRef) (e : List Byte) (s : State) : Answer :=
  let h := eKey e
  let res := hResident h
  let d := readDir res (hIndex h) 1 s
  let s := d.2
  if d.1 = false then failed stIntegrity s
  else if handleResolves s r.fn h = false then failed stInvalidKey s
  else match changeGate res s with
    | none => .waits s
    | some st =>
      if st ≠ stOk then failed st s
      else
        let x := deleteRec s r.fn res (hIndex h)
        if commitsHere s then match changeHere res x s with
          | (true, t) => .ends stOk 0 [] [] t
          | (false, t) => failed stExhausted t
        else changeThere r res x [] [] s

/-- KEY_DELETE (R136). -/
def svcKeyDelete : Service where
  opcode := 0x0144
  clear e := allZero (slice e 40 24)
  keys e := [⟨eKey e, fun _ => true⟩]
  work r _ e _ _ s := deleteWork r e s

def execKeyDelete (r : CmdRef) (s : State) : Res := native svcKeyDelete r s

/-- KEY_INFO (R136): the policy word, the generation, the check value, and an EC key's point where DST_LEN is not
zero. -/
def svcKeyInfo : Service where
  opcode := 0x0145
  clear e := allZero (slice e 40 24)
  keys e := [⟨eKey e, fun _ => true⟩]
  work _ _ e _ ks s := match ks with
    | [k] =>
      let dest := if eDstLen e = 0 then [] else k.pub
      if eDstLen e < dest.length then failed stRange s
      else .ends stOk dest.length (leBytes 4 k.policy.toNat ++ leBytes 2 (hGen (eKey e)) ++ checkValue k) dest s
    | _ => failed stInvalidKey s

def execKeyInfo (r : CmdRef) (s : State) : Res := native svcKeyInfo r s

end Sys2Proof.Machine
end

