-- ==== Sys2Proof/Machine/SignServices.lean ====
section
/-! DEFINITION. ECDSA, sealed meter records and tariff pricing (04_transaction_services.md, R138 to R146). -/

namespace Sys2Proof.Machine

/-! ### ECDSA (R138, R139) -/

/-- The hash that goes with a curve: SHA-256 or SHA-384 (R108). -/
def curveHash (c : Curve) : List Byte → List Byte := sha (if c.len = 32 then 0 else 1)

/-- The curve of a key's ALG, where it has one. -/
def keyCurve (k : LoadedKey) : Option Curve := curveOf (pAlg k.policy)

/-- Sign a digest with a key and a nonce in [1, n − 1] drawn from the worker truss's DRBG; a draw outside, or one that gives a
zero r or s, is repeated when the command is worked on next. -/
def withSignature (t : Nat) (c : Curve) (k : LoadedKey) (h : List Byte) (s : State) (f : List Byte → State → Answer) : Answer :=
  withDraw t c.len s fun d u =>
    if 1 ≤ beNat d ∧ beNat d < c.n then
      match ecdsaWith c (beNat k.secret) h (beNat d) with
      | some (a, b) => f (beBytes c.len a ++ beBytes c.len b) u
      | none => .waits u
    else .waits u

/-- The digest that a command works on: hashed here, or taken as given (R138). -/
def digestFor (c : Curve) (e m : List Byte) : List Byte := if eParam e 40 1 = 0 then curveHash c m else m

/-- ECDSA_SIGN (R138). -/
def svcEcdsaSign : Service where
  opcode := 0x0150
  clear e := allZero (slice e 41 23)
  fields e := if eParam e 40 1 ≤ 1 then stOk else stRange
  source := true
  wma _ := true
  keys e := [⟨eKey e, fun k => roleIs 0xC 16 k && algPrivate (pAlg k.policy)⟩]
  work _ t e src ks s := match ks with
    | [k] => match keyCurve k with
      | some c =>
        if eParam e 40 1 = 1 ∧ eSrcLen e ≠ c.len then failed stRange s
        else if eDstLen e < 2 * c.len then failed stRange s
        else withSignature t c k (digestFor c e src) s fun sig u => .ends stOk (2 * c.len) [] sig u
      | none => failed stInvalidKey s
    | _ => failed stInvalidKey s

def execEcdsaSign (r : CmdRef) (s : State) : Res := native svcEcdsaSign r s

/-- ECDSA_VERIFY (R138, R139). -/
def svcEcdsaVerify : Service where
  opcode := 0x0151
  clear e := allZero (slice e 41 23)
  fields e := if eParam e 40 1 ≤ 1 then stOk else stRange
  source := true
  wma _ := true
  keys e := [⟨eKey e, fun k => roleIs 0xC 17 k && algPublic (pAlg k.policy)⟩]
  work _ _ e src ks s := match ks with
    | [k] => match keyCurve k with
      | some c =>
        if eSrcLen e < 2 * c.len ∨ (eParam e 40 1 = 1 ∧ eSrcLen e ≠ 3 * c.len) then failed stRange s
        else verdict (ecdsaCheck c k.pub (digestFor c e (src.drop (2 * c.len))) (src.take (2 * c.len))) s
      | none => failed stInvalidKey s
    | _ => failed stInvalidKey s

def execEcdsaVerify (r : CmdRef) (s : State) : Res := native svcEcdsaVerify r s

/-! ### Sealed meter records (R140 to R142) -/

/-- KEY_ID of a public point. -/
def meterKeyId (pub : List Byte) : List Byte := (sha384 pub).take 8

/-- Bytes 0x00 to 0x67 of a sealed record. -/
def meterBody (curve timeState : Nat) (keyId : List Byte) (counter len value time : Nat) (serial digest : List Byte) : List Byte :=
  [0x53, 0x45, 0x41, 0x4C] ++ leBytes 2 1 ++ [BitVec.ofNat 8 curve, BitVec.ofNat 8 timeState] ++ keyId ++ leBytes 4 counter
    ++ leBytes 4 len ++ leBytes 8 value ++ leBytes 8 time ++ serial ++ padTo 48 digest

/-- METER_SEAL's work once its counter has given a value with the trusted time. -/
def sealRecord (t : Nat) (c : Curve) (k : LoadedKey) (counter value time : Nat) (src : List Byte) (s : State) : Answer :=
  let body := meterBody (pAlg k.policy + 1) (timeByte s) (meterKeyId k.pub) counter src.length value time (serialBytes s)
    (curveHash c src)
  withSignature t c k (curveHash c body) s fun sig u => .ends stOk value [] (body ++ sig) u

/-- A command that waits for a value of counter `c` (R208, R442). -/
def awaitCounter (r : CmdRef) (c : Nat) (s : State) : Answer := .waits (updCmd r (fun x => { x with waits := some c }) s)

/-- A command reaches counter `c` of the vault, and is served in its turn (R209); a value or a status ends its wait. -/
def counterTurn (r : CmdRef) (c : Nat) (draw : Nat → State → Draw × Nat × State) (s : State) : Draw × Nat × State :=
  let s := reachVault (.cmd r) c s
  if vaultTurn s (.cmd r) c = false then (.waits, 0, s)
  else match draw c s with
    | (.waits, t, u) => (.waits, t, u)
    | (d, t, u) => (d, t, leaveLine (.cmd r) u)

/-- The counter value and the time of METER_SEAL, in one step; a command whose nonce is drawn again keeps them (R141). -/
def sealValue (r : CmdRef) (c : Nat) (s : State) : Draw × Nat × State :=
  match (findCmd s r).bind (·.drawn) with
  | some (v, time) => (.value v, time, s)
  | none => match counterTurn r c ctrDrawTime s with
    | (.value v, time, u) => (.value v, time, updCmd r (fun x => { x with drawn := some (v, time) }) u)
    | d => d

/-- METER_SEAL (R141): a counter value and the time in one step, then the record. -/
def svcMeterSeal : Service where
  opcode := 0x0160
  clear e := allZero (slice e 44 20)
  ranges s g e := ctrOwned s g (eParam e 40 4)
  ready s _ _ := s.sys.timePhase != .unset
  fields e := if 1 ≤ eSrcLen e ∧ eSrcLen e ≤ 65536 then stOk else stRange
  source := true
  wma _ := true
  keys e := [⟨eKey e, fun k => roleIs 0xD 16 k && algPrivate (pAlg k.policy)⟩]
  work r t e src ks s := match ks with
    | [k] => match keyCurve k with
      | some c =>
        if eDstLen e < 104 + 2 * c.len then failed stRange s
        else match sealValue r (eParam e 40 4) s with
          | (.ended st, _, u) => failed st u
          | (.waits, _, u) => awaitCounter r (eParam e 40 4) u
          | (.value v, time, u) => sealRecord t c k (eParam e 40 4) v time src u
      | none => failed stInvalidKey s
    | _ => failed stInvalidKey s

def execMeterSeal (r : CmdRef) (s : State) : Res := native svcMeterSeal r s

/-- Does a sealed record verify under a public key (R142)? -/
def meterGood (c : Curve) (k : LoadedKey) (src : List Byte) : Bool :=
  let record := src.drop (104 + 2 * c.len)
  src.take 6 == [0x53, 0x45, 0x41, 0x4C, 1, 0] && leAt src 6 1 == pAlg k.policy && slice src 8 8 == meterKeyId k.pub
    && slice src 0x38 48 == padTo 48 (curveHash c record)
    && ecdsaCheck c k.pub (curveHash c (src.take 104)) (slice src 104 (2 * c.len))

/-- METER_VERIFY (R142). -/
def svcMeterVerify : Service where
  opcode := 0x0161
  clear e := allZero (slice e 40 24)
  source := true
  wma _ := true
  keys e := [⟨eKey e, fun k => roleIs 0xD 17 k && algPublic (pAlg k.policy)⟩]
  work _ _ e src ks s := match ks with
    | [k] => match keyCurve k with
      | some c =>
        if eSrcLen e < 104 ∨ eSrcLen e ≠ 104 + 2 * c.len + leAt src 0x14 4 then failed stRange s
        else if meterGood c k src then
          .ends stOk (leAt src 0x18 8) (slice src 0x20 8 ++ slice src 7 1 ++ [0, 0, 0] ++ slice src 0x10 4 ++ slice src 0x28 16) [] s
        else failed stVerifyFailed s
      | none => failed stInvalidKey s
    | _ => failed stInvalidKey s

def execMeterVerify (r : CmdRef) (s : State) : Res := native svcMeterVerify r s

/-! ### Tariffs (R143 to R146) -/

/-- Sealed offset of a gable's tariff slot: 1 KiB each in the highest 1 MiB of its sealed window. -/
def tariffAddr (s : State) (g i : Nat) : Nat := (gableCfg s g).sealedBase + (gableCfg s g).sealedLen - 0x100000 + 1024 * i

/-- Length of a tariff of `n` bands without its signature. -/
def tariffLen (n : Nat) : Nat := 32 + 72 * n

/-- What a tariff slot holds; none where it is empty. -/
def tariffAt (s : State) (g i : Nat) : Option (List Byte) :=
  let b := sealedBytes s (tariffAddr s g i) 1024
  if b.take 4 = [0x54, 0x41, 0x52, 0x46] then some b else none

/-- GENERATION of a stored tariff; zero where the slot is empty. -/
def tariffGen (s : State) (g i : Nat) : Nat := match tariffAt s g i with
  | some b => leAt b 4 4
  | none => 0

/-- START and POINT of a tariff's bands. -/
def bandStart (t : List Byte) (b : Nat) : Nat := leAt t (32 + 72 * b) 2
def bandPoint (t : List Byte) (b i : Nat) : Nat := leAt t (36 + 72 * b + 4 * i) 4

/-- Every field of a tariff at a value of R143. -/
def tariffOk (t : List Byte) : Bool :=
  let n := leAt t 0xE 1
  let off := signedOf 16 (leAt t 0xC 2)
  t.take 4 == [0x54, 0x41, 0x52, 0x46] && leAt t 4 4 != 0 && decide (1 ≤ leAt t 8 2 ∧ leAt t 8 2 ≤ 999) && decide (leAt t 0xA 1 ≤ 6)
    && decide (leAt t 0xB 1 ≤ 2) && decide (-840 ≤ off ∧ off ≤ 840) && decide (1 ≤ n ∧ n ≤ 8) && decide (leAt t 0xF 1 ≤ 16)
    && decide (leAt t 0x10 4 < leAt t 0x14 4)
    && (List.range n).all fun b => leAt t (34 + 72 * b) 2 == 0 && decide (bandStart t b ≤ 1439)
      && (if b = 0 then bandStart t 0 == 0 else decide (bandStart t (b - 1) < bandStart t b))

/-- TARIFF_LOAD's work (R144). -/
def tariffLoadWork (r : CmdRef) (e src : List Byte) (c : Curve) (k : LoadedKey) (s : State) : Answer :=
  let n := tariffLen (leAt src 0xE 1)
  let i := eParam e 40 2
  if eSrcLen e ≠ n + 2 * c.len ∨ tariffOk src = false then failed stRange s
  else
    let l := msuRead (tariffAddr s r.fn i) 1024 true true s
    let s := l.2
    if l.1.isNone then failed stIntegrity s
    else if leAt src 4 4 ≤ tariffGen s r.fn i then failed stStateRefused s
    else if ecdsaCheck c k.pub (curveHash c (src.take n)) (src.drop n) = false then failed stVerifyFailed s
    else
      let w := msuWrite (tariffAddr s r.fn i) (padTo 1024 src) true true s
      if w.1 then .ends stOk 0 [] [] w.2 else failed stIntegrity w.2

/-- TARIFF_LOAD (R144). -/
def svcTariffLoad : Service where
  opcode := 0x0170
  clear e := allZero (slice e 42 22)
  ranges _ _ e := decide (eParam e 40 2 < 1024)
  source := true
  wma _ := true
  keys e := [⟨eKey e, roleIs 0xE 17⟩]
  work r _ e src ks s := match ks with
    | [k] => match keyCurve k with
      | some c => tariffLoadWork r e src c k s
      | none => failed stInvalidKey s
    | _ => failed stInvalidKey s

def execTariffLoad (r : CmdRef) (s : State) : Res := native svcTariffLoad r s

/-- a / d rounded to nearest, ties to even; a may be negative (R146). -/
def roundEven (a : Int) (d : Nat) : Int :=
  let q := a / (d : Int)
  let m := a % (d : Int)
  if 2 * m < d then q else if 2 * m = d ∧ q % 2 = 0 then q else q + 1

/-- a / d rounded by a tariff's ROUND field, for a that is not negative (R146). -/
def roundBy (mode a d : Nat) : Nat :=
  let q := a / d
  let m := a % d
  if mode = 2 then q
  else if mode = 1 then (if 2 * m < d then q else q + 1)
  else if 2 * m < d then q else if 2 * m = d ∧ q % 2 = 0 then q else q + 1

/-- The rate at a local minute and a power (R146). -/
def tariffRate (t : List Byte) (start power : Nat) : Nat :=
  let s := leAt t 0xF 1
  let minute := ((start : Int) + signedOf 16 (leAt t 0xC 2)) % 1440
  let b := ((List.range (leAt t 0xE 1)).filter fun b => decide ((bandStart t b : Int) ≤ minute)).foldl max 0
  let i := if 16 ≤ power / 2 ^ s then 15 else power / 2 ^ s
  let f := if 16 ≤ power / 2 ^ s then 2 ^ s else power % 2 ^ s
  let p : Int := bandPoint t b i
  let q : Int := bandPoint t b (i + 1)
  (p + roundEven ((q - p) * f) (2 ^ s)).toNat

/-- The charge of one interval record; none outside the validity range (R146). -/
def tariffCharge (t rec : List Byte) : Option Nat :=
  let start := leAt rec 0 4
  if leAt t 0x10 4 ≤ start ∧ start < leAt t 0x14 4 then
    some (roundBy (leAt t 0xB 1) (leAt rec 4 4 * tariffRate t start (leAt rec 8 4)) 1000)
  else none

/-- The charges of records in order and their total; none where a record is out of range or the total too large. -/
def tariffTotal (t : List Byte) : List (List Byte) → Option (List Nat × Nat)
  | [] => some ([], 0)
  | x :: xs => match tariffCharge t x, tariffTotal t xs with
    | some c, some (cs, n) => if c + n < 2 ^ 64 then some (c :: cs, c + n) else none
    | _, _ => none

/-- TARIFF_PRICE's work (R145, R146). -/
def priceWork (r : CmdRef) (e src : List Byte) (s : State) : Answer :=
  let recs := chunks 16 src
  match msuRead (tariffAddr s r.fn (eParam e 40 2)) 1024 true true s with
  | (none, u) => failed stIntegrity u
  | (some t, u) =>
    if recs.all (fun x => allZero (slice x 12 4)) = false then failed stRange u
    else match tariffTotal t recs with
      | none => failed stRange u
      | some (cs, total) =>
        let inl := leBytes 8 total ++ leBytes 8 (roundBy (leAt t 0xB 1) total (10 ^ (6 - leAt t 0xA 1))) ++ slice t 8 2 ++ slice t 0xA 1
          ++ [0] ++ leBytes 4 recs.length ++ slice t 4 4
        let dest := if bitOf (eParam e 42 1) 0 then cs.flatMap fun c => leBytes 8 c else []
        .ends stOk dest.length inl dest u

/-- TARIFF_PRICE (R145). -/
def svcTariffPrice : Service where
  opcode := 0x0171
  keyZero := true
  clear e := decide (eParam e 42 1 ≤ 1) && allZero (slice e 43 21)
  ranges _ _ e := decide (eParam e 40 2 < 1024)
  sealed s g e := some (tariffAddr s g (eParam e 40 2), 1024)
  ready s g e := (tariffAt s g (eParam e 40 2)).isSome
  fields e := if eSrcLen e % 16 = 0 ∧ 16 ≤ eSrcLen e ∧ eSrcLen e ≤ 16 * 65536 then stOk else stRange
  size e := if bitOf (eParam e 42 1) 0 then eSrcLen e / 2 else 0
  source := true
  work r _ e src _ s := priceWork r e src s

def execTariffPrice (r : CmdRef) (s : State) : Res := native svcTariffPrice r s

end Sys2Proof.Machine
end

