-- ==== Sys2Proof/Machine/MiscServices.lean ====
section
/-! DEFINITION. MAC generation and verification, hashing, random bytes, counters and NOP
(04_transaction_services.md, R129, R130, R147 to R150). -/

namespace Sys2Proof.Machine

/-! ### MACs (R129) -/

/-- The longest MAC of a MAC_ALG. -/
def macTop (a : Nat) : Nat := if a = 0 then 16 else if a ≤ 3 then 8 else shaLen (a - 4)

/-- The shortest MAC of a MAC_ALG. -/
def macBottom (a : Nat) : Nat := if a = 0 then 8 else if a ≤ 3 then 4 else 16

/-- MAC_ALG, PAD and MAC_LEN at values of R129, and no empty message where padding method 1 has none. -/
def macFields (e : List Byte) (msgLen : Nat) : List (Bool × Nat) :=
  let a := eParam e 40 1
  let pad := eParam e 41 1
  let n := eParam e 42 1
  [(decide (a ≤ 6), stRange), (if a = 2 ∨ a = 3 then pad == 1 || pad == 2 else pad == 0, stRange),
   (decide (macBottom a ≤ n ∧ n ≤ macTop a), stRange), (!((a == 2 || a == 3) && pad == 1 && msgLen == 0), stRange)]

/-- Does a key serve a MAC_ALG with a mode bit (R110)? -/
def macRole (a bit : Nat) (k : LoadedKey) : Bool :=
  let alg := pAlg k.policy
  if a = 0 then roleIs 7 bit k && algAes alg else if a = 1 then roleIs 7 bit k && algTdes alg
  else if a = 2 then roleIs 5 bit k else if a = 3 then roleIs 6 bit k else roleIs 8 bit k

/-- The full value of a MAC. -/
def macFull (a pad : Nat) (k : LoadedKey) (m : List Byte) : List Byte :=
  if a ≤ 1 then macValue 0 (pAlg k.policy) false k.secret m
  else if a ≤ 3 then macValue (a - 1) (pAlg k.policy) (pad == 2) k.secret m
  else hmac (a - 4) k.secret m

/-- The MAC that a command's PARAM asks for. -/
def macOf (e : List Byte) (k : LoadedKey) (m : List Byte) : List Byte :=
  (macFull (eParam e 40 1) (eParam e 41 1) k m).take (eParam e 42 1)

/-- MAC_GENERATE (R129). -/
def svcMacGenerate : Service where
  opcode := 0x0130
  clear e := allZero (slice e 43 21)
  fields e := firstFail (macFields e (eSrcLen e))
  size e := eParam e 42 1
  short := true
  source := true
  keys e := [⟨eKey e, macRole (eParam e 40 1) 16⟩]
  work _ _ e src ks s := match ks with
    | [k] => shortResult e (macOf e k src) (eParam e 42 1) s
    | _ => failed stInvalidKey s

def execMacGenerate (r : CmdRef) (s : State) : Res := native svcMacGenerate r s

/-- MAC_VERIFY (R129, R130). -/
def svcMacVerify : Service where
  opcode := 0x0131
  clear e := allZero (slice e 43 21)
  fields e := firstFail (macFields e (eSrcLen e - eParam e 42 1) ++ [(decide (eParam e 42 1 ≤ eSrcLen e), stRange)])
  source := true
  keys e := [⟨eKey e, macRole (eParam e 40 1) 17⟩]
  work _ _ e src ks s := match ks with
    | [k] => verdict (macOf e k (src.drop (eParam e 42 1)) == src.take (eParam e 42 1)) s
    | _ => failed stInvalidKey s

def execMacVerify (r : CmdRef) (s : State) : Res := native svcMacVerify r s

/-! ### Hash, random, counters, NOP (R147 to R150) -/

/-- HASH (R147). -/
def svcHash : Service where
  opcode := 0x0180
  classK := false
  keyZero := true
  clear e := allZero (slice e 41 23)
  fields e := if eParam e 40 1 ≤ 2 then stOk else stRange
  size e := shaLen (eParam e 40 1)
  short := true
  source := true
  work _ _ e src _ s := shortResult e (sha (eParam e 40 1) src) (shaLen (eParam e 40 1)) s

def execHash (r : CmdRef) (s : State) : Res := native svcHash r s

/-- Draw `n` bytes in requests of 64 at most (R151, R205); the first reseeds where that is asked for. -/
def drawMany (t : Nat) (reseed : Bool) : Nat → Nat → State → Option (List Byte) × State
  | 0, _, s => (some [], s)
  | f + 1, n, s =>
    if n = 0 then (some [], s)
    else match drbgDraw t (min 64 n) reseed s with
      | (none, u) => (none, u)
      | (some b, u) => match drawMany t false f (n - 64) u with
        | (none, v) => (none, v)
        | (some bs, v) => (some (b ++ bs), v)

/-- RANDOM (R148). -/
def svcRandom : Service where
  opcode := 0x0190
  classK := false
  keyZero := true
  clear e := decide (eParam e 44 1 ≤ 1) && allZero (slice e 45 19)
  fields e := if 1 ≤ eParam e 40 4 ∧ eParam e 40 4 ≤ 65536 then stOk else stRange
  size e := eParam e 40 4
  short := true
  work _ t e _ _ s := match drawMany t (bitOf (eParam e 44 1) 0) 1024 (eParam e 40 4) s with
    | (some b, u) => shortResult e b (eParam e 40 4) u
    | (none, u) => failed stIntegrity u

def execRandom (r : CmdRef) (s : State) : Res := native svcRandom r s

/-- COUNTER_NEXT (R149). -/
def svcCounterNext : Service where
  opcode := 0x01A0
  classK := false
  keyZero := true
  clear e := allZero (slice e 44 20)
  ranges s g e := ctrOwned s g (eParam e 40 4)
  work r _ e _ _ s := match counterTurn r (eParam e 40 4) (fun c u => ((ctrDraw c u).1, 0, (ctrDraw c u).2)) s with
    | (.ended st, _, u) => failed st u
    | (.waits, _, u) => awaitCounter r (eParam e 40 4) u
    | (.value v, _, u) => .ends stOk v [] [] u

def execCounterNext (r : CmdRef) (s : State) : Res := native svcCounterNext r s

/-- COUNTER_READ (R149). -/
def svcCounterRead : Service where
  opcode := 0x01A1
  classK := false
  keyZero := true
  clear e := allZero (slice e 44 20)
  ranges s g e := ctrOwned s g (eParam e 40 4)
  work _ _ e _ _ s := match ctrReadValue (eParam e 40 4) s with
    | (some v, u) => .ends stOk v [] [] u
    | (none, u) => failed stLinkLost u

def execCounterRead (r : CmdRef) (s : State) : Res := native svcCounterRead r s

/-- NOP (R150). -/
def svcNop : Service where
  opcode := 0x0000
  classK := false
  keyZero := true
  clear e := allZero (slice e 40 24)
  work _ _ _ _ _ s := .ends stOk 0 [] [] s

def execNop (r : CmdRef) (s : State) : Res := native svcNop r s

end Sys2Proof.Machine
end

