-- ==== Sys2Proof/Machine/PinServices.lean ====
section
/-! DEFINITION. PIN translation and verification, DUKPT, EMV application cryptograms and card check values
(04_transaction_services.md, R119 to R128). The steps of ISO 9564-1, ANSI X9.24-1 and X9.24-3, and EMV Book 2 are taken
from those standards (PRESUMED). -/

namespace Sys2Proof.Machine

/-! ### Digits (R119) -/

/-- The nibbles of bytes, high nibble first. -/
def nibblesOf (bs : List Byte) : List Nat := bs.flatMap fun b => [b.toNat / 16, b.toNat % 16]

/-- Bytes from nibbles. -/
def ofNibbles (ns : List Nat) : List Byte := (chunks 2 ns).map fun p => BitVec.ofNat 8 (16 * p.getD 0 0 + p.getD 1 0)

/-- Is every nibble decimal? -/
def decimals (ns : List Nat) : Bool := ns.all fun n => decide (n ≤ 9)

/-- The PAN digits of an entry: count at offset `c`, field at offset `f`. -/
def panDigits (e : List Byte) (c f : Nat) : List Nat := (nibblesOf (slice e f 10)).take (eParam e c 1)

/-- Is a PAN field well formed: its first digits decimal, the rest 0xF (R119)? -/
def panFieldOk (e : List Byte) (c f : Nat) : Bool :=
  decimals (panDigits e c f) && ((nibblesOf (slice e f 10)).drop (eParam e c 1)).all (· == 15)

/-- Is a PAN count from 12 to 19, or zero where that is permitted? -/
def panCountOk (zeroOk : Bool) (n : Nat) : Bool := decide (12 ≤ n ∧ n ≤ 19) || (zeroOk && n == 0)

/-! ### PIN blocks (ISO 9564-1; R119 to R121) -/

/-- Is a format one of 0, 1, 3 and 4? -/
def pinFormat (f : Nat) : Bool := f == 0 || f == 1 || f == 3 || f == 4

/-- Size of a PIN block. -/
def pinSize (f : Nat) : Nat := if f = 4 then 16 else 8

/-- A number of digits at the right of `n` places, filled with zeros on the left. -/
def rightAligned (n : Nat) (ds : List Nat) : List Nat := List.replicate (n - ds.length) 0 ++ ds.drop (ds.length - n)

/-- The PAN field of formats 0 and 3: four zeros and the twelve rightmost digits without the check digit. -/
def panField (pan : List Nat) : List Nat := [0, 0, 0, 0] ++ rightAligned 12 pan.dropLast

/-- The PAN field of format 4: how far the length exceeds 12, the digits, zeros. -/
def panField4 (pan : List Nat) : List Nat :=
  let ds := if pan.length < 12 then rightAligned 12 pan else pan
  let p := (ds.length - 12) :: ds
  p ++ List.replicate (32 - p.length) 0

/-- XOR of nibbles. -/
def xorNibbles (a b : List Nat) : List Nat := List.zipWith Nat.xor a b

/-- The PIN field of a format, with the nibbles that fill it. -/
def pinField (fmt : Nat) (pin fill : List Nat) : List Nat :=
  let head := fmt :: pin.length :: pin
  if fmt = 0 then head ++ List.replicate (14 - pin.length) 15
  else if fmt = 1 then (head ++ fill).take 16
  else if fmt = 3 then (head ++ fill.map fun n => 10 + n % 6).take 16
  else head ++ List.replicate (14 - pin.length) 10 ++ fill.take 16

/-- Encipher a PIN under a key in a format. -/
def pinEncipher (alg : Nat) (key : List Byte) (fmt : Nat) (pan pin fill : List Nat) : List Byte :=
  let f := blockEnc alg key
  let p := pinField fmt pin fill
  if fmt = 4 then f (xorBytes (f (ofNibbles p)) (ofNibbles (panField4 pan)))
  else if fmt = 1 then f (ofNibbles p)
  else f (ofNibbles (xorNibbles p (panField pan)))

/-- The PIN of a deciphered PIN field, where the field is well formed (R121). -/
def pinOf (fmt : Nat) (p : List Nat) : Option (List Nat) :=
  let n := p.getD 1 0
  let pin := (p.drop 2).take n
  let fill := (p.drop (2 + n)).take (14 - n)
  let fillOk := if fmt = 0 then fill.all (· == 15) else if fmt = 3 then fill.all fun x => decide (10 ≤ x)
    else if fmt = 4 then fill.all (· == 10) else true
  if p.getD 0 0 = fmt ∧ 4 ≤ n ∧ n ≤ 12 ∧ decimals pin = true ∧ fillOk = true then some pin else none

/-- Decipher a PIN block. -/
def pinDecipher (alg : Nat) (key : List Byte) (fmt : Nat) (pan : List Nat) (block : List Byte) : Option (List Nat) :=
  let f := blockDec alg key
  if fmt = 4 then pinOf 4 (nibblesOf (f (xorBytes (f block) (ofNibbles (panField4 pan)))))
  else if fmt = 1 then pinOf 1 (nibblesOf (f block))
  else pinOf fmt (xorNibbles (nibblesOf (f block)) (panField pan))

/-- Does a key suit a format: AES for format 4, TDES for the others (R119)? -/
def keySuits (fmt : Nat) (k : LoadedKey) : Bool := if fmt = 4 then algAes (pAlg k.policy) else algTdes (pAlg k.policy)

/-- The end of a translation: the PIN under the outbound key, filled from the DRBG (R120, R121). -/
def translated (t : Nat) (e : List Byte) (pin : Option (List Nat)) (out : LoadedKey) (fmt : Nat) (pan : List Nat) (s : State) :
    Answer :=
  match pin with
  | none => failed stVerifyFailed s
  | some p =>
    if fmt = 0 then let b := pinEncipher (pAlg out.policy) out.secret 0 pan p []; shortResult e b b.length s
    else withDraw t 8 s fun d u =>
      let b := pinEncipher (pAlg out.policy) out.secret fmt pan p (nibblesOf d)
      shortResult e b b.length u

/-! ### PIN_TRANSLATE, PIN_VERIFY (R120 to R122) -/

/-- PIN_TRANSLATE (R120). A translation to format 1 from another format is refused with the policies of its keys. -/
def svcPinTranslate : Service where
  opcode := 0x0100
  clear e := allZero (slice e 51 1) && allZero (slice e 62 2)
  ranges s g e := handleInRange s g (eTarget e)
  fields e := firstFail
    [(pinFormat (eParam e 48 1), stRange), (pinFormat (eParam e 49 1), stRange),
     (panCountOk (eParam e 48 1 == 1 && eParam e 49 1 == 1) (eParam e 50 1), stRange), (panFieldOk e 50 52, stRange),
     (eSrcLen e == pinSize (eParam e 48 1), stRange)]
  size e := pinSize (eParam e 49 1)
  short := true
  source := true
  keys e :=
    [⟨eKey e, fun k => roleIs 1 17 k && keySuits (eParam e 48 1) k && (eParam e 49 1 != 1 || eParam e 48 1 == 1)⟩,
     ⟨eTarget e, fun k => roleIs 1 16 k && keySuits (eParam e 49 1) k⟩]
  work _ t e src ks s := match ks with
    | [inn, out] =>
      translated t e (pinDecipher (pAlg inn.policy) inn.secret (eParam e 48 1) (panDigits e 50 52) src) out (eParam e 49 1)
        (panDigits e 50 52) s
    | _ => failed stInvalidKey s

def execPinTranslate (r : CmdRef) (s : State) : Res := native svcPinTranslate r s

/-- The digits of a decimalised offset: the nibbles before the first 0xF (R122). -/
def offsetDigits (ns : List Nat) : List Nat := ns.takeWhile (· != 15)

/-- Are the 24 bytes of method 1 as R122 asks? -/
def offsetDataOk (d : List Byte) : Bool :=
  let off := nibblesOf (slice d 16 6)
  decimals (nibblesOf (slice d 8 8)) && decimals (offsetDigits off) && (off.dropWhile (· != 15)).all (· == 15) && allZero (slice d 22 2)

/-- The PIN that method 1 of R122 gives for `n` digits; none where the offset holds fewer. -/
def offsetPin (pvk : LoadedKey) (d : List Byte) (n : Nat) : Option (List Nat) :=
  let table := nibblesOf (slice d 8 8)
  let off := offsetDigits (nibblesOf (slice d 16 6))
  let digits := (nibblesOf (blockEnc (pAlg pvk.policy) pvk.secret (slice d 0 8))).map fun x => table.getD x 0
  if n ≤ off.length then some ((List.zipWith (fun a b => (a + b) % 10) digits off).take n) else none

/-- PIN_VERIFY (R122). -/
def svcPinVerify : Service where
  opcode := 0x0101
  clear e := allZero (slice e 51 1) && allZero (slice e 62 2)
  ranges s g e := handleInRange s g (eTarget e)
  fields e :=
    let n := pinSize (eParam e 48 1)
    firstFail
      [(pinFormat (eParam e 48 1), stRange), (decide (eParam e 49 1 ≤ 1), stUnsupported),
       (panCountOk (eParam e 48 1 == 1) (eParam e 50 1), stRange), (panFieldOk e 50 52, stRange),
       (eSrcLen e == if eParam e 49 1 = 0 then 2 * n else n + 24, stRange)]
  source := true
  keys e :=
    [⟨eKey e, fun k => roleIs 1 17 k && keySuits (eParam e 48 1) k⟩,
     ⟨eTarget e, fun k => if eParam e 49 1 = 0 then roleIs 2 17 k && keySuits (eParam e 48 1) k
       else roleIs 2 16 k && algTdes (pAlg k.policy)⟩]
  work _ _ e src ks s := match ks with
    | [inn, pvk] =>
      let fmt := eParam e 48 1
      let pan := panDigits e 50 52
      let rest := src.drop (pinSize fmt)
      let pin := pinDecipher (pAlg inn.policy) inn.secret fmt pan (src.take (pinSize fmt))
      if eParam e 49 1 = 0 then
        verdict (pin.isSome && pin == pinDecipher (pAlg pvk.policy) pvk.secret fmt pan rest) s
      else if offsetDataOk rest = false then failed stRange s
      else verdict (pin.isSome && pin == offsetPin pvk rest (pin.getD []).length) s
    | _ => failed stInvalidKey s

def execPinVerify (r : CmdRef) (s : State) : Res := native svcPinVerify r s

/-! ### DUKPT (R123 to R125) -/

/-- The transaction counter of a KSN field (R124). -/
def ksnCounter (variant : Nat) (ksn : List Byte) : Nat :=
  if variant = 0 then beNat (slice ksn 7 3) % 2 ^ 21 else beNat (slice ksn 8 4)

/-- Is a KSN field as R123 and R124 ask? -/
def ksnOk (variant : Nat) (ksn : List Byte) : Bool :=
  let c := ksnCounter variant ksn
  let d := popCount (BitVec.ofNat 32 c)
  decide (c ≠ 0) && decide (d ≤ if variant = 0 then 10 else 16) && allZero (slice ksn (if variant = 0 then 10 else 12) 6)

/-- The set bits of a counter from the highest, each with the bits above it: the registers of the derivation. -/
def counterSteps (bits c : Nat) : List Nat :=
  (((List.range bits).reverse.foldl (fun (a : Nat × List Nat) i =>
    if c.testBit i then (a.1 + 2 ^ i, a.2 ++ [a.1 + 2 ^ i]) else a) (0, [])).2)

/-- XOR with a mask repeated over both halves of a TDES key. -/
def xorHalves (m key : List Byte) : List Byte := xorBytes key (m ++ m)

/-- The mask of ANSI X9.24-1. -/
def dukptMask : List Byte := [0xC0, 0xC0, 0xC0, 0xC0, 0, 0, 0, 0]

/-- The initial key of TDES DUKPT. -/
def tdesInitialKey (bdk ksn : List Byte) : List Byte :=
  let b := ksn.take 7 ++ [(ksn.getD 7 0) &&& 0xE0]
  tdesEnc bdk b ++ tdesEnc (xorHalves dukptMask bdk) b

/-- The non-reversible key generation process of ANSI X9.24-1. -/
def tdesNextKey (key reg : List Byte) : List Byte :=
  let half := fun (k : List Byte) =>
    let l := k.take 8
    let r := k.drop 8
    xorBytes (desEnc l (xorBytes reg r)) r
  half (xorHalves dukptMask key) ++ half key

/-- The key of a transaction of TDES DUKPT, from the initial key. -/
def tdesTransactionKey (initial ksn : List Byte) : List Byte :=
  let base := beNat (slice ksn 2 8) / 2 ^ 21 * 2 ^ 21
  (counterSteps 21 (ksnCounter 0 ksn)).foldl (fun k c => tdesNextKey k (beBytes 8 (base + c))) initial

/-- The algorithm indicator of ANSI X9.24-3 for an AES key length, and the length in bits. -/
def aesIndicator (len : Nat) : List Byte := [0, if len = 16 then 2 else if len = 24 then 3 else 4] ++ beBytes 2 (8 * len)

/-- A derived key of AES DUKPT: encipherments of derivation data under block counters 1 and 2. -/
def aesDerive (key usage : List Byte) (len : Nat) (data : List Byte) : List Byte :=
  ((if len = 16 then [1] else [1, 2]).flatMap fun i => aesEnc key ([1, i] ++ usage ++ aesIndicator len ++ data)).take len

/-- The working key of AES DUKPT for a usage, from the initial key. -/
def aesWorkingKey (initial ksn usage : List Byte) : List Byte :=
  let n := initial.length
  let k := (counterSteps 32 (ksnCounter 1 ksn)).foldl
    (fun k c => aesDerive k [0x80, 0x00] n (slice ksn 4 4 ++ beBytes 4 c)) initial
  aesDerive k usage n (slice ksn 4 8)

/-- The purposes of a DUKPT working key. -/
inductive DukptUse where
  | pin | macRequest | macResponse
deriving DecidableEq, Repr

/-- The working key of a terminal: from a base derivation key or an initial key (R123, R124). -/
def dukptKey (variant : Nat) (k : LoadedKey) (ksn : List Byte) (use : DukptUse) : List Byte :=
  let base := pUsage k.policy == 3
  if variant = 0 then
    let ik := if base then tdesInitialKey k.secret ksn else k.secret
    let m : List Byte := match use with
      | .pin => [0, 0, 0, 0, 0, 0, 0, 0xFF]
      | .macRequest => [0, 0, 0, 0, 0, 0, 0xFF, 0]
      | .macResponse => [0, 0, 0, 0, 0xFF, 0, 0, 0]
    xorHalves m (tdesTransactionKey ik ksn)
  else
    let ik := if base then aesDerive k.secret [0x80, 0x01] k.secret.length (slice ksn 0 8) else k.secret
    aesWorkingKey ik ksn (match use with
      | .pin => [0x10, 0x00]
      | .macRequest => [0x20, 0x00]
      | .macResponse => [0x20, 0x01])

/-- May a key serve a DUKPT variant: usage BDK or DUKPT_INITIAL, DERIVE, and the variant's algorithm (R110, R124)? -/
def dukptRole (variant : Nat) (k : LoadedKey) : Bool :=
  (roleIs 3 20 k || roleIs 4 20 k) && (if variant = 0 then pAlg k.policy == 1 else algAes (pAlg k.policy))

/-- DUKPT_PIN_TRANSLATE (R123, R124). -/
def svcDukptPinTranslate : Service where
  opcode := 0x0110
  clear e := allZero (slice e 62 2)
  ranges s g e := handleInRange s g (eTarget e)
  fields e := firstFail
    [(decide (eParam e 48 1 ≤ 1), stRange), (pinFormat (eParam e 49 1), stRange), (panCountOk false (eParam e 50 1), stRange),
     (if eParam e 48 1 = 0 then eParam e 51 1 != 4 && pinFormat (eParam e 51 1) else eParam e 51 1 == 4, stRange),
     (panFieldOk e 50 52, stRange), (eSrcLen e == 16 + pinSize (eParam e 51 1), stRange)]
  size e := pinSize (eParam e 49 1)
  short := true
  source := true
  keys e := [⟨eKey e, dukptRole (eParam e 48 1)⟩, ⟨eTarget e, fun k => roleIs 1 16 k && keySuits (eParam e 49 1) k⟩]
  work _ t e src ks s := match ks with
    | [k, out] =>
      let v := eParam e 48 1
      let ksn := src.take 16
      if ksnOk v ksn = false then failed stRange s
      else
        let pin := pinDecipher (if v = 0 then 1 else pAlg k.policy) (dukptKey v k ksn .pin) (eParam e 51 1) (panDigits e 50 52)
          (src.drop 16)
        translated t e pin out (eParam e 49 1) (panDigits e 50 52) s
    | _ => failed stInvalidKey s

def execDukptPinTranslate (r : CmdRef) (s : State) : Res := native svcDukptPinTranslate r s

/-- DUKPT_MAC_VERIFY (R125). -/
def svcDukptMacVerify : Service where
  opcode := 0x0111
  clear e := allZero (slice e 40 8) && allZero (slice e 51 13)
  fields e := firstFail
    [(decide (eParam e 48 1 ≤ 1), stRange),
     (decide (4 ≤ eParam e 49 1 ∧ eParam e 49 1 ≤ if eParam e 48 1 = 0 then 8 else 16), stRange),
     (decide (eParam e 50 1 ≤ 1), stRange),
     (decide ((if eParam e 48 1 = 0 then 33 else 32) ≤ eSrcLen e), stRange)]
  source := true
  keys e := [⟨eKey e, dukptRole (eParam e 48 1)⟩]
  work _ _ e src ks s := match ks with
    | [k] =>
      let v := eParam e 48 1
      let ksn := src.take 16
      let m := src.drop 32
      if ksnOk v ksn = false then failed stRange s
      else
        let key := dukptKey v k ksn (if eParam e 50 1 = 0 then .macRequest else .macResponse)
        let mac := if v = 0 then macAlg3 key (pad9797 8 false m) else aesCmac key m
        verdict (mac.take (eParam e 49 1) == slice src 16 (eParam e 49 1)) s
    | _ => failed stInvalidKey s

def execDukptMacVerify (r : CmdRef) (s : State) : Res := native svcDukptMacVerify r s

/-! ### EMV_AC_VERIFY (R126, R127) -/

/-- The card master key: option A for TDES, the AES derivation for AES (EMV Book 2). -/
def cardKey (aes : Bool) (imk : List Byte) (pan : List Nat) (psn : Byte) : List Byte :=
  let ds := pan ++ nibblesOf [psn]
  let inv := fun (b : List Byte) => b.map fun x => x ^^^ 0xFF
  if aes then
    let y := ofNibbles (rightAligned 32 ds)
    (aesEnc imk y ++ (if imk.length = 16 then [] else aesEnc imk (inv y))).take imk.length
  else
    let y := ofNibbles (rightAligned 16 ds)
    setParity (tdesEnc imk y ++ tdesEnc imk (inv y))

/-- The session key of a transaction counter (EMV Book 2, common session key derivation). -/
def emvSessionKey (aes : Bool) (mk atc : List Byte) : List Byte :=
  let blk := fun (b : Byte) (n : Nat) => atc ++ [b] ++ List.replicate (n - 3) 0
  if aes then
    if mk.length = 16 then aesEnc mk (blk 0 16) else (aesEnc mk (blk 0xF0 16) ++ aesEnc mk (blk 0x0F 16)).take mk.length
  else tdesEnc mk (blk 0xF0 8) ++ tdesEnc mk (blk 0x0F 8)

/-- The MAC of an application cryptogram and of ARPC method 2 (R127). -/
def emvMac (aes : Bool) (sk d : List Byte) : List Byte :=
  if aes then (aesCmac sk d).take 8 else macAlg3 sk (pad9797 8 true d)

/-- EMV_AC_VERIFY (R126, R127). -/
def svcEmvAcVerify : Service where
  opcode := 0x0120
  clear _ := true
  fields e := firstFail
    [(decide (eParam e 40 1 ≤ 1), stRange), (decide (eParam e 41 1 ≤ 2), stRange),
     (!(eParam e 41 1 == 1 && eParam e 40 1 == 1), stUnsupported),
     (eParam e 42 1 == 0xFF || decimals (nibblesOf (slice e 42 1)), stRange), (panCountOk false (eParam e 43 1), stRange),
     (panFieldOk e 43 44, stRange), (decide (9 ≤ eSrcLen e ∧ eSrcLen e ≤ 1032), stRange)]
  size e := if eParam e 41 1 = 0 then 0 else if eParam e 41 1 = 1 then 8 else 4
  short := true
  source := true
  keys e := [⟨eKey e, fun k => roleIs 0xA 20 k && (if eParam e 40 1 = 0 then pAlg k.policy == 1 else algAes (pAlg k.policy))⟩]
  work _ _ e src ks s := match ks with
    | [k] =>
      let aes := eParam e 40 1 == 1
      let psn : Byte := if eParam e 42 1 = 0xFF then 0 else BitVec.ofNat 8 (eParam e 42 1)
      let sk := emvSessionKey aes (cardKey aes k.secret (panDigits e 43 44) psn) (slice e 54 2)
      let ac := slice e 56 8
      if emvMac aes sk (src.drop 8) ≠ ac then failed stVerifyFailed s
      else if eParam e 41 1 = 0 then verdict true s
      else if eParam e 41 1 = 1 then shortResult e (tdesEnc sk (xorBytes ac (slice src 0 2 ++ List.replicate 6 0))) 8 s
      else shortResult e ((emvMac aes sk (ac ++ slice src 0 4)).take 4) 4 s
    | _ => failed stInvalidKey s

def execEmvAcVerify (r : CmdRef) (s : State) : Res := native svcEmvAcVerify r s

/-! ### CCV_GENERATE, CCV_VERIFY (R128) -/

/-- The three service-code digits. -/
def serviceDigits (e : List Byte) : List Nat := let v := eParam e 54 2; [v / 256, v / 16 % 16, v % 16]

/-- The digits of a check value (R128). -/
def ccvDigits (key : List Byte) (e : List Byte) : List Nat :=
  let ds := panDigits e 41 42 ++ nibblesOf (slice e 52 2) ++ serviceDigits e
  let all := ofNibbles (ds ++ List.replicate (32 - ds.length) 0)
  let ka := key.take 8
  let kb := key.drop 8
  let x := xorBytes (desEnc ka (all.take 8)) (all.drop 8)
  let ys := nibblesOf (desEnc ka (desDec kb (desEnc ka x)))
  ((ys.filter fun n => decide (n ≤ 9)) ++ (ys.filter fun n => decide (10 ≤ n)).map fun n => n - 10).take (eParam e 40 1)

/-- The check value as 3 bytes of BCD padded with 0xF. -/
def ccvBytes (key e : List Byte) : List Byte :=
  let ds := ccvDigits key e
  ofNibbles (ds ++ List.replicate (6 - ds.length) 15)

/-- The fields that both commands share. -/
def ccvFields (e : List Byte) : List (Bool × Nat) :=
  [(decide (3 ≤ eParam e 40 1 ∧ eParam e 40 1 ≤ 5), stRange), (panCountOk false (eParam e 41 1), stRange),
   (panFieldOk e 41 42, stRange), (decimals (nibblesOf (slice e 52 2)), stRange), (decimals (serviceDigits e), stRange)]

/-- CCV_GENERATE (R128): RESULT gives DIGITS. -/
def svcCcvGenerate : Service where
  opcode := 0x0128
  clear e := allZero (slice e 59 5)
  fields e := firstFail (ccvFields e)
  size _ := 3
  short := true
  keys e := [⟨eKey e, roleIs 9 16⟩]
  work _ _ e _ ks s := match ks with
    | [k] => shortResult e (ccvBytes k.secret e) (eParam e 40 1) s
    | _ => failed stInvalidKey s

def execCcvGenerate (r : CmdRef) (s : State) : Res := native svcCcvGenerate r s

/-- CCV_VERIFY (R128). -/
def svcCcvVerify : Service where
  opcode := 0x0129
  clear e := allZero (slice e 59 5)
  fields e :=
    let v := nibblesOf (slice e 56 3)
    firstFail (ccvFields e ++
      [(decimals (v.take (eParam e 40 1)), stRange), ((v.drop (eParam e 40 1)).all (· == 15), stRange)])
  keys e := [⟨eKey e, roleIs 9 17⟩]
  work _ _ e _ ks s := match ks with
    | [k] => verdict (ccvBytes k.secret e == slice e 56 3) s
    | _ => failed stInvalidKey s

def execCcvVerify (r : CmdRef) (s : State) : Res := native svcCcvVerify r s

end Sys2Proof.Machine
end

