-- ==== Sys2Proof/Machine/PortRows.lean ====
section
/-! DEFINITION. The rows of R191: a core writes GO of its symmetric port with the OP in CMD (R188 to R191). -/

namespace Sys2Proof.Machine

/-- The address of GO (R188, R189). -/
abbrev goAddress : Nat := 0xFFFFE020

/-- Core `c` writes GO where its port's CMD names this OP: a store at the core's level, which its gate judges; a refused one
raises GATE (R188, R336). A core that cannot issue writes nothing. -/
def portRow (op : Nat) (c : CoreId) (s : State) : State :=
  let n := coreNum c
  if canIssue s n = true ∧ (portRequest (portOf s n)).op = op then
    match coreStore n goAddress (List.replicate 4 0) (wake n s) with
    | (.refused, s) => faultHere n exGate s
    | (_, s) => s
  else s

def execChainOpen (c : CoreId) (s : State) : Res := .next (portRow 1 c s)
def execChainClose (c : CoreId) (s : State) : Res := .next (portRow 2 c s)
def execKeyLoad (c : CoreId) (s : State) : Res := .next (portRow 3 c s)
def execDerive (c : CoreId) (s : State) : Res := .next (portRow 4 c s)
def execBlock (c : CoreId) (s : State) : Res := .next (portRow 5 c s)
def execMac (c : CoreId) (s : State) : Res := .next (portRow 6 c s)
def execShaInit (c : CoreId) (s : State) : Res := .next (portRow 7 c s)
def execShaBlocks (c : CoreId) (s : State) : Res := .next (portRow 8 c s)
def execShaFinal (c : CoreId) (s : State) : Res := .next (portRow 9 c s)
def execDrbg (c : CoreId) (s : State) : Res := .next (portRow 10 c s)
def execCtrNext (c : CoreId) (s : State) : Res := .next (portRow 11 c s)
def execCtrNextTime (c : CoreId) (s : State) : Res := .next (portRow 12 c s)
def execCtrRead (c : CoreId) (s : State) : Res := .next (portRow 13 c s)

end Sys2Proof.Machine
end

