-- ==== Sys2Proof/Machine/TenantServices.lean ====
section
/-! DEFINITION. Service packages and tenant commands (04_transaction_services.md, R152 to R156), and the commands of the
physical function's rings (R114 to R117). -/

namespace Sys2Proof.Machine

/-! ### SERVICE_LOAD, SERVICE_UNLOAD (R153, R156) -/

/-- A command waits for its install step; only one of a gable does so at a time. -/
def awaitInstall (r : CmdRef) (pub : List Byte) (s : State) : Answer :=
  if (installWaits s r.fn).isSome then .waits s
  else .waits (updCmd r (fun c => { c with pkgKey := pub })
    { s with svc := { s.svc with waiting := SMap.set none s.svc.waiting r.fn (some r) } })

/-- SERVICE_LOAD (R153): the checks, then the install step. -/
def svcServiceLoad : Service where
  opcode := 0x01F0
  clear e := allZero (slice e 40 24)
  source := true
  wma _ := true
  keys e := [⟨eKey e, roleIs 0xF 17⟩]
  work r _ _ src ks s := match ks with
    | [k] => match parsePackage src with
      | none => failed stRange s
      | some p =>
        let have_ := match installed s r.fn with
          | some q => q.generation
          | none => 0
        if p.generation ≤ have_ then failed stStateRefused s
        else if pkgSigOk k.pub src = false then failed stVerifyFailed s
        else if (gableCfg s r.fn).flashSectors * 4096 < src.length then failed stExhausted s
        else awaitInstall r k.pub s
    | _ => failed stInvalidKey s

def execServiceLoad (r : CmdRef) (s : State) : Res := native svcServiceLoad r s

/-- SERVICE_UNLOAD (R112, R153). -/
def svcServiceUnload : Service where
  opcode := 0x01F1
  keyZero := true
  clear e := allZero (slice e 40 24)
  ready s g _ := (installed s g).isSome
  work r _ _ _ _ s := awaitInstall r [] s

def execServiceUnload (r : CmdRef) (s : State) : Res := native svcServiceUnload r s

/-- Does a tenant command of the gable run on a worker (R156)? -/
def tenantRunning (s : State) (g : Nat) : Bool :=
  s.hqi.cmds.any fun c => c.ref.fn == g && c.worker.isSome && !c.finished

/-- The package's bytes go into the gable's flash region. Every sector of the region is erased first (DESIGN CHOICE,
log 419). -/
def storePackage (g : Nat) (b : List Byte) (s : State) : State :=
  let c := gableCfg s g
  let s := fwEraseAll (svcAreaBase s.img.latched.partition + c.flashBase) c.flashSectors s
  if b.isEmpty then s else (fwProg (regionAddr s g) b s).2

/-- SERVICE_INSTALL (R153, R156): with no tenant command in flight the image is replaced or removed, and the command
whose install step it is completes. Zeros take the place of the old image (DESIGN CHOICE, log 418). -/
def serviceInstall (g : Nat) (s : State) : State :=
  match installWaits s g with
  | none => s
  | some r => match findCmd s r with
    | none => s
    | some c =>
      if tenantRunning s g = true ∨ trussClocks s = false ∨ c.finished = true then s
      else
        let s := { s with svc := { s.svc with waiting := SMap.set none s.svc.waiting g none } }
        let old := ((installed s g).map fun p => p.image.length).getD 0
        let s := { putImage g (List.replicate old 0) s with
          svc := { s.svc with pkgs := SMap.set none s.svc.pkgs g none } }
        if eOpcode c.entry = 0x01F1 then
          endCmd r stOk 0 [] { storePackage g [] s with
            flash := { (storePackage g [] s).flash with pkgKeys := SMap.set [] s.flash.pkgKeys g [] } }
        else match c.src with
          | .got b => match parsePackage b with
            | some p =>
              let s := storePackage g b s
              let s := { s with flash := { s.flash with pkgKeys := SMap.set [] s.flash.pkgKeys g c.pkgKey } }
              endCmd r stOk 0 [] (installPackage g p s)
            | none => s
          | _ => s

def execServiceInstall (gable : Nat) (s : State) : Res := .next (serviceInstall gable s)

/-! ### Tenant commands (R154, R155) -/

/-- Draw free words into the general registers of core `n`: what the runtime leaves there is its own. -/
def freeRegs (n : Nat) : Nat → State → State
  | 0, s => s
  | f + 1, s =>
    let d := drawWord s
    freeRegs n f (d.2.updCore n fun c => c.setReg f d.1)

/-- Where the runtime puts the copy of an entry that it hands to a program: a free place in the worker's own local data,
whose address it passes in g0 (R154; DESIGN CHOICE, log 414). -/
def handEntry (n : Nat) (e : List Byte) (s : State) : State :=
  let d := drawBelow 2040 2 s
  let a := 8 * d.1
  d.2.updCore n fun c => { c.setReg 0 (BitVec.ofNat 32 a) with loc := Memory.write 0 c.loc a (padTo 64 e) }

/-- The runtime on core `n` starts a program by RETX at User level (R154, R285, R294): XPC and XST name it, a frame that
earlier code of that level left is popped, and the general registers are the runtime's own. -/
def startProgram (n pc : Nat) (e : List Byte) (s : State) : State :=
  retx n ((handEntry n e (freeRegs n 16 s)).updCore n fun c => { c with
    xpc := BitVec.ofNat 32 pc
    xst := setFld c.st 8 2 2 })

/-- The runtime's call gate, whose target, stack and limit are the runtime's own (R155, R298): what a program on core `n`
enters the Supervisor level by. Code that is at that level already has entered it. -/
def enterRuntime (n : Nat) (s : State) : State :=
  if (s.core n).pl = 2 then
    let d := drawBytes 12 s
    gateTransfer n ⟨BitVec.ofNat 32 (leAt d.1 0 4 / 4 * 4), 1, BitVec.ofNat 32 (leAt d.1 4 4), BitVec.ofNat 32 (leAt d.1 8 4)⟩ false d.2
  else s

/-- A program on core `n` is left by an exception or an interrupt of the given cause (R291, R292); code above User level has
left it already. -/
def leaveProgram (n cause : Nat) (s : State) : State := if (s.core n).pl = 2 then takeException n cause (s.core n).pc s else s

/-- The worker core waits for work again: the runtime's registers and address are its own. -/
def backToService (n : Nat) (s : State) : State :=
  let d := drawWord s
  (freeRegs n 16 d.2).updCore n fun c => { c with pc := BitVec.ofNat 32 (d.1.toNat / 4 * 4) }

/-- Do the gates of a worker's truss grant User-level read and execute on the image (R154)? -/
def imageGranted (s : State) (n len : Nat) : Bool :=
  gateDecide s (coreTag s n 2 0) (trussOf n) 0x20000 len kRead == .pass
    && gateDecide s (coreTag s n 2 0) (trussOf n) 0x20000 len kExec == .pass

/-- The status that a program's status becomes (R155). -/
def tenantStatus (st : Nat) : Nat := if 0xE ≤ st ∧ st ≤ 0x7FFF then stAborted else st

/-- Do `f` where the command that `r` names has not ended: a privilege forgery on the way has ended it (R295). -/
def whileLive (r : CmdRef) (f : State → State) (s : State) : State :=
  match findCmd s r with
  | some c => if c.finished then s else f s
  | none => s

/-- The tenant command that `r` names ends, where it has not ended already: the worker returns to service. -/
def finishProgram (r : CmdRef) (n st result : Nat) (inl : List Byte) (s : State) : State :=
  whileLive r (fun u => endCmd r st result inl (if (u.core n).phase = .running then backToService n u else u)) s

/-- The sub-command of core `n`'s program that is being carried out. -/
def subRef (r : CmdRef) (n : Nat) : CmdRef := ⟨r.fn, 128 + n, 0⟩

/-- The runtime takes up a sub-command (R155). -/
def issueSub (r : CmdRef) (n : Nat) (e : List Byte) (s : State) : State :=
  let cmd : Cmd := { ref := subRef r n, entry := padTo 64 e, committed := true }
  updCmd r (fun x => { x with calling := true }) { s with hqi := { s.hqi with cmds := s.hqi.cmds ++ [cmd] } }

/-- An opcode that is neither native nor BLOCK is answered with UNSUPPORTED (R155). -/
def subRefused (r : CmdRef) (n : Nat) (e : List Byte) (s : State) : State :=
  answerProgram n (completionBytes (padTo 64 e) stUnsupported 0 []) (updCmd r (fun x => { x with calling := true }) s)

/-- BLOCK as a sub-command (R155, R199): one block under a TENANT key; PARAM byte 40 is 1 to decipher, and bytes 48 to 63
hold the block. -/
def svcBlock : Service where
  opcode := blockOpcode
  clear _ := true
  keys e := [⟨eKey e, fun k => roleIs 0x10 (if eParam e 40 1 = 1 then 17 else 16) k && (algTdes (pAlg k.policy) || algAes (pAlg k.policy))⟩]
  work _ _ e _ ks s := match ks with
    | [k] =>
      let a := pAlg k.policy
      let b := (slice e 48 16).take (algBlock a)
      .ends stOk 0 (padTo 16 ((if eParam e 40 1 = 1 then blockDec a k.secret else blockEnc a k.secret) b)) [] s
    | _ => failed stInvalidKey s

/-- The entry under which BLOCK stands: KEY at byte 8. -/
def blockEntry (key : Dword) (decipher : Bool) (data : List Byte) : List Byte :=
  leBytes 2 blockOpcode ++ [0, 0] ++ List.replicate 4 0 ++ leBytes 8 key.toNat ++ List.replicate 24 0
    ++ [if decipher then 1 else 0] ++ List.replicate 7 0 ++ padTo 16 data

/-- The runtime goes on with a BLOCK that it has taken up. -/
def blockStep (r : CmdRef) (n : Nat) (s : State) : State :=
  match runnable s (subRef r n) with
  | some c => if eOpcode c.entry = blockOpcode then serve svcBlock (subRef r n) c s else s
  | none => s

/-- The program that called the runtime is returned to by RETX once its sub-command has been answered (R155, R300). -/
def returnProgram (r : CmdRef) (n : Nat) (s : State) : State :=
  match findCmd s r with
  | some c =>
    if c.calling then
      let s := updCmd r (fun x => { x with calling := false }) s
      if (s.core n).pl = 1 then retx n s else s
    else s
  | none => s

/-- What a tenant program that runs on core `n` does next (R154, R155). While a sub-command is carried out, the program
waits for it. -/
def tenantStep (r : CmdRef) (n : Nat) (res : TenantOutcome) (s : State) : State :=
  if (findCmd s (subRef r n)).isSome then
    match res with
    | .block _ _ _ => blockStep r n s
    | _ => s
  else
    let s := returnProgram r n s
    match res with
    | .started => s
    | .completes st result inl => finishProgram r n (tenantStatus st.toNat) result.toNat (inl.take 48) (enterRuntime n s)
    | .exception =>
      let d := drawBelow 9 1 s
      finishProgram r n stAborted 0 [] (leaveProgram n d.1 d.2)
    | .gateRefused => finishProgram r n stAborted 0 [] (leaveProgram n exGate s)
    | .subCommand e => whileLive r (if nativeOpcodes.contains (eOpcode e) then issueSub r n e else subRefused r n e) (enterRuntime n s)
    | .block k dec data => whileLive r (fun u => blockStep r n (issueSub r n (blockEntry k dec data) u)) (enterRuntime n s)

/-- Can core `n` take a tenant command of gable `g`: it is a logical core of the gable other than the dispatch core, its
runtime is in service, and it runs no program (R504)? -/
def isWorker (s : State) (g n : Nat) : Bool :=
  (liveTrusses s g).contains (trussOf n) && decide (n % 4 < coresPer s g) && n != dispatchOf s g
    && (s.core n).phase == .running && decide ((s.core n).pl ≤ 1)
    && !(s.hqi.cmds.any fun c => c.worker == some n && !c.finished)

/-- The dispatch core hands a tenant command to worker `n`: the checks of R103 that apply, then the program at ENTRY. -/
def tenantDispatch (r : CmdRef) (c : Cmd) (n : Nat) (res : TenantOutcome) (s : State) : State :=
  match tenantOpcode s r.fn (eOpcode c.entry) with
  | none => endCmd r stUnsupported 0 [] s
  | some (_, flags, entry, _) =>
    if bitOf flags 0 = true ∧ gableStatus s r ≠ stOk then endCmd r (gableStatus s r) 0 [] s
    else
      let len := ((installed s r.fn).map fun p => p.image.length).getD 0
      if imageGranted s n len = false then endCmd r stAborted 0 [] s
      else
        let u := updCmd r (fun x => { x with
          truss := some (trussOf n)
          worker := some n }) s
        tenantStep r n res (startProgram n (0x120000 + entry) c.entry u)

/-- TENANT_COMMAND (R154 to R156): a command that has not been dispatched goes to the worker named; one that runs ends
as its program does. -/
def tenantCommand (r : CmdRef) (core : CoreId) (res : TenantOutcome) (s : State) : Res :=
  match runnable s r with
  | none => .next s
  | some c =>
    if eOpcode c.entry < 0x8000 then .next s
    else match c.worker with
      | some n => .next (if n = coreNum core then tenantStep r n res s else s)
      | none =>
        let u := takeEntryPacket r s
        if (liveTrusses s r.fn).isEmpty then .next (endCmd r stAborted 0 [] u)
        else if (installWaits s r.fn).isSome then .next s
        else if c.bad = true ∨ entryReserved c.entry = true then .next (malformed r s u)
        else if isWorker s r.fn (coreNum core) = false ∨ core = .warden then .next s
        else .next (tenantDispatch r c (coreNum core) res u)

def execTenantCommand (r : CmdRef) (core : CoreId) (res : TenantOutcome) (s : State) : Res := tenantCommand r core res s

/-- TENANT_BUDGET_EXCEEDED (R154): the runtime's clock interrupt takes the core from the program. -/
def budgetExceeded (r : CmdRef) (s : State) : State :=
  match runnable s r with
  | some c => match c.worker with
    | some n => finishProgram r n stAborted 0 [] (leaveProgram n exTick s)
    | none => s
  | none => s

def execTenantBudgetExceeded (r : CmdRef) (s : State) : Res := .next (budgetExceeded r s)

/-! ### The physical function's commands (R114 to R117) -/

/-- The opcodes of R114. -/
def pfOpcodes : List Nat := [0x0000, 0x0F00, 0x0F01, 0x0F02]

/-- The gable that byte 40 names. -/
def eGable (e : List Byte) : Nat := eParam e 40 1

/-- INLINE of R116. -/
def gableInfo (s : State) (g : Nat) : List Byte :=
  if formed s g then
    let st : Byte := if s.svc.diverg then 2 else if reasonsOf s g ≠ 0 then 1 else 0
    [st, BitVec.ofNat 8 (reasonsOf s g), BitVec.ofNat 8 (modeOf s g), 0] ++ leBytes 4 (trussMaskOf s g)
      ++ leBytes 4 (s.sys.quar &&& BitVec.ofNat 32 (trussMaskOf s g)).toNat ++ leBytes 4 (fnOf s g).refuse
  else [3]

/-- Is a command of class K (R102, R152)? -/
def classKCmd (s : State) (g : Nat) (e : List Byte) : Bool :=
  let op := eOpcode e
  match tenantOpcode s g op with
  | some o => bitOf o.2.1 0
  | none => nativeOpcodes.contains op && !([0x0000, 0x0180, 0x0190, 0x01A0, 0x01A1].contains op)

/-- Does a physical-function entry set bits that R114 keeps zero (R117)? -/
def pfMalformed (e : List Byte) : Bool :=
  entryReserved e || eKey e != 0 || eSrcLen e != 0 || eDstLen e != 0
    || !allZero (slice e (if eOpcode e = 0 then 40 else 41) 24)

/-- One step of the warden on the physical-function command that `r` names, for the row of opcode `op` (R117). -/
def pfServe (op : Nat) (r : CmdRef) (f : Nat → State → State) (s : State) : Res :=
  match findCmd s r with
  | none => .next s
  | some c =>
    if c.committed = false ∨ c.finished = true ∨ r.fn ≠ 0 ∨ wardenUp s = false ∨ chainTurn s r = false
        ∨ (s.svc.drains.any fun d => d.1 == r) = true then .next s
    else
      let u := takeEntryPacket r s
      if c.bad = true then .next (malformed r s u)
      else if pfOpcodes.contains (eOpcode c.entry) = false then .next (endCmd r stUnsupported 0 [] u)
      else if eOpcode c.entry ≠ op then .next s
      else if pfMalformed c.entry then .next (malformed r s u)
      else
        let g := eGable c.entry
        let st := firstFail
          [(op == 0 || decide (1 ≤ g ∧ g ≤ 63), stRange),
           (!(op == 0x0F00 || op == 0x0F01) || formed s g, stStateRefused)]
        .next (if st = stOk then f g u else endCmd r st 0 [] u)

/-- NOP of the physical function. -/
def execPfNop (r : CmdRef) (s : State) : Res := pfServe 0 r (fun _ u => endCmd r stOk 0 [] u) s

/-- Class K commands of gable `g` in flight. -/
def classKRefs (s : State) (g : Nat) : List CmdRef :=
  (s.hqi.cmds.filter fun c => c.ref.fn == g && !offRing c.ref && classKCmd s g c.entry).map (·.ref)

/-- The class K commands in flight that were granted before gable `g`'s HOST reason was set; noted where it is set now. -/
def earlyRefs (s : State) (g : Nat) : List CmdRef :=
  if bitOf (SMap.get 0 s.svc.reasons g) 0 then (SMap.get [] s.svc.early g).filter fun r => (findCmd s r).isSome else classKRefs s g

/-- GABLE_SUSPEND: HOST at once; the completion waits for the class K commands granted before HOST was set (R117). -/
def execGableSuspend (r : CmdRef) (s : State) : Res :=
  pfServe 0x0F00 r (fun g u =>
    let before := earlyRefs u g
    let u := { u with svc := { u.svc with early := SMap.set [] u.svc.early g before } }
    let v := setReason g 0 true u
    if before.isEmpty then endCmd r stOk 0 (gableInfo v g) v
    else { v with svc := { v.svc with drains := v.svc.drains ++ [(r, g, before)] } }) s

/-- GABLE_SUSPEND_DRAINED: the commands that a GABLE_SUSPEND waits for have completed. -/
def suspendDrained (r : CmdRef) (s : State) : State :=
  match s.svc.drains.find? fun d => d.1 == r with
  | some (_, g, before) =>
    if wardenUp s = false ∨ (before.any fun x => (findCmd s x).isSome) = true then s
    else endCmd r stOk 0 (gableInfo s g) { s with svc := { s.svc with drains := s.svc.drains.filter fun d => d.1 != r } }
  | none => s

def execGableSuspendDrained (r : CmdRef) (s : State) : Res := .next (suspendDrained r s)

/-- GABLE_RESUME: HOST is cleared, for the commands granted from now on (R117). -/
def execGableResume (r : CmdRef) (s : State) : Res :=
  pfServe 0x0F01 r (fun g u =>
    let held := if bitOf (SMap.get 0 u.svc.reasons g) 0 then classKRefs u g
      else (SMap.get [] u.svc.stale g).filter fun x => (findCmd u x).isSome
    let v := setReason g 0 false { u with svc := { u.svc with stale := SMap.set [] u.svc.stale g held } }
    endCmd r stOk 0 (gableInfo v g) v) s

/-- GABLE_INFO. -/
def execGableInfo (r : CmdRef) (s : State) : Res := pfServe 0x0F02 r (fun g u => endCmd r stOk 0 (gableInfo u g) u) s

end Sys2Proof.Machine
end

