-- ==== Sys2Proof/Machine/Dispatch.lean ====
section
/-! DEFINITION. One arm per command: the meaning of each row of the opcode table. -/

namespace Sys2Proof.Machine

/-- The effect of a command on everything but the queue. -/
def exec (i : Instr) (s : State) : Host.Outcome State Fault Refusal :=
  match i with
  | .registerWrite who off width value => Sys2Proof.Machine.execRegisterWrite who off width value s
  | .shadowPendingWrite who off value => Sys2Proof.Machine.execShadowPendingWrite who off value s
  | .powerUp env => Sys2Proof.Machine.execPowerUp env s
  | .sysRstCtl who env => Sys2Proof.Machine.execSysRstCtl who env s
  | .watchdogExpiry env => Sys2Proof.Machine.execWatchdogExpiry env s
  | .msuInitDone lines => Sys2Proof.Machine.execMsuInitDone lines s
  | .imageLoad => Sys2Proof.Machine.execImageLoad s
  | .keyStorePowerUp => Sys2Proof.Machine.execKeyStorePowerUp s
  | .logReplayEnd => Sys2Proof.Machine.execLogReplayEnd s
  | .pavaneFrameBoundary => Sys2Proof.Machine.execPavaneFrameBoundary s
  | .pavaneSlotStart => Sys2Proof.Machine.execPavaneSlotStart s
  | .reelFrameBoundary => Sys2Proof.Machine.execReelFrameBoundary s
  | .grantCycle => Sys2Proof.Machine.execGrantCycle s
  | .entryCommit fn ring => Sys2Proof.Machine.execEntryCommit fn ring s
  | .ringOpen who => Sys2Proof.Machine.execRingOpen who s
  | .openComplete => Sys2Proof.Machine.execOpenComplete s
  | .tailDoorbell fn ring value bad => Sys2Proof.Machine.execTailDoorbell fn ring value bad s
  | .inlineWrite fn ring slot data bad => Sys2Proof.Machine.execInlineWrite fn ring slot data bad s
  | .doorbellWindowDiscard fn ring off width => Sys2Proof.Machine.execDoorbellWindowDiscard fn ring off width s
  | .postedEntriesKnown fn ring => Sys2Proof.Machine.execPostedEntriesKnown fn ring s
  | .entryFetchReturn fn ring pos res => Sys2Proof.Machine.execEntryFetchReturn fn ring pos res s
  | .completionTimeout rd => Sys2Proof.Machine.execCompletionTimeout rd s
  | .hostReadReturn rd res => Sys2Proof.Machine.execHostReadReturn rd res s
  | .unsupportedRequestReceived kind => Sys2Proof.Machine.execUnsupportedRequestReceived kind s
  | .functionLevelReset fn => Sys2Proof.Machine.execFunctionLevelReset fn s
  | .conventionalReset kind => Sys2Proof.Machine.execConventionalReset kind s
  | .linkUp => Sys2Proof.Machine.execLinkUp s
  | .sinkHostWrite => Sys2Proof.Machine.execSinkHostWrite s
  | .sinkCompletionWrite => Sys2Proof.Machine.execSinkCompletionWrite s
  | .nop r => Sys2Proof.Machine.execNop r s
  | .pinTranslate r => Sys2Proof.Machine.execPinTranslate r s
  | .pinVerify r => Sys2Proof.Machine.execPinVerify r s
  | .dukptPinTranslate r => Sys2Proof.Machine.execDukptPinTranslate r s
  | .dukptMacVerify r => Sys2Proof.Machine.execDukptMacVerify r s
  | .emvAcVerify r => Sys2Proof.Machine.execEmvAcVerify r s
  | .ccvGenerate r => Sys2Proof.Machine.execCcvGenerate r s
  | .ccvVerify r => Sys2Proof.Machine.execCcvVerify r s
  | .macGenerate r => Sys2Proof.Machine.execMacGenerate r s
  | .macVerify r => Sys2Proof.Machine.execMacVerify r s
  | .keyImport r => Sys2Proof.Machine.execKeyImport r s
  | .keyExport r => Sys2Proof.Machine.execKeyExport r s
  | .keyGenerate r => Sys2Proof.Machine.execKeyGenerate r s
  | .keyImportPublic r => Sys2Proof.Machine.execKeyImportPublic r s
  | .keyDelete r => Sys2Proof.Machine.execKeyDelete r s
  | .keyInfo r => Sys2Proof.Machine.execKeyInfo r s
  | .ecdsaSign r => Sys2Proof.Machine.execEcdsaSign r s
  | .ecdsaVerify r => Sys2Proof.Machine.execEcdsaVerify r s
  | .meterSeal r => Sys2Proof.Machine.execMeterSeal r s
  | .meterVerify r => Sys2Proof.Machine.execMeterVerify r s
  | .tariffLoad r => Sys2Proof.Machine.execTariffLoad r s
  | .tariffPrice r => Sys2Proof.Machine.execTariffPrice r s
  | .hash r => Sys2Proof.Machine.execHash r s
  | .random r => Sys2Proof.Machine.execRandom r s
  | .counterNext r => Sys2Proof.Machine.execCounterNext r s
  | .counterRead r => Sys2Proof.Machine.execCounterRead r s
  | .serviceLoad r => Sys2Proof.Machine.execServiceLoad r s
  | .serviceUnload r => Sys2Proof.Machine.execServiceUnload r s
  | .serviceInstall gable => Sys2Proof.Machine.execServiceInstall gable s
  | .tenantCommand r core res => Sys2Proof.Machine.execTenantCommand r core res s
  | .tenantBudgetExceeded r => Sys2Proof.Machine.execTenantBudgetExceeded r s
  | .gableSuspend r => Sys2Proof.Machine.execGableSuspend r s
  | .gableSuspendDrained r => Sys2Proof.Machine.execGableSuspendDrained r s
  | .gableResume r => Sys2Proof.Machine.execGableResume r s
  | .gableInfo r => Sys2Proof.Machine.execGableInfo r s
  | .pfNop r => Sys2Proof.Machine.execPfNop r s
  | .stage who => Sys2Proof.Machine.execStage who s
  | .stageFetchDone => Sys2Proof.Machine.execStageFetchDone s
  | .commit who => Sys2Proof.Machine.execCommit who s
  | .commitSlotWritten => Sys2Proof.Machine.execCommitSlotWritten s
  | .discard who => Sys2Proof.Machine.execDiscard who s
  | .modset c o => Sys2Proof.Machine.execModset c o s
  | .mmul c o => Sys2Proof.Machine.execMmul c o s
  | .mmac c o => Sys2Proof.Machine.execMmac c o s
  | .madd c o => Sys2Proof.Machine.execMadd c o s
  | .msub c o => Sys2Proof.Machine.execMsub c o s
  | .iadd c o => Sys2Proof.Machine.execIadd c o s
  | .mcswap c o => Sys2Proof.Machine.execMcswap c o s
  | .msel c o => Sys2Proof.Machine.execMsel c o s
  | .mmov c o => Sys2Proof.Machine.execMmov c o s
  | .mclr c o => Sys2Proof.Machine.execMclr c o s
  | .mcmp c o => Sys2Proof.Machine.execMcmp c o s
  | .mld c o => Sys2Proof.Machine.execMld c o s
  | .mst c o => Sys2Proof.Machine.execMst c o s
  | .mrand c o => Sys2Proof.Machine.execMrand c o s
  | .mkey c o => Sys2Proof.Machine.execMkey c o s
  | .mrelease c o => Sys2Proof.Machine.execMrelease c o s
  | .mstat c o => Sys2Proof.Machine.execMstat c o s
  | .mabort c o => Sys2Proof.Machine.execMabort c o s
  | .wmaInstructionEnd truss ctx mismatch => Sys2Proof.Machine.execWmaInstructionEnd truss ctx mismatch s
  | .galliardLoad who n => Sys2Proof.Machine.execGalliardLoad who n s
  | .galliardLoadComplete n => Sys2Proof.Machine.execGalliardLoadComplete n s
  | .galEcdsaVerifyRom who n => Sys2Proof.Machine.execGalEcdsaVerifyRom who n s
  | .galRsaPrivate who n => Sys2Proof.Machine.execGalRsaPrivate who n s
  | .galRsaPublic who n => Sys2Proof.Machine.execGalRsaPublic who n s
  | .galEcdsaVerify who n => Sys2Proof.Machine.execGalEcdsaVerify who n s
  | .galEcdsaSign who n => Sys2Proof.Machine.execGalEcdsaSign who n s
  | .galEcdsaSignRom who n => Sys2Proof.Machine.execGalEcdsaSignRom who n s
  | .galliardRunDone n => Sys2Proof.Machine.execGalliardRunDone n s
  | .galliardAbort who n => Sys2Proof.Machine.execGalliardAbort who n s
  | .chainOpen c => Sys2Proof.Machine.execChainOpen c s
  | .chainClose c => Sys2Proof.Machine.execChainClose c s
  | .keyLoad c => Sys2Proof.Machine.execKeyLoad c s
  | .derive c => Sys2Proof.Machine.execDerive c s
  | .block c => Sys2Proof.Machine.execBlock c s
  | .mac c => Sys2Proof.Machine.execMac c s
  | .shaInit c => Sys2Proof.Machine.execShaInit c s
  | .shaBlocks c => Sys2Proof.Machine.execShaBlocks c s
  | .shaFinal c => Sys2Proof.Machine.execShaFinal c s
  | .drbg c => Sys2Proof.Machine.execDrbg c s
  | .ctrNext c => Sys2Proof.Machine.execCtrNext c s
  | .ctrNextTime c => Sys2Proof.Machine.execCtrNextTime c s
  | .ctrRead c => Sys2Proof.Machine.execCtrRead c s
  | .portRequestComplete c src mismatch => Sys2Proof.Machine.execPortRequestComplete c src mismatch s
  | .reserveRecordVerified index => Sys2Proof.Machine.execReserveRecordVerified index s
  | .timeRecordVerified => Sys2Proof.Machine.execTimeRecordVerified s
  | .pageRewrite => Sys2Proof.Machine.execPageRewrite s
  | .journalStallTimeout index => Sys2Proof.Machine.execJournalStallTimeout index s
  | .drbgReseedRetry truss => Sys2Proof.Machine.execDrbgReseedRetry truss s
  | .entropyBlock source healthy => Sys2Proof.Machine.execEntropyBlock source healthy s
  | .msuRead off len first second => Sys2Proof.Machine.execMsuRead off len first second s
  | .msuWrite off data first second => Sys2Proof.Machine.execMsuWrite off data first second s
  | .ksInit who => Sys2Proof.Machine.execKsInit who s
  | .backup who => Sys2Proof.Machine.execBackup who s
  | .restore who => Sys2Proof.Machine.execRestore who s
  | .confirm who => Sys2Proof.Machine.execConfirm who s
  | .ksDone => Sys2Proof.Machine.execKsDone s
  | .slotLogRecordVerified => Sys2Proof.Machine.execSlotLogRecordVerified s
  | .residentLogReclaim => Sys2Proof.Machine.execResidentLogReclaim s
  | .add c f => Sys2Proof.Machine.execAdd c f s
  | .sub c f => Sys2Proof.Machine.execSub c f s
  | .adds c f => Sys2Proof.Machine.execAdds c f s
  | .subs c f => Sys2Proof.Machine.execSubs c f s
  | .cmp c f => Sys2Proof.Machine.execCmp c f s
  | .and c f => Sys2Proof.Machine.execAnd c f s
  | .or c f => Sys2Proof.Machine.execOr c f s
  | .xor c f => Sys2Proof.Machine.execXor c f s
  | .andn c f => Sys2Proof.Machine.execAndn c f s
  | .tst c f => Sys2Proof.Machine.execTst c f s
  | .shl c f => Sys2Proof.Machine.execShl c f s
  | .shr c f => Sys2Proof.Machine.execShr c f s
  | .sar c f => Sys2Proof.Machine.execSar c f s
  | .shli c f => Sys2Proof.Machine.execShli c f s
  | .shri c f => Sys2Proof.Machine.execShri c f s
  | .sari c f => Sys2Proof.Machine.execSari c f s
  | .roli c f => Sys2Proof.Machine.execRoli c f s
  | .min c f => Sys2Proof.Machine.execMin c f s
  | .max c f => Sys2Proof.Machine.execMax c f s
  | .minu c f => Sys2Proof.Machine.execMinu c f s
  | .maxu c f => Sys2Proof.Machine.execMaxu c f s
  | .mul c f => Sys2Proof.Machine.execMul c f s
  | .mulh c f => Sys2Proof.Machine.execMulh c f s
  | .mulhu c f => Sys2Proof.Machine.execMulhu c f s
  | .mull c f => Sys2Proof.Machine.execMull c f s
  | .mullu c f => Sys2Proof.Machine.execMullu c f s
  | .divr c f => Sys2Proof.Machine.execDivr c f s
  | .divru c f => Sys2Proof.Machine.execDivru c f s
  | .clz c f => Sys2Proof.Machine.execClz c f s
  | .popc c f => Sys2Proof.Machine.execPopc c f s
  | .mov c f => Sys2Proof.Machine.execMov c f s
  | .adc c f => Sys2Proof.Machine.execAdc c f s
  | .sbc c f => Sys2Proof.Machine.execSbc c f s
  | .addi c f => Sys2Proof.Machine.execAddi c f s
  | .andi c f => Sys2Proof.Machine.execAndi c f s
  | .ori c f => Sys2Proof.Machine.execOri c f s
  | .xori c f => Sys2Proof.Machine.execXori c f s
  | .cmpi c f => Sys2Proof.Machine.execCmpi c f s
  | .movi c f => Sys2Proof.Machine.execMovi c f s
  | .ld c f => Sys2Proof.Machine.execLd c f s
  | .lds c f => Sys2Proof.Machine.execLds c f s
  | .st c f => Sys2Proof.Machine.execSt c f s
  | .bCond c f => Sys2Proof.Machine.execBCond c f s
  | .bl c f => Sys2Proof.Machine.execBl c f s
  | .jr c f => Sys2Proof.Machine.execJr c f s
  | .mfs c f => Sys2Proof.Machine.execMfs c f s
  | .mts c f => Sys2Proof.Machine.execMts c f s
  | .fence c f => Sys2Proof.Machine.execFence c f s
  | .ifence c f => Sys2Proof.Machine.execIfence c f s
  | .retx c f => Sys2Proof.Machine.execRetx c f s
  | .wait c f => Sys2Proof.Machine.execWait c f s
  | .nopInstruction c f => Sys2Proof.Machine.execNopInstruction c f s
  | .gate c f => Sys2Proof.Machine.execGate c f s
  | .mulf c f => Sys2Proof.Machine.execMulf c f s
  | .macf c f => Sys2Proof.Machine.execMacf c f s
  | .msuf c f => Sys2Proof.Machine.execMsuf c f s
  | .lda c f => Sys2Proof.Machine.execLda c f s
  | .sta c f => Sys2Proof.Machine.execSta c f s
  | .aadd c f => Sys2Proof.Machine.execAadd c f s
  | .asub c f => Sys2Proof.Machine.execAsub c f s
  | .mfa c f => Sys2Proof.Machine.execMfa c f s
  | .mta c f => Sys2Proof.Machine.execMta c f s
  | .bset c f => Sys2Proof.Machine.execBset c f s
  | .bclr c f => Sys2Proof.Machine.execBclr c f s
  | .bnot c f => Sys2Proof.Machine.execBnot c f s
  | .btst c f => Sys2Proof.Machine.execBtst c f s
  | .btas c f => Sys2Proof.Machine.execBtas c f s
  | .btac c f => Sys2Proof.Machine.execBtac c f s
  | .bld c f => Sys2Proof.Machine.execBld c f s
  | .bst c f => Sys2Proof.Machine.execBst c f s
  | .bfld c f => Sys2Proof.Machine.execBfld c f s
  | .bfst c f => Sys2Proof.Machine.execBfst c f s
  | .bmov c f => Sys2Proof.Machine.execBmov c f s
  | .band c f => Sys2Proof.Machine.execBand c f s
  | .bor c f => Sys2Proof.Machine.execBor c f s
  | .bxor c f => Sys2Proof.Machine.execBxor c f s
  | .bandn c f => Sys2Proof.Machine.execBandn c f s
  | .bb c f => Sys2Proof.Machine.execBb c f s
  | .tli c f => Sys2Proof.Machine.execTli c f s
  | .tvi c f => Sys2Proof.Machine.execTvi c f s
  | .bcopy c f => Sys2Proof.Machine.execBcopy c f s
  | .bscan c f => Sys2Proof.Machine.execBscan c f s
  | .copi c f => Sys2Proof.Machine.execCopi c f s
  | .copiStallEnd c => Sys2Proof.Machine.execCopiStallEnd c s
  | .impreciseException c => Sys2Proof.Machine.execImpreciseException c s
  | .quarantine c => Sys2Proof.Machine.execQuarantine c s
  | .tick c => Sys2Proof.Machine.execTick c s
  | .interruptTaken c => Sys2Proof.Machine.execInterruptTaken c s
  | .reedOpen c o => Sys2Proof.Machine.execReedOpen c o s
  | .putw c o => Sys2Proof.Machine.execPutw c o s
  | .putb c o => Sys2Proof.Machine.execPutb c o s
  | .reedCommit c o => Sys2Proof.Machine.execReedCommit c o s
  | .reedAbort c o => Sys2Proof.Machine.execReedAbort c o s
  | .take c o => Sys2Proof.Machine.execTake c o s
  | .takeResume c => Sys2Proof.Machine.execTakeResume c s
  | .getw c o => Sys2Proof.Machine.execGetw c o s
  | .getb c o => Sys2Proof.Machine.execGetb c o s
  | .release c o => Sys2Proof.Machine.execRelease c o s
  | .info c o => Sys2Proof.Machine.execInfo c o s
  | .count c o => Sys2Proof.Machine.execCount c o s
  | .faultPop who value => Sys2Proof.Machine.execFaultPop who value s
  | .debugAccess c write addr len value => Sys2Proof.Machine.execDebugAccess c write addr len value s
  | .flashRead who array => Sys2Proof.Machine.execFlashRead who array s
  | .prog who count => Sys2Proof.Machine.execProg who count s
  | .progComplete out => Sys2Proof.Machine.execProgComplete out s
  | .erase who => Sys2Proof.Machine.execErase who s
  | .eraseComplete out => Sys2Proof.Machine.execEraseComplete out s
  | .flashSuspend who => Sys2Proof.Machine.execFlashSuspend who s
  | .flashResume who => Sys2Proof.Machine.execFlashResume who s
  | .retire who out => Sys2Proof.Machine.execRetire who out s
  | .autoResume => Sys2Proof.Machine.execAutoResume s
  | .journalPortProg => Sys2Proof.Machine.execJournalPortProg s
  | .cacheFill addr array => Sys2Proof.Machine.execCacheFill addr array s
  | .prefetchRead array => Sys2Proof.Machine.execPrefetchRead array s
  | .sourceDetection src detail => Sys2Proof.Machine.execSourceDetection src detail s
  | .sourceInactive src => Sys2Proof.Machine.execSourceInactive src s
  | .arbitrationStep env => Sys2Proof.Machine.execArbitrationStep env s
  | .holdRelease => Sys2Proof.Machine.execHoldRelease s
  | .ack who => Sys2Proof.Machine.execAck who s
  | .ringAck who n => Sys2Proof.Machine.execRingAck who n s
  | .shadowScrub offs latches => Sys2Proof.Machine.execShadowScrub offs latches s
  | .vbatSwap land mv => Sys2Proof.Machine.execVbatSwap land mv s
  | .vaultEntry => Sys2Proof.Machine.execVaultEntry s
  | .vaultExit eaveMarker => Sys2Proof.Machine.execVaultExit eaveMarker s
  | .mainPowerLoss => Sys2Proof.Machine.execMainPowerLoss s
  | .slotPresent n => Sys2Proof.Machine.execSlotPresent n s
  | .slotAbsent n => Sys2Proof.Machine.execSlotAbsent n s
  | .slateResponse n frame => Sys2Proof.Machine.execSlateResponse n frame s
  | .dataBlockReceived n blk => Sys2Proof.Machine.execDataBlockReceived n blk s
  | .crcToken n token => Sys2Proof.Machine.execCrcToken n token s
  | .busyRelease n => Sys2Proof.Machine.execBusyRelease n s
  | .slateTimeout n limit => Sys2Proof.Machine.execSlateTimeout n limit s
  | .replyPoll n => Sys2Proof.Machine.execReplyPoll n s
  | .atr n res => Sys2Proof.Machine.execAtr n res s
  | .t1BlockReceived n blk => Sys2Proof.Machine.execT1BlockReceived n blk s
  | .ceremonyOpen who => Sys2Proof.Machine.execCeremonyOpen who s
  | .ceremonyStep who => Sys2Proof.Machine.execCeremonyStep who s
  | .ceremonyAbort who => Sys2Proof.Machine.execCeremonyAbort who s
  | .ceremonyClose who => Sys2Proof.Machine.execCeremonyClose who s
  | .ceremonyExpiry => Sys2Proof.Machine.execCeremonyExpiry s
  | .exportWindowExpiry => Sys2Proof.Machine.execExportWindowExpiry s
  | .portTrain n lanes => Sys2Proof.Machine.execPortTrain n lanes s
  | .hello n h => Sys2Proof.Machine.execHello n h s
  | .flitReceived n f => Sys2Proof.Machine.execFlitReceived n f s
  | .idleFlit n => Sys2Proof.Machine.execIdleFlit n s
  | .portTimeout n => Sys2Proof.Machine.execPortTimeout n s
  | .rekey n tx => Sys2Proof.Machine.execRekey n tx s
  | .replicationChange ch => Sys2Proof.Machine.execReplicationChange ch s
  | .resync member table seq => Sys2Proof.Machine.execResync member table seq s
  | .leaseGrant index member first count => Sys2Proof.Machine.execLeaseGrant index member first count s
  | .voteRequest voters => Sys2Proof.Machine.execVoteRequest voters s
  | .ridgeLossTimeout => Sys2Proof.Machine.execRidgeLossTimeout s
  | .successorLossTimeout => Sys2Proof.Machine.execSuccessorLossTimeout s
  | .holdExpiry => Sys2Proof.Machine.execHoldExpiry s
  | .timeSync offset ridgeSync => Sys2Proof.Machine.execTimeSync offset ridgeSync s
  | .loadReport member loads => Sys2Proof.Machine.execLoadReport member loads s
  | .forward src gable words => Sys2Proof.Machine.execForward src gable words s
  | .returnWork src gable words => Sys2Proof.Machine.execReturnWork src gable words s
  | .cancel src gable fwdId => Sys2Proof.Machine.execCancel src gable fwdId s
  | .forwardTimeout r => Sys2Proof.Machine.execForwardTimeout r s
  | .eventFwd member event => Sys2Proof.Machine.execEventFwd member event s
  | .idle who => Sys2Proof.Machine.execIdle who s
  | .active who => Sys2Proof.Machine.execActive who s
  | .standbyPrep who => Sys2Proof.Machine.execStandbyPrep who s
  | .powerDrainComplete => Sys2Proof.Machine.execPowerDrainComplete s
  | .kick who => Sys2Proof.Machine.execKick who s
  | .bootConfirm who => Sys2Proof.Machine.execBootConfirm who s
  | .setPref who slot => Sys2Proof.Machine.execSetPref who slot s
  | .rbReq who svn => Sys2Proof.Machine.execRbReq who svn s
  | .recoveryLoad who => Sys2Proof.Machine.execRecoveryLoad who s
  | .quote who => Sys2Proof.Machine.execQuote who s
  | .timeNonce who => Sys2Proof.Machine.execTimeNonce who s
  | .timeSet who => Sys2Proof.Machine.execTimeSet who s
  | .timeBaseWrite => Sys2Proof.Machine.execTimeBaseWrite s
  | .timeHoldover => Sys2Proof.Machine.execTimeHoldover s
  | .snapshot outs => Sys2Proof.Machine.execSnapshot outs s
  | .lifetimeMinute temp => Sys2Proof.Machine.execLifetimeMinute temp s
  | .eventArchive => Sys2Proof.Machine.execEventArchive s
  | .vidSet ack => Sys2Proof.Machine.execVidSet ack s
  | .vidRetry ack => Sys2Proof.Machine.execVidRetry ack s
  | .vcoreRecompute temp => Sys2Proof.Machine.execVcoreRecompute temp s
  | .spiRead addr words => Sys2Proof.Machine.execSpiRead addr words s
  | .spiWrite addr words => Sys2Proof.Machine.execSpiWrite addr words s
  | .spiStatus => Sys2Proof.Machine.execSpiStatus s
  | .jtagInstruction op env => Sys2Proof.Machine.execJtagInstruction op env s
  | .registerRead who off width => Sys2Proof.Machine.execRegisterRead who off width s
  | .configWrite f => Sys2Proof.Machine.execConfigWrite f s
  | .powerDown vaonToo => Sys2Proof.Machine.execPowerDown vaonToo s
  | .fuseTestAccess f => Sys2Proof.Machine.execFuseTestAccess f s
  | .startupTestRetry env => Sys2Proof.Machine.execStartupTestRetry env s
  | .timeSlewEnd => Sys2Proof.Machine.execTimeSlewEnd s
  | .sidebandAbsence n => Sys2Proof.Machine.execSidebandAbsence n s
  | .joinTransfer ksrk roster quorum table => Sys2Proof.Machine.execJoinTransfer ksrk roster quorum table s
  | .cascadeTableUpdate table removed => Sys2Proof.Machine.execCascadeTableUpdate table removed s
  | .ridgeWaitTimeout => Sys2Proof.Machine.execRidgeWaitTimeout s
  | .slotOvercurrent n => Sys2Proof.Machine.execSlotOvercurrent n s

end Sys2Proof.Machine
end

