-- ==== Sys2Proof/Machine/Step.lean ====
section
/-! DEFINITION. One step of the module: the command at the front of the queue, or one AON tick on an empty queue. -/

namespace Sys2Proof.Machine

/-- Take the first waiting command and carry it out with the queue's rest. On an empty queue one AON
tick passes (DESIGN CHOICE, log 1). -/
def step (s : State) : Host.Outcome State Fault Refusal :=
  match s.pending with
  | [] => .next (aonTick s)
  | c :: cs => exec c { s with pending := cs }

/-- Put the command that a table word spells at the front of the queue; the table gives no row bits, so no word
spells one. -/
def State.withFetchWord (s : State) (nbits w : Nat) : State :=
  match decodeTableWord nbits w with
  | some i => { s with pending := i :: s.pending }
  | none => s

end Sys2Proof.Machine
end

