-- ==== Sys2Proof/Machine/CamolCode.lean ====
section
/-! DEFINITION. The words of Camol instructions (08_camol_isa.md, R261 to R278): what a word, with its extension word,
stands for on a core, and the words of an instruction. A command of this block names a core's instruction directly; these
functions say how the core's memory spells it. -/

namespace Sys2Proof.Machine

/-- Bits `lo` to `lo + n − 1` of a word. -/
abbrev wordBits (lo n : Nat) (w : Word) : BitVec n := w.extractLsb' lo n

/-! ### Formats (R262) -/

/-- The fields of each format, read from a word. -/
def readR (w : Word) : FmtR := ⟨wordBits 22 4 w, wordBits 18 4 w, wordBits 14 4 w, wordBits 8 6 w⟩
def readI (w : Word) : FmtI := ⟨wordBits 22 4 w, wordBits 18 4 w, wordBits 0 18 w⟩
def readM (w : Word) : FmtM := ⟨wordBits 22 4 w, wordBits 18 4 w, wordBits 15 3 w, wordBits 13 2 w, wordBits 0 13 w⟩
def readA (w : Word) : FmtA := ⟨wordBits 22 4 w, wordBits 18 4 w, wordBits 16 2 w, wordBits 14 2 w, wordBits 9 5 w, wordBits 4 5 w⟩
def readB (w : Word) : FmtB := ⟨wordBits 22 4 w, wordBits 0 22 w⟩
def readJ (w : Word) : FmtJ := ⟨wordBits 22 4 w, wordBits 18 4 w, wordBits 17 1 w, wordBits 0 17 w⟩
def readX1 (w : Word) : FmtX1 := ⟨wordBits 21 1 w, wordBits 9 12 w, wordBits 8 1 w, wordBits 4 4 w, wordBits 0 4 w⟩
def readX2 (w : Word) : FmtX2 := ⟨wordBits 22 4 w, wordBits 21 1 w, wordBits 9 12 w, wordBits 4 5 w⟩
def readX3 (w : Word) : FmtX3 := ⟨wordBits 25 1 w, wordBits 24 1 w, wordBits 12 12 w, wordBits 0 12 w⟩
def readX4 (w : Word) : FmtX4 := ⟨wordBits 25 1 w, wordBits 24 1 w, wordBits 12 12 w, wordBits 0 12 w⟩
def readT (w : Word) : FmtT := ⟨wordBits 22 4 w, wordBits 18 4 w, wordBits 14 4 w, wordBits 9 5 w, wordBits 8 1 w, wordBits 0 8 w⟩
def readC (w ext : Word) : FmtC := ⟨wordBits 22 4 w, wordBits 18 4 w, wordBits 16 2 w, wordBits 0 16 w, ext⟩
def readG (w : Word) : FmtG := ⟨wordBits 14 12 w, wordBits 0 14 w⟩
def readE (w ext : Word) : FmtE := ⟨wordBits 22 4 w, wordBits 0 22 w, ext⟩

/-- The word of each format, from MAJ, fields and FN. -/
def wordR (maj : BitVec 6) (fn : BitVec 8) (f : FmtR) : Word := maj ++ f.rd ++ f.ra ++ f.rb ++ f.s ++ fn
def wordI (maj : BitVec 6) (f : FmtI) : Word := maj ++ f.rd ++ f.ra ++ f.imm
def wordM (maj : BitVec 6) (f : FmtM) : Word := maj ++ f.rd ++ f.rb ++ f.am ++ f.sz ++ f.low
def wordA (fn : BitVec 4) (f : FmtA) : Word := (0x10 : BitVec 6) ++ f.rg ++ f.rb ++ f.ad ++ f.as ++ f.f ++ f.z ++ fn
def wordB (maj : BitVec 6) (f : FmtB) : Word := maj ++ f.cond ++ f.disp
def wordJ (f : FmtJ) : Word := (0x1A : BitVec 6) ++ f.rd ++ f.ra ++ f.l ++ f.z
def wordX1 (fn : BitVec 4) (f : FmtX1) : Word := (0x20 : BitVec 6) ++ fn ++ f.sp ++ f.bn ++ f.ind ++ f.ra ++ f.z
def wordX2 (maj : BitVec 6) (fn : BitVec 4) (f : FmtX2) : Word := maj ++ f.rd ++ f.sp ++ f.bn ++ f.p ++ fn
def wordX3 (maj : BitVec 6) (f : FmtX3) : Word := maj ++ f.spd ++ f.sps ++ f.bd ++ f.bs
def wordX4 (f : FmtX4) : Word := (0x29 : BitVec 6) ++ f.sp ++ f.pol ++ f.bn ++ f.disp
def wordT (maj : BitVec 6) (f : FmtT) : Word := maj ++ f.rd ++ f.ra ++ f.rb ++ f.s ++ f.sgn ++ f.n
def wordC (f : FmtC) : Word := (0x30 : BitVec 6) ++ f.rd ++ f.ra ++ f.unit ++ f.z
def wordG (f : FmtG) : Word := (0x1D : BitVec 6) ++ f.z ++ f.index
def wordE (f : FmtE) : Word := (0x06 : BitVec 6) ++ f.rd ++ f.z

/-! ### From words to instructions -/

/-- Integer instructions of MAJ 0x00 by FN (R264). -/
def intOp (c : CoreId) (f : FmtR) : Nat → Option Instr
  | 0x0 => some (.add c f)
  | 0x1 => some (.sub c f)
  | 0x2 => some (.adds c f)
  | 0x3 => some (.subs c f)
  | 0x4 => some (.cmp c f)
  | 0x5 => some (.and c f)
  | 0x6 => some (.or c f)
  | 0x7 => some (.xor c f)
  | 0x8 => some (.andn c f)
  | 0x9 => some (.tst c f)
  | 0xA => some (.shl c f)
  | 0xB => some (.shr c f)
  | 0xC => some (.sar c f)
  | 0xD => some (.shli c f)
  | 0xE => some (.shri c f)
  | 0xF => some (.sari c f)
  | 0x10 => some (.roli c f)
  | 0x11 => some (.min c f)
  | 0x12 => some (.max c f)
  | 0x13 => some (.minu c f)
  | 0x14 => some (.maxu c f)
  | 0x15 => some (.mul c f)
  | 0x16 => some (.mulh c f)
  | 0x17 => some (.mulhu c f)
  | 0x18 => some (.mull c f)
  | 0x19 => some (.mullu c f)
  | 0x1A => some (.divr c f)
  | 0x1B => some (.divru c f)
  | 0x1D => some (.clz c f)
  | 0x1E => some (.popc c f)
  | 0x1F => some (.mov c f)
  | 0x20 => some (.adc c f)
  | 0x21 => some (.sbc c f)
  | _ => none

/-- System instructions of MAJ 0x1C by FN (R265). -/
def systemOp (c : CoreId) (f : FmtR) : Nat → Option Instr
  | 0x0 => some (.mfs c f)
  | 0x1 => some (.mts c f)
  | 0x2 => some (.fence c f)
  | 0x3 => some (.ifence c f)
  | 0x4 => some (.retx c f)
  | 0x5 => some (.wait c f)
  | 0x6 => some (.nopInstruction c f)
  | _ => none

/-- Accumulator instructions of MAJ 0x10 by FN (R268). -/
def accOp (c : CoreId) (f : FmtA) : Nat → Option Instr
  | 0x0 => some (.mulf c f)
  | 0x1 => some (.macf c f)
  | 0x2 => some (.msuf c f)
  | 0x3 => some (.lda c f)
  | 0x4 => some (.sta c f)
  | 0x5 => some (.aadd c f)
  | 0x6 => some (.asub c f)
  | 0x7 => some (.mfa c f)
  | 0x8 => some (.mta c f)
  | _ => none

/-- Bit instructions of MAJ 0x20 by FN (R274). -/
def bitOp (c : CoreId) (f : FmtX1) : Nat → Option Instr
  | 0x0 => some (.bset c f)
  | 0x1 => some (.bclr c f)
  | 0x2 => some (.bnot c f)
  | 0x3 => some (.btst c f)
  | 0x4 => some (.btas c f)
  | 0x5 => some (.btac c f)
  | _ => none

/-- The instruction that a word and its extension word spell on core `c`; none where MAJ or FN is not listed, so that the
word is illegal (R261). Whether its fields are ones that the instruction permits is for the instruction to check. -/
def camolDecode (c : CoreId) (w ext : Word) : Option Instr :=
  let fn8 := (wordBits 0 8 w).toNat
  let fn4 := (wordBits 0 4 w).toNat
  match (wordBits 26 6 w).toNat with
  | 0x00 => intOp c (readR w) fn8
  | 0x01 => some (.addi c (readI w))
  | 0x02 => some (.andi c (readI w))
  | 0x03 => some (.ori c (readI w))
  | 0x04 => some (.xori c (readI w))
  | 0x05 => some (.cmpi c (readI w))
  | 0x06 => some (.movi c (readE w ext))
  | 0x08 => some (.ld c (readM w))
  | 0x09 => some (.lds c (readM w))
  | 0x0A => some (.st c (readM w))
  | 0x10 => accOp c (readA w) fn4
  | 0x18 => some (.bCond c (readB w))
  | 0x19 => some (.bl c (readB w))
  | 0x1A => some (.jr c (readJ w))
  | 0x1C => systemOp c (readR w) fn8
  | 0x1D => some (.gate c (readG w))
  | 0x20 => bitOp c (readX1 w) (wordBits 22 4 w).toNat
  | 0x21 => if fn4 = 0 then some (.bld c (readX2 w)) else if fn4 = 1 then some (.bst c (readX2 w)) else none
  | 0x22 => if fn4 = 0 then some (.bfld c (readX2 w)) else if fn4 = 1 then some (.bfst c (readX2 w)) else none
  | 0x24 => some (.bmov c (readX3 w))
  | 0x25 => some (.band c (readX3 w))
  | 0x26 => some (.bor c (readX3 w))
  | 0x27 => some (.bxor c (readX3 w))
  | 0x28 => some (.bandn c (readX3 w))
  | 0x29 => some (.bb c (readX4 w))
  | 0x2B => some (.tli c (readT w))
  | 0x2C => some (.tvi c (readT w))
  | 0x2D => if fn8 = 0 then some (.bcopy c (readR w)) else none
  | 0x2E => if fn8 = 0 then some (.bscan c (readR w)) else none
  | 0x30 => some (.copi c (readC w ext))
  | _ => none

/-! ### From instructions to words -/

/-- The words of a Camol instruction: the core it stands on, its word, and its extension word, which is zero where it has
none. None for a command that is no instruction. -/
def camolWords : Instr → Option (CoreId × Word × Word)
  | .add c f => some (c, wordR 0x00 0x00 f, 0)
  | .sub c f => some (c, wordR 0x00 0x01 f, 0)
  | .adds c f => some (c, wordR 0x00 0x02 f, 0)
  | .subs c f => some (c, wordR 0x00 0x03 f, 0)
  | .cmp c f => some (c, wordR 0x00 0x04 f, 0)
  | .and c f => some (c, wordR 0x00 0x05 f, 0)
  | .or c f => some (c, wordR 0x00 0x06 f, 0)
  | .xor c f => some (c, wordR 0x00 0x07 f, 0)
  | .andn c f => some (c, wordR 0x00 0x08 f, 0)
  | .tst c f => some (c, wordR 0x00 0x09 f, 0)
  | .shl c f => some (c, wordR 0x00 0x0A f, 0)
  | .shr c f => some (c, wordR 0x00 0x0B f, 0)
  | .sar c f => some (c, wordR 0x00 0x0C f, 0)
  | .shli c f => some (c, wordR 0x00 0x0D f, 0)
  | .shri c f => some (c, wordR 0x00 0x0E f, 0)
  | .sari c f => some (c, wordR 0x00 0x0F f, 0)
  | .roli c f => some (c, wordR 0x00 0x10 f, 0)
  | .min c f => some (c, wordR 0x00 0x11 f, 0)
  | .max c f => some (c, wordR 0x00 0x12 f, 0)
  | .minu c f => some (c, wordR 0x00 0x13 f, 0)
  | .maxu c f => some (c, wordR 0x00 0x14 f, 0)
  | .mul c f => some (c, wordR 0x00 0x15 f, 0)
  | .mulh c f => some (c, wordR 0x00 0x16 f, 0)
  | .mulhu c f => some (c, wordR 0x00 0x17 f, 0)
  | .mull c f => some (c, wordR 0x00 0x18 f, 0)
  | .mullu c f => some (c, wordR 0x00 0x19 f, 0)
  | .divr c f => some (c, wordR 0x00 0x1A f, 0)
  | .divru c f => some (c, wordR 0x00 0x1B f, 0)
  | .clz c f => some (c, wordR 0x00 0x1D f, 0)
  | .popc c f => some (c, wordR 0x00 0x1E f, 0)
  | .mov c f => some (c, wordR 0x00 0x1F f, 0)
  | .adc c f => some (c, wordR 0x00 0x20 f, 0)
  | .sbc c f => some (c, wordR 0x00 0x21 f, 0)
  | .mfs c f => some (c, wordR 0x1C 0x00 f, 0)
  | .mts c f => some (c, wordR 0x1C 0x01 f, 0)
  | .fence c f => some (c, wordR 0x1C 0x02 f, 0)
  | .ifence c f => some (c, wordR 0x1C 0x03 f, 0)
  | .retx c f => some (c, wordR 0x1C 0x04 f, 0)
  | .wait c f => some (c, wordR 0x1C 0x05 f, 0)
  | .nopInstruction c f => some (c, wordR 0x1C 0x06 f, 0)
  | .addi c f => some (c, wordI 0x01 f, 0)
  | .andi c f => some (c, wordI 0x02 f, 0)
  | .ori c f => some (c, wordI 0x03 f, 0)
  | .xori c f => some (c, wordI 0x04 f, 0)
  | .cmpi c f => some (c, wordI 0x05 f, 0)
  | .movi c f => some (c, wordE f, f.imm)
  | .ld c f => some (c, wordM 0x08 f, 0)
  | .lds c f => some (c, wordM 0x09 f, 0)
  | .st c f => some (c, wordM 0x0A f, 0)
  | .mulf c f => some (c, wordA 0x0 f, 0)
  | .macf c f => some (c, wordA 0x1 f, 0)
  | .msuf c f => some (c, wordA 0x2 f, 0)
  | .lda c f => some (c, wordA 0x3 f, 0)
  | .sta c f => some (c, wordA 0x4 f, 0)
  | .aadd c f => some (c, wordA 0x5 f, 0)
  | .asub c f => some (c, wordA 0x6 f, 0)
  | .mfa c f => some (c, wordA 0x7 f, 0)
  | .mta c f => some (c, wordA 0x8 f, 0)
  | .bCond c f => some (c, wordB 0x18 f, 0)
  | .bl c f => some (c, wordB 0x19 f, 0)
  | .jr c f => some (c, wordJ f, 0)
  | .gate c f => some (c, wordG f, 0)
  | .bset c f => some (c, wordX1 0x0 f, 0)
  | .bclr c f => some (c, wordX1 0x1 f, 0)
  | .bnot c f => some (c, wordX1 0x2 f, 0)
  | .btst c f => some (c, wordX1 0x3 f, 0)
  | .btas c f => some (c, wordX1 0x4 f, 0)
  | .btac c f => some (c, wordX1 0x5 f, 0)
  | .bld c f => some (c, wordX2 0x21 0x0 f, 0)
  | .bst c f => some (c, wordX2 0x21 0x1 f, 0)
  | .bfld c f => some (c, wordX2 0x22 0x0 f, 0)
  | .bfst c f => some (c, wordX2 0x22 0x1 f, 0)
  | .bmov c f => some (c, wordX3 0x24 f, 0)
  | .band c f => some (c, wordX3 0x25 f, 0)
  | .bor c f => some (c, wordX3 0x26 f, 0)
  | .bxor c f => some (c, wordX3 0x27 f, 0)
  | .bandn c f => some (c, wordX3 0x28 f, 0)
  | .bb c f => some (c, wordX4 f, 0)
  | .tli c f => some (c, wordT 0x2B f, 0)
  | .tvi c f => some (c, wordT 0x2C f, 0)
  | .bcopy c f => some (c, wordR 0x2D 0x00 f, 0)
  | .bscan c f => some (c, wordR 0x2E 0x00 f, 0)
  | .copi c f => some (c, wordC f, f.cmd)
  | _ => none

end Sys2Proof.Machine
end

