-- ==== Sys2Proof/Safety.lean ====
section
/-! DEFINITION. What counts as a safe run, and the terms in which the statements speak: what a command leaves alone, and
when the management space takes a command. -/

namespace Sys2Proof.Machine

/-- The outcome is a next state. -/
def Completes (o : Host.Outcome State Fault Refusal) : Prop := ∃ t, o = .next t

/-- `n` steps from `s` all answer a next state. -/
def SafeFor : Nat → State → Prop
  | 0, _ => True
  | n + 1, s => ∃ t, step s = .next t ∧ SafeFor n t

/-- The parts of the state, one for each field of State. -/
inductive Part where
  | hqi | rfb | img | gte | msu | ks | flash | flc | eav | slt | btn | sys | ret | tel | elec | cores | trusses | pke | sym
  | svc | pairs | out | free | pending
deriving DecidableEq, Repr

/-- Part `p` is the same in both states. -/
def SamePart (p : Part) (s t : State) : Prop :=
  match p with
  | .hqi => t.hqi = s.hqi
  | .rfb => t.rfb = s.rfb
  | .img => t.img = s.img
  | .gte => t.gte = s.gte
  | .msu => t.msu = s.msu
  | .ks => t.ks = s.ks
  | .flash => t.flash = s.flash
  | .flc => t.flc = s.flc
  | .eav => t.eav = s.eav
  | .slt => t.slt = s.slt
  | .btn => t.btn = s.btn
  | .sys => t.sys = s.sys
  | .ret => t.ret = s.ret
  | .tel => t.tel = s.tel
  | .elec => t.elec = s.elec
  | .cores => t.cores = s.cores
  | .trusses => t.trusses = s.trusses
  | .pke => t.pke = s.pke
  | .sym => t.sym = s.sym
  | .svc => t.svc = s.svc
  | .pairs => t.pairs = s.pairs
  | .out => t.out = s.out
  | .free => t.free = s.free
  | .pending => t.pending = s.pending

/-- The frame of a command: every part of the state outside `ps` is unchanged from `s` to `t`. -/
def SameOutside (ps : List Part) (s t : State) : Prop := ∀ p, p ∉ ps → SamePart p s t

/-- The shadowed pair at X takes a value written by `who` as two halves (R12): the module answers and the block takes
writes, the gate admits both halves, no value is pending, and the initiator is one that may write the pair. -/
abbrev PairTakes (who : Who) (x : Nat) (s : State) : Prop :=
  answers s = true ∧ blockAnswers s x = true ∧ blockAnswers s (x + 4) = true ∧ (s.sys.power = .prep → x = 0x44)
    ∧ isVf who = false ∧ mgmtGate who x kWrite s = (true, s) ∧ mgmtGate who (x + 4) kWrite s = (true, s)
    ∧ (SMap.get {} s.pairs x).pend = none ∧ mayWritePair who x = true

/-- The management space takes a read or a write of `who` at `off` of kind `k`. -/
abbrev RegTakes (who : Who) (off k : Nat) (s : State) : Prop :=
  answers s = true ∧ blockAnswers s off = true ∧ s.sys.power ≠ .prep ∧ off < 0xC00000 ∧ isVf who = false
    ∧ mgmtGate who off k s = (true, s)

/-- The parts that the firmware's own flash commands may change: the array, the flash controller, what telemetry counts, the free
values, and the causes of the counter vault (R350, R354, R361, R362). -/
abbrev flashParts : List Part := [.flash, .flc, .tel, .free, .sym]

/-- The parts that an access to sealed memory may change: the MSU and, where lines fail, a detection and the row-remap log (R222
to R229). -/
abbrev sealedParts : List Part := .msu :: .eav :: flashParts

/-- Every line of sealed memory verifies: the MSU root is in force, and no line and no counter line keeps failing (R224). -/
abbrev SealedGood (s : State) : Prop := s.msu.rootOk = true ∧ s.msu.failing = [] ∧ s.msu.badCtr = []

/-- Structure `l` as latched: of the entries of gable `g`, or of all, LIMIT and VALID are taken from a state (R330). -/
abbrev LatchedAs (g : Option Nat) (l t : Latches) : Prop :=
  { t with gates := [] } = { l with gates := [] }
    ∧ ∃ u, t.gates = l.gates.map fun x => if g.getD x.gable = x.gable then latchGate u x else x

/-- From `s` to `t` a read of `n` bytes at `a` of function `f`'s host memory has been asked for, while tags were free for all its
requests: none is larger than the programmed read size (R67). -/
abbrev Asked (rd : ReadId) (f a n : Nat) (s t : State) : Prop :=
  t.out = ((requestPieces s.hqi.maxRead a n).map fun x => Output.hostRead rd f x.1 x.2 (reqAttr s)).reverse ++ s.out
    ∧ t.hqi.tags = s.hqi.tags ++ (requestPieces s.hqi.maxRead a n).map (fun _ => rd) ∧ t.hqi.unsent = []

/-- Tags are free for every request of a read of `n` bytes at `a` (R67). -/
abbrev TagsFree (a n : Nat) (s : State) : Prop :=
  s.hqi.unsent = [] ∧ s.hqi.tags.length + (requestPieces s.hqi.maxRead a n).length ≤ tagLimit s

/-- A read of `n` bytes at `a` has been asked for: the requests for which tags are free go out, and the others wait in their
order (R67). -/
abbrev Requested (rd : ReadId) (f a n : Nat) (s t : State) : Prop :=
  t.out = (((requestPieces s.hqi.maxRead a n).take (tagLimit s - s.hqi.tags.length)).map fun x =>
      Output.hostRead rd f x.1 x.2 (reqAttr s)).reverse ++ s.out
    ∧ t.hqi.unsent = ((requestPieces s.hqi.maxRead a n).drop (tagLimit s - s.hqi.tags.length)).map fun x => (rd, f, x.1, x.2)

/-- Management offset of a block (R9). -/
def blockBase : Block → Nat
  | .sys => 0 | .eav => 0x100000 | .gte => 0x200000 | .hqi => 0x300000 | .rfb => 0x400000 | .pke => 0x500000
  | .sym => 0x600000 | .msu => 0x700000 | .flc => 0x800000 | .slt => 0x900000 | .btn => 0xA00000 | .tel => 0xB00000

/-- The part of the state that holds a block's registers. -/
def blockPart : Block → Part
  | .sys => .sys | .eav => .eav | .gte => .gte | .hqi => .hqi | .rfb => .rfb | .pke => .pke | .sym => .sym | .msu => .msu
  | .flc => .flc | .slt => .slt | .btn => .btn | .tel => .tel

/-- A write of `n` bytes at offset `off` of ring `r`'s window reaches the window: a tenant's through its own BAR, the physical
function's where the gate of target 0x53 admits it (R71, R328, R336). -/
abbrev WindowAdmits (f r off n : Nat) (s : State) : Prop :=
  f = 0 → (gate (whoTag s .pf) 0x53 (0x80000 + r * 0x1000 + off) n kWrite s).1 = true

/-- The doorbell window of a ring takes writes: the endpoint is up, the function and the ring number are in range, the
ring is open and owned, and no function-level reset is in progress (R71, R85). -/
abbrev WindowTakes (f r : Nat) (s : State) : Prop :=
  takesDoorbells s = true ∧ f < 64 ∧ r < 64 ∧ (ringOf s (ctxNum f r)).isOpen = true ∧ r < ringCount s f
    ∧ (fnOf s f).flrActive = false

/-- Bytes have been written to function `f`'s host memory at `a`, in posted writes no larger than the payload size (R67). -/
abbrev Written (f a : Nat) (bytes : List Byte) (s t : State) : Prop :=
  t.out = ((requestPieces s.hqi.maxPayload a bytes.length).map fun x =>
    Output.hostWrite f x.1 (slice bytes (x.1 - a) x.2) (reqAttr s)).reverse ++ s.out

/-- A write is discarded: it counts in DROP, and a bad TLP sets ECRC (R76, R85, R101). -/
abbrev Dropped (f : Nat) (bad : Bool) (s t : State) : Prop :=
  (fnOf t f).drop = satInc 0xFFFFFFFF (fnOf s f).drop
    ∧ t.hqi.cause = (if bad then s.hqi.cause ||| 0x10#32 else s.hqi.cause) ∧ SameOutside [.hqi] s t

/-- The runtime of the command's gable is at the work of command `r` as service `v` (R103): its entry has reached the
queue and passed checks 1 to 6, a worker core on truss `t` has it with its source bytes `src` and every key loaded, and no
peer is to take it. -/
abbrev AtWork (v : Service) (r : CmdRef) (c : Cmd) (t : Nat) (src : List Byte) (s : State) : Prop :=
  runnable s r = some c ∧ (liveTrusses s r.fn).isEmpty = false ∧ c.bad = false ∧ inTable s r.fn (eOpcode c.entry) = true
    ∧ eOpcode c.entry = v.opcode ∧ malformedFor v c.entry = false ∧ c.truss = some t ∧ c.plan = none ∧ c.src = .got src
    ∧ (offRing r || c.here) = true ∧ c.keys.length = (v.keys c.entry).length

/-- The state on which the work of a command acts: where it drives the WMA unit of its core, with the unit's sticky bits
cleared (R177). -/
abbrev workState (wma : Bool) (r : CmdRef) (c : Cmd) (t : Nat) (s : State) : State :=
  if wma then wmaBegin (c.core.getD (4 * t)) (takeEntryPacket r s) else takeEntryPacket r s

/-- What check 8 and the work of a command leave once its keys are loaded (R103, R118, R177): a policy that does not permit
its role ends it with POLICY_REFUSED; else `work` answers, and its answer completes the command. -/
def CarriedOut (r : CmdRef) (c : Cmd) (t : Nat) (roles : List KeyRole) (wma : Bool) (work : State → Answer) (s u : State) : Prop :=
  u = if policiesOk (takeEntryPacket r s) r.fn roles c.keys then
      settle r c.entry (takeEntryPacket r s)
        (if wma then wmaWork (c.core.getD (4 * t)) c.entry c.keys work (takeEntryPacket r s) else work (takeEntryPacket r s))
    else endCmd r 3 0 [] (takeEntryPacket r s)

/-- The state in which a command that ended with OK or with the verdict `st` has left its operands, and in which its cells
suffice for its `n` destination bytes (R178, R316). -/
abbrev Left (wma : Bool) (r : CmdRef) (c : Cmd) (t : Nat) (n : Nat) (w x : State) : Prop :=
  (wma = true → bitOf (wmaCtx (wmaOf w (trussOf (c.core.getD (4 * t)))) (coreInTruss (c.core.getD (4 * t)))).sticky.toNat 5
      = false) ∧ x = (if wma then wmaLeft (c.core.getD (4 * t)) (workCurve c.entry c.keys) w else w)
    ∧ (offRing r = true ∨ hostWriteCells n + 2 ≤ cellsFree x r.fn)

/-- The keys' policies permit their roles (R110), and the worker's unit is not run twice, as a Pavane pair does. -/
abbrev Permitted (v : Service) (wma : Bool) (r : CmdRef) (c : Cmd) (t : Nat) (s : State) : Prop :=
  policiesOk (takeEntryPacket r s) r.fn (v.keys c.entry) c.keys = true
    ∧ (wma = true → pavaneTruss (workState wma r c t s) (trussOf (c.core.getD (4 * t))) = false)

/-- A key can be stored in target `h` now (R112, R131, R234, R239, R248): its directory verifies, its span is free, the log has
room and the buffer a place, and this module commits changes itself. -/
abbrev Storable (r : CmdRef) (h : Nat) (policy : Word) (secret pub : List Byte) (s w : State) : Prop :=
  let d := readDir (hResident h) (hIndex h) (2 ^ spanLog2 (pAlg policy) secret.length) s
  d.1 = true ∧ spanFree d.2 r.fn (hResident h) (hIndex h) (pAlg policy) secret.length = true
    ∧ changeGate (hResident h) d.2 = some 0 ∧ commitsHere d.2 = true
    ∧ changeHere (hResident h) (storeRec d.2 r.fn (hResident h) (hIndex h) policy secret pub) d.2 = (true, w)

/-- The handle of the key that a store puts in target `h`: the generation that follows the slot's own (R131, R234). -/
abbrev newHandle (h : Nat) (policy : Word) (secret : List Byte) (s : State) : Nat :=
  mkHandle (hResident h)
    (nextGen (dGen (dirEntry (readDir (hResident h) (hIndex h) (2 ^ spanLog2 (pAlg policy) secret.length) s).2 (hResident h)
      (hIndex h)))) (hIndex h)

/-- One completion of command `r` has been committed to the HQI sink (R79, R323). -/
abbrev Completed (r : CmdRef) (c : Cmd) (status result : Nat) (inl : List Byte) (s t : State) : Prop :=
  ∃ k : Packet, t.rfb.sink0 = s.rfb.sink0 ++ [k] ∧ k.typ = 2 ∧ k.fn = some r.fn
    ∧ k.words = wordsOf (completionBytes c.entry status result inl) ++ refWords r
    ∧ (findCmd t r).map (·.finished) = some true

/-- Command `r` stands on a ring of its own, outside a chain. -/
abbrev OnRing (r : CmdRef) (s : State) : Prop := r.ring < 64 ∧ chainAt (ringOf s (ctxNum r.fn r.ring)) r.pos = none

/-- A tenant program runs on core `n` for command `r`, and no sub-command of it is under way (R154, R155). -/
abbrev ProgramRuns (r : CmdRef) (c : Cmd) (n : Nat) (s : State) : Prop :=
  runnable s r = some c ∧ 0x8000 ≤ eOpcode c.entry ∧ c.worker = some n ∧ findCmd s (subRef r n) = none ∧ c.calling = false
    ∧ (s.core n).pl = 2 ∧ (s.core n).frames.length + 1 < frameMax ∧ n ≠ wardenNum ∧ isPavane s (ownerOf s (trussOf n)) = false

/-- The vector entry for a cause at core `n` is usable and its read leaves no trace, or the read must wait (R288, R289). -/
abbrev VectorGood (n cause : Nat) (s : State) : Prop :=
  vectorWaits n cause s = true ∨ ∃ e, vectorEntry n cause s = (some e, s)

/-- The rows of the native commands with their services, in the order of R102. -/
def nativeRows : List ((CmdRef → Instr) × Service) :=
  [(.nop, svcNop), (.pinTranslate, svcPinTranslate), (.pinVerify, svcPinVerify),
   (.dukptPinTranslate, svcDukptPinTranslate), (.dukptMacVerify, svcDukptMacVerify), (.emvAcVerify, svcEmvAcVerify),
   (.ccvGenerate, svcCcvGenerate), (.ccvVerify, svcCcvVerify), (.macGenerate, svcMacGenerate), (.macVerify, svcMacVerify),
   (.keyImport, svcKeyImport), (.keyExport, svcKeyExport), (.keyGenerate, svcKeyGenerate),
   (.keyImportPublic, svcKeyImportPublic), (.keyDelete, svcKeyDelete), (.keyInfo, svcKeyInfo), (.ecdsaSign, svcEcdsaSign),
   (.ecdsaVerify, svcEcdsaVerify), (.meterSeal, svcMeterSeal), (.meterVerify, svcMeterVerify), (.tariffLoad, svcTariffLoad),
   (.tariffPrice, svcTariffPrice), (.hash, svcHash), (.random, svcRandom), (.counterNext, svcCounterNext),
   (.counterRead, svcCounterRead), (.serviceLoad, svcServiceLoad), (.serviceUnload, svcServiceUnload)]

/-- The warden is at physical-function command `r` (R114, R117): its entry has reached the queue, it has not finished,
its chain has come to it, and it is not a GABLE_SUSPEND that already waits. -/
abbrev PfReady (r : CmdRef) (c : Cmd) (s : State) : Prop :=
  findCmd s r = some c ∧ c.committed = true ∧ c.finished = false ∧ r.fn = 0 ∧ wardenUp s = true ∧ chainTurn s r = true
    ∧ (s.svc.drains.any fun d => d.1 == r) = false ∧ c.bad = false

/-- Class K command `x` in flight of gable `g` was granted before the gable's HOST reason was set: each one, where HOST is clear;
those noted when it was set, where it is set (R117). -/
abbrev EarlyK (g : Nat) (x : CmdRef) (s : State) : Prop :=
  (bitOf (SMap.get 0 s.svc.reasons g) 0 = false ∧ ∃ d ∈ s.hqi.cmds, d.ref = x ∧ x.fn = g ∧ x.ring < 64 ∧ classKCmd s g d.entry = true)
    ∨ (bitOf (SMap.get 0 s.svc.reasons g) 0 = true ∧ x ∈ SMap.get [] s.svc.early g ∧ (findCmd s x).isSome = true)

/-- What a malformed entry may do (R2, R96): in the next state only the command, the Reed fabric, what the engines and the
truss SRAMs of its own gable hold, a gate refusal of theirs, and the rings of its own function may have changed. -/
def EntryUndefined (r : CmdRef) (s : State) (o : Res) : Prop :=
  ∃ t, o = .next t ∧ SameOutside [.hqi, .rfb, .free, .pke, .sym, .trusses, .gte] s t
    ∧ (∀ x, x / 64 ≠ r.fn → ringOf t x = ringOf s x)
    ∧ t.hqi.fns = s.hqi.fns ∧ t.hqi.deal = s.hqi.deal ∧ t.hqi.pos = s.hqi.pos
    ∧ (∀ x, x ∉ liveTrusses s r.fn → t.truss x = s.truss x)

/-- Core `c` issues the instruction at its PC: it runs with its clock, no entry, imprecise exception or interrupt comes first, the
fetch (with the extension word where `ext`) is admitted and returns, and its pair agrees (R261, R282, R302, R305). -/
abbrev Issues (c : CoreId) (ext : Bool) (s : State) : Prop :=
  canIssue s (coreNum c) = true ∧ (issueAt (coreNum c) ext s).1 = .ok []

/-- The state once the instruction of core `c` is fetched. -/
abbrev fetched (c : CoreId) (ext : Bool) (s : State) : State := (issueAt (coreNum c) ext s).2

/-- The WMA instructions that a context queues, each with its OP (R164). -/
def wmaRows : List ((CoreId → WmaOp → Instr) × Nat) :=
  [(.modset, 0x01), (.mmul, 0x02), (.mmac, 0x03), (.madd, 0x04), (.msub, 0x05), (.iadd, 0x06), (.mcswap, 0x07),
   (.msel, 0x08), (.mmov, 0x09), (.mclr, 0x0A), (.mcmp, 0x0B), (.mld, 0x0C), (.mst, 0x0D), (.mrand, 0x0E), (.mkey, 0x0F),
   (.mrelease, 0x10)]

/-- Instruction `e` at the head of context `c` of truss `t` may end; its word is legal, the context's stored length is
`len` and its modulus `m` (zero: none), and no destination is shared below Monitor level (R163, R169, R172). -/
abbrev AtEnd (t c : Nat) (e : WmaEntry) (len m : Nat) (s : State) : Prop :=
  trussClocks s = true ∧ mayEnd s t c = true ∧ (wmaCtx (wmaOf s t) c).queue.head? = some e ∧ wmaLegal e.op e.o = true
    ∧ storedLen s t (wmaCtx (wmaOf s t) c) = len ∧ 0 < len ∧ (wmaCtx (wmaOf s t) c).m = m
    ∧ (e.pl = 0 ∨ ((wmaDests e.op e.o).any inShared = false ∧ e.op ≠ 0x10))

/-- The words of operand memory that an operand occupies. -/
abbrev wordsAt (s : State) (t a len : Nat) : List WmaWord := operandWords (wmaOf s t) a len

/-- Operand words outside the given runs are the same in both states. -/
abbrev WordsKept (t : Nat) (runs : List (Nat × Nat)) (s u : State) : Prop :=
  ∀ i, (∀ r ∈ runs, ¬(r.1 ≤ i ∧ i < r.1 + r.2)) → SMap.get {} (wmaOf u t).mem i = SMap.get {} (wmaOf s t).mem i

/-- The rows that run a Galliard service, each with its number (R185). -/
def galServices : List ((Who → Fin 4 → Instr) × Nat) :=
  [(.galEcdsaVerifyRom, 0), (.galRsaPrivate, 1), (.galRsaPublic, 2), (.galEcdsaVerify, 3), (.galEcdsaSign, 4),
   (.galEcdsaSignRom, 0xFF00)]

/-- The rows that start a port request, each with its OP (R191). -/
def portRows : List ((CoreId → Instr) × Nat) :=
  [(.chainOpen, 1), (.chainClose, 2), (.keyLoad, 3), (.derive, 4), (.block, 5), (.mac, 6), (.shaInit, 7), (.shaBlocks, 8),
   (.shaFinal, 9), (.drbg, 10), (.ctrNext, 11), (.ctrNextTime, 12), (.ctrRead, 13)]

/-- The 64 bytes of DATA of core `n`'s port (R189). -/
abbrev portData (s : State) (n : Nat) : List Byte := Memory.read 0 (portOf s n).mem 0x40 64

/-- Core `c` may store to GO of its port: it issues, and its gate admits the word (R188, R331). -/
abbrev GoAdmitted (c : CoreId) (s : State) : Prop :=
  canIssue s (coreNum c) = true
    ∧ coreGate (coreNum c) (s.core (coreNum c)).pl goAddress 4 kWrite (wake (coreNum c) s)
      = (some (tgtPort, 0x20), wake (coreNum c) s)

/-- The request that a write of GO starts: as the port describes it, at the core's level (R189, R328). -/
abbrev asked (c : CoreId) (s : State) : PortReq :=
  { portRequest (portOf s (coreNum c)) with pl := (s.core (coreNum c)).pl }

/-- Core `c`'s port has request `r` of OP `op` in progress. -/
abbrev AtPort (c : CoreId) (op : Nat) (r : PortReq) (s : State) : Prop :=
  powered s = true ∧ (portOf s (coreNum c)).req = some r ∧ r.op = op

/-- The port of core `c` has ended its request with STATUS `st` and DATA `b`, which is zero where `st` is not OK (R190). -/
abbrev PortEnded (c : CoreId) (st : Nat) (b : List Byte) (t : State) : Prop :=
  (portOf t (coreNum c)).req = none ∧ (portOf t (coreNum c)).status = st ∧ portData t (coreNum c) = b

/-- 64 zero bytes. -/
abbrev noData : List Byte := List.replicate 64 0

/-- The counters are this module's own: it is solo or a ridge (R442), and not retired (R207). -/
abbrev OwnCounters (s : State) : Prop := (s.btn.role = .solo ∨ s.btn.role = .ridge) ∧ retiredLc s = false

/-- Request `r` of core `c`'s port is at its counter in its turn: the gable owns the counter, which is this module's own, and no
earlier request to it waits (R193, R209). -/
abbrev CounterTurn (c : CoreId) (r : PortReq) (s : State) : Prop :=
  ctrOwned s (gableOfCore s (coreNum c)) r.argA = true ∧ OwnCounters s ∧ vaultTurn s (.port (coreNum c)) r.argA = true

/-- No counter's last value and no bound has changed. -/
abbrev SameCounters (s t : State) : Prop := (∀ k, ctrV t k = ctrV s k) ∧ (∀ k, ctrB t k = ctrB s k)

/-- Lines `i`, …, `i + n − 1` of sealed memory verify: the MSU root is in force, and none of them keeps failing, for itself or
with a counter line (R224). -/
abbrev LinesGood (s : State) (i n : Nat) : Prop := ∀ j, j < n → lineFails s (i + j) = false

/-- Every line verifies whose counter line a write of `n` bytes at `off` may advance (R223, R224). -/
abbrev GroupsGood (s : State) (off n : Nat) : Prop := ∀ i, off / 4096 ≤ i / 64 → i / 64 ≤ (off + n) / 4096 → lineFails s i = false

/-- The rows of the key-store commands, each with its CMD value (R242). -/
def ksRows : List ((Who → Instr) × Nat) := [(.ksInit, 1), (.backup, 2), (.restore, 3), (.confirm, 4)]

/-- Core `c` with its instruction fetched, before the instruction's effect. -/
abbrev atIssue (c : CoreId) (ext : Bool) (s : State) : Core := (fetched c ext s).core (coreNum c)

/-- From `s` to `t` only core `c` changes: it becomes `k`. -/
abbrev OnlyCore (c : CoreId) (k : Core) (s t : State) : Prop :=
  t.core (coreNum c) = k ∧ (∀ m, m ≠ coreNum c → t.core m = s.core m) ∧ SameOutside [.cores] s t

/-- The flags of `st'` are as given; its other bits are those of `st` (R252, R264). -/
abbrev FlagsAre (st st' : Word) (n z c v : Bool) : Prop :=
  flagN st' = n ∧ flagZ st' = z ∧ flagC st' = c ∧ flagV st' = v ∧ st' &&& ~~~(0xF : Word) = st &&& ~~~(0xF : Word)

/-- Does the Camol instruction take an extension word (R261)? -/
def hasExtension (w : Word) : Bool := w.toNat / 2 ^ 26 == 0x06 || w.toNat / 2 ^ 26 == 0x30

/-- Are the fields of a Camol instruction of core `c` ones that it permits (R261, R262 and the rule of each
instruction)? `cnt` is the core's CNT, which BSCAN reads. -/
def fieldsOk (cnt : Word) : Instr → Bool
  | .add _ f => f.s == 0
  | .sub _ f => f.s == 0
  | .adds _ f => f.s == 0
  | .subs _ f => f.s == 0
  | .cmp _ f => f.s == 0 && f.rd == 0
  | .and _ f => f.s == 0
  | .or _ f => f.s == 0
  | .xor _ f => f.s == 0
  | .andn _ f => f.s == 0
  | .tst _ f => f.s == 0 && f.rd == 0
  | .shl _ f => f.s == 0
  | .shr _ f => f.s == 0
  | .sar _ f => f.s == 0
  | .shli _ f => decide (f.s.toNat ≤ 31)
  | .shri _ f => decide (f.s.toNat ≤ 31)
  | .sari _ f => decide (f.s.toNat ≤ 31)
  | .roli _ f => decide (f.s.toNat ≤ 31)
  | .min _ f => f.s == 0
  | .max _ f => f.s == 0
  | .minu _ f => f.s == 0
  | .maxu _ f => f.s == 0
  | .mul _ f => f.s == 0
  | .mulh _ f => f.s == 0
  | .mulhu _ f => f.s == 0
  | .mull _ f => f.s == 0 && f.rd.toNat % 2 == 0
  | .mullu _ f => f.s == 0 && f.rd.toNat % 2 == 0
  | .divr _ f => f.s == 0 && f.rd.toNat % 2 == 0 && f.ra.toNat % 2 == 0
  | .divru _ f => f.s == 0 && f.rd.toNat % 2 == 0 && f.ra.toNat % 2 == 0
  | .clz _ f => f.s == 0
  | .popc _ f => f.s == 0
  | .mov _ f => f.s == 0
  | .adc _ f => f.s == 0
  | .sbc _ f => f.s == 0
  | .cmpi _ f => f.rd == 0
  | .movi _ f => f.z == 0
  | .ld _ f => decide (f.am.toNat ≤ 3) && (f.am.toNat == 0 || f.am.toNat == 3 || f.low == 0)
      && (f.am.toNat != 3 || f.low.toNat % 128 == 0) && (f.sz.toNat != 3 || f.rd.toNat % 2 == 0)
  | .lds _ f => decide (f.am.toNat ≤ 3) && (f.am.toNat == 0 || f.am.toNat == 3 || f.low == 0)
      && (f.am.toNat != 3 || f.low.toNat % 128 == 0) && decide (f.sz.toNat ≤ 1)
  | .st _ f => decide (f.am.toNat ≤ 3) && (f.am.toNat == 0 || f.am.toNat == 3 || f.low == 0)
      && (f.am.toNat != 3 || f.low.toNat % 128 == 0) && (f.sz.toNat != 3 || f.rd.toNat % 2 == 0)
  | .mulf _ f => f.z == 0 && f.as == 0
  | .macf _ f => f.z == 0 && f.as == 0
  | .msuf _ f => f.z == 0 && f.as == 0
  | .lda _ f => f.z == 0 && f.rb == 0 && f.as == 0
  | .sta _ f => f.z == 0 && f.rb == 0 && f.ad == 0
  | .aadd _ f => f.z == 0 && f.rg == 0 && f.rb == 0 && f.f == 0
  | .asub _ f => f.z == 0 && f.rg == 0 && f.rb == 0 && f.f == 0
  | .mfa _ f => f.z == 0 && f.rb == 0 && f.ad == 0 && decide (f.f.toNat ≤ 1)
  | .mta _ f => f.z == 0 && f.as == 0 && f.f == 0
  | .bCond _ f => decide (f.cond.toNat ≤ 14)
  | .bl _ f => f.cond.toNat == 14
  | .jr _ f => f.z == 0
  | .mfs _ f => decide (f.s.toNat ≤ 13)
  | .mts _ f => decide (f.s.toNat ≤ 13)
  | .gate _ f => f.z == 0
  | .bset c f => f.z == 0 && bitField c f.sp f.bn (f.ind == 1) 0 && (f.ind == 1 || f.ra == 0)
  | .bclr c f => f.z == 0 && bitField c f.sp f.bn (f.ind == 1) 0 && (f.ind == 1 || f.ra == 0)
  | .bnot c f => f.z == 0 && bitField c f.sp f.bn (f.ind == 1) 0 && (f.ind == 1 || f.ra == 0)
  | .btst c f => f.z == 0 && bitField c f.sp f.bn (f.ind == 1) 0 && (f.ind == 1 || f.ra == 0)
  | .btas c f => f.z == 0 && bitField c f.sp f.bn (f.ind == 1) 0 && (f.ind == 1 || f.ra == 0)
  | .btac c f => f.z == 0 && bitField c f.sp f.bn (f.ind == 1) 0 && (f.ind == 1 || f.ra == 0)
  | .bld c f => bitField c f.sp f.bn false 0
  | .bst c f => bitField c f.sp f.bn false 0
  | .bfld c f => bitField c f.sp f.bn false f.p.toNat
  | .bfst c f => bitField c f.sp f.bn false f.p.toNat
  | .bmov c f => bitField c f.spd f.bd false 0 && bitField c f.sps f.bs false 0
  | .band c f => bitField c f.spd f.bd false 0 && bitField c f.sps f.bs false 0
  | .bor c f => bitField c f.spd f.bd false 0 && bitField c f.sps f.bs false 0
  | .bxor c f => bitField c f.spd f.bd false 0 && bitField c f.sps f.bs false 0
  | .bandn c f => bitField c f.spd f.bd false 0 && bitField c f.sps f.bs false 0
  | .bb c f => bitField c f.sp f.bn false 0
  | .tli _ f => decide (f.s.toNat ≤ 16) && f.n != 0
  | .tvi _ f => decide (f.s.toNat ≤ 16) && f.n != 0
  | .bcopy _ f => f.s == 0
  | .bscan c f => f.ra == 0 && f.rb == 0 && decide (f.s.toNat ≤ 3)
      && (if f.s.toNat % 2 = 1 then decide (c ≠ .warden) && decide (cnt.toNat ≤ 256) else decide (cnt.toNat ≤ 4096))
  | _ => true
where
  /-- Bits BN to BN + `k` lie in the space that SP selects, and the core has the space (R272). -/
  bitField (c : CoreId) (sp : BitVec 1) (bn : BitVec 12) (indexed : Bool) (k : Nat) : Bool :=
    if sp = 1 then decide (c ≠ .warden) && (indexed || decide (bn.toNat + k < 256)) else indexed || decide (bn.toNat + k < 4096)

/-- Register-format instructions that write RD from RA and RB and no flag, each with the word it writes (R264). -/
def aluRows : List ((CoreId → FmtR → Instr) × (Word → Word → Word)) :=
  [(.add, fun a b => a + b), (.sub, fun a b => a - b), (.and, fun a b => a &&& b), (.or, fun a b => a ||| b),
   (.xor, fun a b => a ^^^ b), (.andn, fun a b => a &&& ~~~b),
   (.shl, fun a b => BitVec.ofNat 32 (a.toNat * 2 ^ (b.toNat % 32))),
   (.shr, fun a b => BitVec.ofNat 32 (a.toNat / 2 ^ (b.toNat % 32))),
   (.sar, fun a b => BitVec.ofInt 32 (a.toInt / (2 ^ (b.toNat % 32) : Nat))),
   (.min, fun a b => BitVec.ofInt 32 (min a.toInt b.toInt)), (.max, fun a b => BitVec.ofInt 32 (max a.toInt b.toInt)),
   (.minu, fun a b => BitVec.ofNat 32 (min a.toNat b.toNat)), (.maxu, fun a b => BitVec.ofNat 32 (max a.toNat b.toNat)),
   (.mul, fun a b => BitVec.ofNat 32 (a.toNat * b.toNat)),
   (.mulh, fun a b => BitVec.ofInt 32 (a.toInt * b.toInt / (2 ^ 32 : Nat))),
   (.mulhu, fun a b => BitVec.ofNat 32 (a.toNat * b.toNat / 2 ^ 32)),
   (.clz, fun a _ => BitVec.ofNat 32 (if a = 0 then 32 else 31 - Nat.log2 a.toNat)),
   (.popc, fun a _ => BitVec.ofNat 32 ((List.range 32).countP fun i => a.getLsbD i)), (.mov, fun a _ => a)]

/-- Shifts by S (R264). -/
def shiftByRows : List ((CoreId → FmtR → Instr) × (Word → Nat → Word)) :=
  [(.shli, fun a n => BitVec.ofNat 32 (a.toNat * 2 ^ n)), (.shri, fun a n => BitVec.ofNat 32 (a.toNat / 2 ^ n)),
   (.sari, fun a n => BitVec.ofInt 32 (a.toInt / (2 ^ n : Nat))),
   (.roli, fun a n => BitVec.ofNat 32 (a.toNat * 2 ^ n + a.toNat * 2 ^ n / 2 ^ 32))]

/-- Immediate instructions that write RD, each with the word it writes (R264). -/
def immediateRows : List ((CoreId → FmtI → Instr) × (Word → BitVec 18 → Word)) :=
  [(.addi, fun a m => BitVec.ofInt 32 (a.toInt + m.toInt)), (.andi, fun a m => BitVec.ofNat 32 (a.toNat &&& m.toNat)),
   (.ori, fun a m => BitVec.ofNat 32 (a.toNat ||| m.toNat)), (.xori, fun a m => BitVec.ofNat 32 (a.toNat ^^^ m.toNat))]

/-- Sums and differences that set flags: whether it subtracts, and its carry or borrow in, from ST (R264). -/
def flagRows : List ((CoreId → FmtR → Instr) × Bool × (Word → Bool)) :=
  [(.adds, false, fun _ => false), (.subs, true, fun _ => false), (.adc, false, flagC), (.sbc, true, fun st => !flagC st)]

/-- The flags of a sum with carry in, or of a difference with borrow in, and the word. -/
def exactSum (isSub : Bool) (a b : Word) (cin : Bool) : Word × Bool × Bool :=
  if isSub then (a - b - BitVec.ofNat 32 (b2n cin), decide (b.toNat + b2n cin ≤ a.toNat),
      decide ((a - b - BitVec.ofNat 32 (b2n cin)).toInt ≠ a.toInt - b.toInt - (b2n cin : Int)))
  else (a + b + BitVec.ofNat 32 (b2n cin), decide (2 ^ 32 ≤ a.toNat + b.toNat + b2n cin),
      decide ((a + b + BitVec.ofNat 32 (b2n cin)).toInt ≠ a.toInt + b.toInt + (b2n cin : Int)))

/-- Accumulator instructions with a rounded or fitted result: the exact value, the width it is fitted to, and whether it
goes to RG and not to AD (R268). -/
def fixedRows : List ((CoreId → FmtA → Instr) × (Core → FmtA → Int) × Nat × Bool) :=
  [(.mulf, fun k f => rnd (fxRM k.fxctl) ((k.reg f.rg.toNat).toInt * (k.reg f.rb.toNat).toInt) (2 ^ f.f.toNat : Nat), 40, false),
   (.macf, fun k f => (k.acc f.ad.toNat).toInt
      + rnd (fxRM k.fxctl) ((k.reg f.rg.toNat).toInt * (k.reg f.rb.toNat).toInt) (2 ^ f.f.toNat : Nat), 40, false),
   (.msuf, fun k f => (k.acc f.ad.toNat).toInt
      - rnd (fxRM k.fxctl) ((k.reg f.rg.toNat).toInt * (k.reg f.rb.toNat).toInt) (2 ^ f.f.toNat : Nat), 40, false),
   (.lda, fun k f => (k.reg f.rg.toNat).toInt * (2 ^ f.f.toNat : Nat), 40, false),
   (.sta, fun k f => rnd (fxRM k.fxctl) (k.acc f.as.toNat).toInt (2 ^ f.f.toNat : Nat), 32, true),
   (.aadd, fun k f => (k.acc f.ad.toNat).toInt + (k.acc f.as.toNat).toInt, 40, false),
   (.asub, fun k f => (k.acc f.ad.toNat).toInt - (k.acc f.as.toNat).toInt, 40, false)]

/-- Loads and stores: their legal fields and the size and address of the access (R263). -/
def memoryRows : List ((CoreId → FmtM → Instr) × Bool) := [(.ld, false), (.lds, true), (.st, false)]

/-- Bit instructions of format X1: whether Z is set from the bit, and the bit's new value (R274). -/
def bitRows : List ((CoreId → FmtX1 → Instr) × Bool × (Bool → Bool)) :=
  [(.bset, false, fun _ => true), (.bclr, false, fun _ => false), (.bnot, false, fun b => !b), (.btst, true, fun b => b),
   (.btas, true, fun _ => true), (.btac, true, fun _ => false)]

/-- Bit instructions of format X3: the new value of BD from BD and BS (R274). -/
def bitPairRows : List ((CoreId → FmtX3 → Instr) × (Bool → Bool → Bool)) :=
  [(.bmov, fun _ b => b), (.band, fun d b => d && b), (.bor, fun d b => d || b), (.bxor, fun d b => d != b),
   (.bandn, fun d b => d && !b)]

/-- Only bit `i` of a bit space of core `n` differs: it is now `b`. No other state of the core or of a truss changes but
those that `k` gives the core. -/
abbrev OnlyBit (c : CoreId) (sp : Bool) (i : Nat) (b : Bool) (k : Core) (s t : State) : Prop :=
  bitAt t (coreNum c) sp i = b ∧ (∀ q j, (q, j) ≠ (sp, i) → bitAt t (coreNum c) q j = bitAt s (coreNum c) q j)
    ∧ t.core (coreNum c) = { k with bits := (t.core (coreNum c)).bits } ∧ (∀ m, m ≠ coreNum c → t.core m = s.core m)
    ∧ (∀ m, (t.truss m).sram = (s.truss m).sram) ∧ (∀ m, m ≠ trussOf (coreNum c) → t.truss m = s.truss m)
    ∧ SameOutside [.cores, .trusses] s t

/-- A bit instruction need not wait: it is of private bits, or the core's earlier accesses are complete (R273). -/
abbrev BitsReady (c : CoreId) (truss : Bool) (s : State) : Prop := truss = true → accessesDone (fetched c false s) (coreNum c) = true

/-- When the condition codes hold, over N, Z, C and V (R265). -/
def condRows : List (Bool → Bool → Bool → Bool → Bool) :=
  [fun _ z _ _ => z, fun _ z _ _ => !z, fun _ _ c _ => c, fun _ _ c _ => !c, fun n _ _ _ => n, fun n _ _ _ => !n,
   fun _ _ _ v => v, fun _ _ _ v => !v, fun _ z c _ => c && !z, fun _ z c _ => !c || z, fun n _ _ v => n == v,
   fun n _ _ v => n != v, fun n z _ v => !z && n == v, fun n z _ v => z || n != v, fun _ _ _ _ => true]

/-- The special registers that MFS reads as they stand (R254, R286). -/
def specialValue (k : Core) : Nat → Option Word
  | 0 => some k.st | 1 => some k.xpc | 2 => some k.xst | 3 => some k.vbase | 4 => some k.gtbase | 5 => some k.gtlim
  | 6 => some (BitVec.ofNat 32 k.frames.length) | 7 => some k.slim | 8 => some k.fxctl | 9 => some k.idx | 10 => some k.cnt
  | 13 => some k.cycHi | _ => none

/-- The highest level that may read special register `n`, and that may write it; none where no level may (R254). -/
def specialLevels : List (Option Nat × Option Nat) :=
  [(some 2, some 2), (some 1, some 1), (some 1, some 1), (some 1, some 0), (some 1, some 0), (some 1, some 0),
   (some 0, some 0), (some 1, some 1), (some 2, some 2), (some 2, some 2), (some 2, some 2), (some 2, none), (some 1, none),
   (some 1, none)]

/-- Is level `pl` within a limit of `specialLevels`? -/
def levelOk (pl : Nat) : Option Nat → Bool
  | some m => decide (pl ≤ m)
  | none => false

/-- The special registers that an MTS writes through a mask, with the mask (R252, R286). -/
def maskedRows : List (Nat × Word) :=
  [(1, 0xFFFFFFFC), (3, 0xFFFFF800), (4, 0xFFFFFFF0), (7, 0xFFFFFFFF), (8, 0x1F), (9, 0xFFFFFFFF), (10, 0xFFFFFFFF)]

/-- The number of a register written by MTS as the field S names it. -/
abbrev specialNo (f : FmtR) : Nat := f.s.toNat

/-- The level whose column of the vector table a cause uses: SSTACK and PRIV_FORGE use level 0 (R288). -/
abbrev vectorLevel (cause pl : Nat) : Nat := if cause = 9 ∨ cause = 10 then 0 else pl

/-- The cause whose vector an entry enters: with 31 frames held it is SSTACK (R291). -/
abbrev enteredCause (k : Core) (cause : Nat) : Nat := if k.frames.length = 31 then 9 else cause

/-- The bytes of a vector entry are usable from level `lvl` (R288, R289). -/
abbrev entryUsable (b : List Byte) (lvl : Nat) : Prop :=
  (leAt b 4 4).testBit 31 = true ∧ leAt b 4 4 / 4 % 2 ^ 29 = 0 ∧ leAt b 0 4 % 4 = 0 ∧ leAt b 4 4 % 4 ≤ lvl

/-- Core `k` after an entry through the 16 bytes `b`: `keep` leaves GIE (R290, R292, R298, R300). -/
abbrev Entered (k k' : Core) (b : List Byte) (xpc : Word) (keep : Bool) : Prop :=
  k'.pc = BitVec.ofNat 32 (leAt b 0 4) ∧ k'.xpc = xpc &&& 0xFFFFFFFC ∧ k'.xst = k.st ∧ k'.pl = leAt b 4 4 % 4
    ∧ k'.gie = (keep && k.gie) ∧ k'.st &&& 0xFFFFF8FF = k.st &&& 0xFFFFF8FF
    ∧ k'.frames = ⟨k.pl, if leAt b 4 4 % 4 = k.pl then none else some (k.reg 15, k.slim)⟩ :: k.frames
    ∧ (if leAt b 4 4 % 4 = k.pl then k'.reg 15 = k.reg 15 ∧ k'.slim = k.slim
      else k'.reg 15 = BitVec.ofNat 32 (leAt b 8 4) ∧ k'.slim = BitVec.ofNat 32 (leAt b 12 4))
    ∧ (∀ r, r ≠ 15 → k'.reg r = k.reg r) ∧ k'.a = k.a ∧ k'.fxctl = k.fxctl ∧ k'.idx = k.idx ∧ k'.cnt = k.cnt ∧ k'.bits = k.bits
    ∧ k'.loc = k.loc ∧ k'.vbase = k.vbase ∧ k'.gtbase = k.gtbase ∧ k'.gtlim = k.gtlim

/-- Core `c` is no half of a pair: it is the warden, or its truss's gable is not in Pavane (R25, R282). -/
abbrev NoPair (c : CoreId) (s : State) : Prop := c = .warden ∨ isPavane s (ownerOf s (trussOf (coreNum c))) = false

/-- The Reed commands as rows, each with its OP (R310). -/
def reedRows : List ((CoreId → ReedOp → Instr) × Nat) :=
  [(.reedOpen, 1), (.putw, 2), (.putb, 3), (.reedCommit, 4), (.reedAbort, 5), (.take, 8), (.getw, 9), (.getb, 0x0A),
   (.release, 0x0B), (.info, 0x0C), (.count, 0x0D)]

/-- Core `c` issues a legal Reed command `op` with argument `arg` above User level; `u` is the state with it fetched, `k` the
core and `x` its context (R278, R307, R310). -/
abbrev ReedIssues (op : Nat) (c : CoreId) (o : ReedOp) (arg : Word) (k : Core) (x : Nat) (s u : State) : Prop :=
  Issues c true s ∧ u = fetched c true s ∧ k = u.core (coreNum c) ∧ k.pl < 2 ∧ x = ctxOf (coreNum c) k.pl
    ∧ arg = (s.core (coreNum c)).reg o.ra.toNat ∧ legalReed op o arg = true

/-- Core `c` goes on behind the two words of a COPI with its registers as `k`; only the fabric changes besides. -/
abbrev WentOn (c : CoreId) (k : Core) (s t : State) : Prop :=
  t.core (coreNum c) = { k with
    pc := k.pc + 8
    phase := (t.core (coreNum c)).phase } ∧ (∀ m, m ≠ coreNum c → t.core m = s.core m) ∧ SameOutside [.rfb, .cores] s t

/-- From `s` to `t` the fabric's producer contexts but `x` are kept, and so are consumer contexts, queues and sinks. -/
abbrev OnlyProducer (x : Nat) (s t : State) : Prop :=
  (∀ y, y ≠ x → prodOf t y = prodOf s y) ∧ t.rfb.cons = s.rfb.cons ∧ t.rfb.queues = s.rfb.queues ∧ t.rfb.sink0 = s.rfb.sink0
    ∧ t.rfb.sink1 = s.rfb.sink1 ∧ t.rfb.waiters = s.rfb.waiters

/-- The context `p` takes words: a packet is open, not discarded and without error (R312). -/
abbrev TakesWords (p : ProdCtx) : Prop := p.isOpen = true ∧ p.err = none ∧ p.discarded = false

/-- Cells that `n` more words take beyond those that the packet holds (R311, R316). -/
abbrev moreCells (p : ProdCtx) (n : Nat) : Nat := cellsOf (p.words.length + n) - cellsOf p.words.length

/-- Latched entry `x` matches the tag and holds first offset `o` (R331). -/
abbrev holds (t : Tag) (o : Nat) (x : GateEntry) : Prop :=
  x.gable = t.gable ∧ t.pl ≤ x.priv ∧ x.cls.testBit t.cls = true ∧ x.base ≤ o ∧ o ≤ x.limit

/-- FLC_CMD takes a command of the warden while BUSY is clear. -/
abbrev FlcTakes (s : State) : Prop := PairTakes .warden 0x800100 s ∧ flcBusy s = false

/-- A flash command ended: BUSY is clear, FLC_STAT holds its status and OP, CMD_DONE is set (R352). -/
def FlcEnded (op status : Nat) (t : State) : Prop :=
  flcBusy t = false ∧ t.flc.status = status ∧ t.flc.lastOp = op ∧ t.flc.cause.getLsbD 0 = true

/-- Sector `sect` has been moved to spare `i` with a remap record in both copies (R361, R363). -/
def Remapped (sect i reason : Nat) (s t : State) : Prop :=
  SMap.get none t.flash.spareOf sect = some i ∧ t.flc.retired = true ∧ t.flc.cause.getLsbD 4 = true
    ∧ t.flc.retireReg = mkWord [(23, reason), (14, i), (0, sect)]
    ∧ t.flash.copyA = remapPut s.flash.copyA (remapRecord sect i reason (remapSeq s + 1))
    ∧ t.flash.copyB = remapPut s.flash.copyB (remapRecord sect i reason (remapSeq s + 1))
    ∧ SMap.get false t.flash.named i = true
    ∧ SMap.get 0 t.tel.counts.flRetire reason = satInc 0xFFFFFFFF (SMap.get 0 s.tel.counts.flRetire reason)
    ∧ ∀ x, x ≠ sect → SMap.get none t.flash.spareOf x = SMap.get none s.flash.spareOf x

/-- Spare `i` can serve sector `sect` now: it is the lowest-numbered free one, and it is erased (R361). -/
abbrev SpareReady (s : State) (sect i : Nat) : Prop := spareFor s sect = some i ∧ spareErased s i = true

/-- The words from word address `w` on have been programmed in the array, and no other place of the die has changed. -/
def Programmed (w : Nat) (ws : List Dword) (s t : State) : Prop :=
  (∀ i, i < ws.length → flashCell t (w + i) = some ⟨ws.getD i 0, 0, false⟩)
    ∧ ∀ x, (∀ i, i < ws.length → x ≠ cellAt t (w + i)) → SMap.get none t.flash.cells x = SMap.get none s.flash.cells x

/-- `n` words from word address `w` hold unspecified values, which a PROG lost where `lost` is set, and no other place of the die
has changed. -/
def Spoiled (w n : Nat) (lost : Bool) (s t : State) : Prop :=
  (∀ i, i < n → ∃ c, flashCell t (w + i) = some c ∧ c.lost = lost)
    ∧ ∀ x, (∀ i, i < n → x ≠ cellAt s (w + i)) → SMap.get none t.flash.cells x = SMap.get none s.flash.cells x

/-- Spare `i` holds the copy of sector `sect` but for the words `ws` from word address `w` on, and the other sectors of the die,
the old one among them, are unchanged (R361). -/
def CopiedTo (sect i w : Nat) (ws : List Dword) (s t : State) : Prop :=
  (∀ k, k < ws.length → flashCell t (w + k) = some ⟨ws.getD k 0, 0, false⟩)
    ∧ (∀ j, j < 512 → (sect * 512 + j < w ∨ w + ws.length ≤ sect * 512 + j) →
      flashCell t (sect * 512 + j) = (flashCell s (sect * 512 + j)).bind copiedCell)
    ∧ ∀ x, x / 512 ≠ 16386 + i → SMap.get none t.flash.cells x = SMap.get none s.flash.cells x

/-- Sector `sect` reads erased, and no place of the die but those of physical sector `p` has changed. -/
def ErasedSector (sect p : Nat) (s t : State) : Prop :=
  (∀ j, j < 512 → flashCell t (sect * 512 + j) = none)
    ∧ ∀ x, x / 512 ≠ p → SMap.get none t.flash.cells x = SMap.get none s.flash.cells x

/-- The bits in error of a word that a read meets with `e` further ones, and the value that the word was programmed with. -/
abbrev bitsBad (s : State) (w : Nat) (e : BitVec 72) : BitVec 72 := ((flashCell s w).map (·.err)).getD 0 ^^^ e
abbrev cellData (s : State) (w : Nat) : Dword := ((flashCell s w).map (·.data)).getD erasedWord

/-- The corrected bits that the read-back of a PROG of `ws` at `a` counts: those the operation reports, or those of the line. -/
abbrev backBits (s : State) (a : Nat) (ws : List Dword) (cbc : Nat) : Nat :=
  min 8 (max cbc (fld (lineValue (putFlashWords (a / 8) ws s) (a / 64) ⟨[]⟩ true).2 0 4))

/-- The words of a PROG stand in one line, and in no sector whose erase is suspended. -/
abbrev InLine (s : State) (a : Nat) (ws : List Dword) : Prop :=
  a % 8 = 0 ∧ ws ≠ [] ∧ a % 64 + 8 * ws.length ≤ 64 ∧ readSuspended s a = false

/-- The flash commands as written to FLC_CMD by the warden, with their value. -/
def flashRows (arr : LineRead) (count : BitVec 4) (out : FlashOutcome) : List (Instr × Nat) :=
  [(.flashRead .warden arr, 1), (.prog .warden count, 16 * count.toNat + 2), (.erase .warden, 3), (.flashSuspend .warden, 4),
   (.flashResume .warden, 5), (.retire .warden out, 6)]

/-- The Eave die's state once a detection or an operational event has joined the arbitration step in progress; the step's first one
fixes its AON count (R380, R388). -/
abbrev withEvent (code : Nat) (d : List Byte) (e : EaveState) : EaveState :=
  { e with
    detected := e.detected ++ [(code, padTo 16 d)]
    detAon := if e.detected.isEmpty then e.aon else e.detAon }

/-- The reading that a DETAIL carries of a voltage in millivolts, and of a temperature in sixteenths of a degree (R389). -/
abbrev detailMv (d : List Byte) : Nat := leAt d 2 2
abbrev detailTemp (d : List Byte) : Int := (BitVec.ofNat 16 (leAt d 2 2)).toInt

/-- What the DETAIL of a detection reads lies inside its source's limits (R368, R370). -/
abbrev ReadingIn (src : Nat) (d : List Byte) : Prop :=
  (src = 0x09 ∧ 350 ≤ detailMv d ∧ detailMv d ≤ 650) ∨ (src = 0x0B ∧ leAt d 0 1 ≠ 3 ∧ 1620 ≤ detailMv d ∧ detailMv d ≤ 3780)
    ∨ (src = 0x0C ∧ leAt d 0 1 ≠ 3 ∧ detailMv d ≤ 3780)
    ∨ (src = 0x0E ∧ leAt d 0 1 = 4 ∧ detailTemp d ≤ 1920) ∨ (src = 0x0E ∧ leAt d 0 1 ≠ 4 ∧ detailTemp d ≤ 1840) ∨ (src = 0x0F ∧ -640 ≤ detailTemp d)
    ∨ (src = 0x13 ∧ 2000 ≤ detailMv d)

/-- A detection that a scrubber's pair check does not stand for: not a SHADOW found on a use of a pair. -/
abbrev NotOfPair (src : Nat) (d : List Byte) : Prop := ¬(src = 0x12 ∧ leAt d 0 1 = 3 ∧ leAt d 4 4 ≠ 0xFFFFFFFF)

/-- The state once a condition source has been detected: it is active, and it has raised its event. -/
abbrev conditionEvent (src : Nat) (d : List Byte) (s : State) : State :=
  { s with eav := withEvent src d { s.eav with active := s.eav.active ||| BitVec.ofNat 22 (2 ^ src) } }

/-! ### Slate port and ceremonies (14_slate_port_ceremonies.md) -/

/-- A slate's response frame: INDEX, SEQ, SSTATUS and the value of bits 15:0, with its CRC (R401, R402). -/
def slateReply (index seq sst v : Nat) : List Byte :=
  [BitVec.ofNat 8 index, BitVec.ofNat 8 seq] ++ beBytes 2 sst ++ beBytes 2 v
    ++ [crc8 ([BitVec.ofNat 8 index, BitVec.ofNat 8 seq] ++ beBytes 2 sst ++ beBytes 2 v)]

/-- The ceremony engine serves slot `n`: the warden runs, the slot is powered, and the module belongs to no cascade. -/
abbrev SlotServed (n : Nat) (s : State) : Prop :=
  wardenUp s = true ∧ (slotOf s n).powered = true ∧ s.btn.table = none

/-- A STEP of ceremony `c` runs on slot `n`, on a slate under the Slate protocol. -/
abbrev StepRuns (n : Nat) (c : Ceremony) (s : State) : Prop :=
  SlotServed n s ∧ (slotOf s n).proto = 1 ∧ (slotOf s n).step = true ∧ s.slt.cer = some c ∧ c.stepSlot = some n

/-- The STEP on slot `n` ended with a status: its slot is off, BUSY is clear, CER_DONE and STEP_DONE are set (R419, R428). -/
def StepEnded (n st : Nat) (t : State) : Prop :=
  (slotOf t n).powered = false ∧ (slotOf t n).session = none ∧ (slotOf t n).stage = .off ∧ (slotOf t n).step = false
    ∧ t.slt.status = st ∧ t.slt.busy = false ∧ t.slt.cause.getLsbD 0 = true ∧ t.slt.cause.getLsbD 1 = true

/-- SLT_CER_CTL takes a command of `who` with the ceremony engine free, in a module of no cascade. -/
abbrev CerTakes (who : Who) (s : State) : Prop :=
  PairTakes who 0x901000 s ∧ wardenUp s = true ∧ retiredLc s = false ∧ s.slt.busy = false ∧ s.btn.table = none

/-- A ceremony command ended: STATUS, BUSY clear, CER_DONE (R428). -/
def CerEnded (st : Nat) (t : State) : Prop := t.slt.status = st ∧ t.slt.busy = false ∧ t.slt.cause.getLsbD 0 = true

/-! ### System control (16_system_control.md) -/

/-- What the boot of R457 leaves, out of a reset with this reason. Without the regulator's acknowledgment or two entropy
sources the boot ROM stays at step 4 (R467, R486). Otherwise pending work and the rollback request are done, the MSU root is
drawn, and either no slot can run or no seed is there, which is recovery (R461, R463), or the warden is released at the ENTRY of
the slot that R460 selects, with TRIES counted and the key store starting. -/
def BootEnds (reason : Nat) (env : BootEnv) (t : State) : Prop :=
  t.sys.rstReason = reason
  ∧ (if env.vidAck = false ∨ popCount env.entropyPass < 2 then t.sys.power = .stuck
    else t.eav.pend = 0 ∧ t.ret.rbReq = 0 ∧ t.msu.rootOk = true
      ∧ (t.sys.power = .recovery ∧ t.sys.runSlot = 3
        ∨ t.sys.power = .active ∧ t.ks.phase = .starting ∧ t.ret.seed ≠ none
          ∧ ∃ u k fall, fwSelect u = some (k, fall) ∧ t.sys.runSlot = k ∧ t.sys.svn = fwSvn (fwImage u k)
            ∧ (t.core wardenNum).pc = BitVec.ofNat 32 (0x20000000 + fwAddr k + 0x40 + fwEntry (fwImage u k))
            ∧ (t.core wardenNum).phase = .running ∧ t.ret.pref = u.ret.pref
            ∧ t.ret.tries = (if fall then u.ret.tries else u.ret.tries + 1)
            ∧ fwGalFloor (fwImage u k) ≤ t.tel.counts.galFloor))

/-- A power command is turned away: STATUS and PWR_DONE, and a running command goes on (R453). -/
def PwrTurned (st : Nat) (s t : State) : Prop :=
  t.sys.pwrStatus = st ∧ t.sys.cause.getLsbD 0 = true ∧ t.sys.pwrRun = s.sys.pwrRun ∧ t.sys.power = s.sys.power
    ∧ SameOutside [.sys, .pairs] s t

/-- A SET on the voltage-identification interface awaits its acknowledgment for a purpose (R486). -/
abbrev VidAt (use : VidUse) (s : State) : Prop := s.elec.vidUse = use ∧ use ≠ .none ∧ use ≠ .boot

/-- The parts that a register command of the system controller may change. -/
abbrev sysParts : List Part := [.sys, .pairs]

/-- A snapshot can be programmed at the present position, and the outcomes given let each of its eight lines verify (R354, R474). -/
abbrev SnapReady (outs : List FlashOutcome) (s : State) : Prop :=
  outs.length = 8 ∧ (∀ o ∈ outs, ∃ p, o.pulses = some p ∧ 1 ≤ p ∧ p ≤ 8) ∧ isWorn s (snapAddr s s.tel.snapPos / 4096) = false
    ∧ ∀ i, i < 64 → wordErased s (snapAddr s s.tel.snapPos / 8 + i) = true

end Sys2Proof.Machine
end

