-- ==== Sys2Proof/WellFormed.lean ====
section
/-! DEFINITION. Well-formed commands: operands inside the ranges that the spec gives their kind. A command that is not
well formed names nothing that the block has, and leaves its state as it is. -/

namespace Sys2Proof

/-- A master of the management space: a virtual function has a number from 1 to 63 (R9, R66). -/
def whoOk : Who → Bool
  | .vf n => decide (1 ≤ n ∧ n ≤ 63)
  | .pf => true
  | .spi => true
  | .warden => true
  | .core _ _ => true

/-- A function and a ring number (R71). -/
def ringOk (fn ring : Nat) : Bool := decide (fn < 64) && decide (ring < 64)

/-- A command in flight: of one of this module's rings, or served for a member under ring 64 + member. -/
def refOk (r : CmdRef) : Bool := decide (r.fn < 64) && decide (r.ring < 80)

/-- Width of a management access in bytes. -/
def widthOk (w : Nat) : Bool := w == 1 || w == 2 || w == 4 || w == 8

/-- A cascade member and a gable (R434, R448). -/
def linkOk (src gable : Nat) : Bool := decide (src < 16) && decide (1 ≤ gable ∧ gable < 64)

/-- Is a command well formed? -/
def wellFormed : Instr → Bool
  | .registerWrite who off width _ => whoOk who && widthOk width && decide (off < 0xC00000)
  | .shadowPendingWrite who off _ => whoOk who && decide (off < 0xC00000 ∧ off % 4 = 0)
  | .powerUp _ => true
  | .sysRstCtl who _ => whoOk who
  | .watchdogExpiry _ => true
  | .msuInitDone lines => lines.all fun p => decide (p.1 < 0x3800000)
  | .imageLoad => true
  | .keyStorePowerUp => true
  | .logReplayEnd => true
  | .pavaneFrameBoundary => true
  | .pavaneSlotStart => true
  | .reelFrameBoundary => true
  | .grantCycle => true
  | .entryCommit fn ring => ringOk fn ring
  | .ringOpen who => whoOk who
  | .openComplete => true
  | .tailDoorbell fn ring _ _ => ringOk fn ring
  | .inlineWrite fn ring slot data _ => ringOk fn ring && decide (slot < 4) && data.length == 64
  | .doorbellWindowDiscard fn ring off _ => ringOk fn ring && decide (off < 256)
  | .postedEntriesKnown fn ring => ringOk fn ring
  | .entryFetchReturn fn ring _ _ => ringOk fn ring
  | .completionTimeout _ => true
  | .hostReadReturn _ _ => true
  | .unsupportedRequestReceived _ => true
  | .functionLevelReset fn => decide (fn < 64)
  | .conventionalReset _ => true
  | .linkUp => true
  | .sinkHostWrite => true
  | .sinkCompletionWrite => true
  | .nop r => refOk r
  | .pinTranslate r => refOk r
  | .pinVerify r => refOk r
  | .dukptPinTranslate r => refOk r
  | .dukptMacVerify r => refOk r
  | .emvAcVerify r => refOk r
  | .ccvGenerate r => refOk r
  | .ccvVerify r => refOk r
  | .macGenerate r => refOk r
  | .macVerify r => refOk r
  | .keyImport r => refOk r
  | .keyExport r => refOk r
  | .keyGenerate r => refOk r
  | .keyImportPublic r => refOk r
  | .keyDelete r => refOk r
  | .keyInfo r => refOk r
  | .ecdsaSign r => refOk r
  | .ecdsaVerify r => refOk r
  | .meterSeal r => refOk r
  | .meterVerify r => refOk r
  | .tariffLoad r => refOk r
  | .tariffPrice r => refOk r
  | .hash r => refOk r
  | .random r => refOk r
  | .counterNext r => refOk r
  | .counterRead r => refOk r
  | .serviceLoad r => refOk r
  | .serviceUnload r => refOk r
  | .serviceInstall gable => decide (1 ≤ gable ∧ gable < 64)
  | .tenantCommand r _ _ => refOk r
  | .tenantBudgetExceeded r => refOk r
  | .gableSuspend r => refOk r
  | .gableSuspendDrained r => refOk r
  | .gableResume r => refOk r
  | .gableInfo r => refOk r
  | .pfNop r => refOk r
  | .stage who => whoOk who
  | .stageFetchDone => true
  | .commit who => whoOk who
  | .commitSlotWritten => true
  | .discard who => whoOk who
  | .modset _ _ => true
  | .mmul _ _ => true
  | .mmac _ _ => true
  | .madd _ _ => true
  | .msub _ _ => true
  | .iadd _ _ => true
  | .mcswap _ _ => true
  | .msel _ _ => true
  | .mmov _ _ => true
  | .mclr _ _ => true
  | .mcmp _ _ => true
  | .mld _ _ => true
  | .mst _ _ => true
  | .mrand _ _ => true
  | .mkey _ _ => true
  | .mrelease _ _ => true
  | .mstat _ _ => true
  | .mabort _ _ => true
  | .wmaInstructionEnd _ _ _ => true
  | .galliardLoad who _ => whoOk who
  | .galliardLoadComplete _ => true
  | .galEcdsaVerifyRom who _ => whoOk who
  | .galRsaPrivate who _ => whoOk who
  | .galRsaPublic who _ => whoOk who
  | .galEcdsaVerify who _ => whoOk who
  | .galEcdsaSign who _ => whoOk who
  | .galEcdsaSignRom who _ => whoOk who
  | .galliardRunDone _ => true
  | .galliardAbort who _ => whoOk who
  | .chainOpen _ => true
  | .chainClose _ => true
  | .keyLoad _ => true
  | .derive _ => true
  | .block _ => true
  | .mac _ => true
  | .shaInit _ => true
  | .shaBlocks _ => true
  | .shaFinal _ => true
  | .drbg _ => true
  | .ctrNext _ => true
  | .ctrNextTime _ => true
  | .ctrRead _ => true
  | .portRequestComplete _ _ _ => true
  | .reserveRecordVerified index => decide (index < 65536)
  | .timeRecordVerified => true
  | .pageRewrite => true
  | .journalStallTimeout index => decide (index < 65536)
  | .drbgReseedRetry _ => true
  | .entropyBlock _ _ => true
  | .msuRead off len _ _ => decide (off + len ≤ 0xE0000000)
  | .msuWrite off data _ _ => decide (off + data.length ≤ 0xE0000000)
  | .ksInit who => whoOk who
  | .backup who => whoOk who
  | .restore who => whoOk who
  | .confirm who => whoOk who
  | .ksDone => true
  | .slotLogRecordVerified => true
  | .residentLogReclaim => true
  | .add _ _ => true
  | .sub _ _ => true
  | .adds _ _ => true
  | .subs _ _ => true
  | .cmp _ _ => true
  | .and _ _ => true
  | .or _ _ => true
  | .xor _ _ => true
  | .andn _ _ => true
  | .tst _ _ => true
  | .shl _ _ => true
  | .shr _ _ => true
  | .sar _ _ => true
  | .shli _ _ => true
  | .shri _ _ => true
  | .sari _ _ => true
  | .roli _ _ => true
  | .min _ _ => true
  | .max _ _ => true
  | .minu _ _ => true
  | .maxu _ _ => true
  | .mul _ _ => true
  | .mulh _ _ => true
  | .mulhu _ _ => true
  | .mull _ _ => true
  | .mullu _ _ => true
  | .divr _ _ => true
  | .divru _ _ => true
  | .clz _ _ => true
  | .popc _ _ => true
  | .mov _ _ => true
  | .adc _ _ => true
  | .sbc _ _ => true
  | .addi _ _ => true
  | .andi _ _ => true
  | .ori _ _ => true
  | .xori _ _ => true
  | .cmpi _ _ => true
  | .movi _ _ => true
  | .ld _ _ => true
  | .lds _ _ => true
  | .st _ _ => true
  | .bCond _ _ => true
  | .bl _ _ => true
  | .jr _ _ => true
  | .mfs _ _ => true
  | .mts _ _ => true
  | .fence _ _ => true
  | .ifence _ _ => true
  | .retx _ _ => true
  | .wait _ _ => true
  | .nopInstruction _ _ => true
  | .gate _ _ => true
  | .mulf _ _ => true
  | .macf _ _ => true
  | .msuf _ _ => true
  | .lda _ _ => true
  | .sta _ _ => true
  | .aadd _ _ => true
  | .asub _ _ => true
  | .mfa _ _ => true
  | .mta _ _ => true
  | .bset _ _ => true
  | .bclr _ _ => true
  | .bnot _ _ => true
  | .btst _ _ => true
  | .btas _ _ => true
  | .btac _ _ => true
  | .bld _ _ => true
  | .bst _ _ => true
  | .bfld _ _ => true
  | .bfst _ _ => true
  | .bmov _ _ => true
  | .band _ _ => true
  | .bor _ _ => true
  | .bxor _ _ => true
  | .bandn _ _ => true
  | .bb _ _ => true
  | .tli _ _ => true
  | .tvi _ _ => true
  | .bcopy _ _ => true
  | .bscan _ _ => true
  | .copi _ _ => true
  | .copiStallEnd _ => true
  | .impreciseException _ => true
  | .quarantine _ => true
  | .tick _ => true
  | .interruptTaken _ => true
  | .reedOpen _ _ => true
  | .putw _ _ => true
  | .putb _ _ => true
  | .reedCommit _ _ => true
  | .reedAbort _ _ => true
  | .take _ _ => true
  | .takeResume _ => true
  | .getw _ _ => true
  | .getb _ _ => true
  | .release _ _ => true
  | .info _ _ => true
  | .count _ _ => true
  | .faultPop who _ => whoOk who
  | .debugAccess _ _ _ _ _ => true
  | .flashRead who _ => whoOk who
  | .prog who _ => whoOk who
  | .progComplete _ => true
  | .erase who => whoOk who
  | .eraseComplete _ => true
  | .flashSuspend who => whoOk who
  | .flashResume who => whoOk who
  | .retire who _ => whoOk who
  | .autoResume => true
  | .journalPortProg => true
  | .cacheFill addr _ => decide (addr < 2 ^ 26)
  | .prefetchRead _ => true
  | .sourceDetection _ _ => true
  | .sourceInactive _ => true
  | .arbitrationStep _ => true
  | .holdRelease => true
  | .ack who => whoOk who
  | .ringAck who _ => whoOk who
  | .shadowScrub _ _ => true
  | .vbatSwap _ _ => true
  | .vaultEntry => true
  | .vaultExit _ => true
  | .mainPowerLoss => true
  | .slotPresent _ => true
  | .slotAbsent _ => true
  | .slateResponse _ _ => true
  | .dataBlockReceived _ _ => true
  | .crcToken _ _ => true
  | .busyRelease _ => true
  | .slateTimeout _ _ => true
  | .replyPoll _ => true
  | .atr _ _ => true
  | .t1BlockReceived _ _ => true
  | .ceremonyOpen who => whoOk who
  | .ceremonyStep who => whoOk who
  | .ceremonyAbort who => whoOk who
  | .ceremonyClose who => whoOk who
  | .ceremonyExpiry => true
  | .exportWindowExpiry => true
  | .portTrain _ _ => true
  | .hello _ _ => true
  | .flitReceived _ _ => true
  | .idleFlit _ => true
  | .portTimeout _ => true
  | .rekey _ _ => true
  | .replicationChange _ => true
  | .resync member _ _ => decide (member < 16)
  | .leaseGrant index member _ count => decide (index < 65536) && decide (member < 16) && decide (1 ≤ count)
  | .voteRequest voters => voters.all fun m => decide (m < 16)
  | .ridgeLossTimeout => true
  | .successorLossTimeout => true
  | .holdExpiry => true
  | .timeSync _ _ => true
  | .loadReport member _ => decide (member < 16)
  | .forward src gable words => linkOk src gable && decide (words.length ≤ 1024)
  | .returnWork src gable words => linkOk src gable && decide (words.length ≤ 1024)
  | .cancel src gable _ => linkOk src gable
  | .forwardTimeout r => refOk r
  | .eventFwd member event => decide (member < 16) && event.length == 32
  | .idle who => whoOk who
  | .active who => whoOk who
  | .standbyPrep who => whoOk who
  | .powerDrainComplete => true
  | .kick who => whoOk who
  | .bootConfirm who => whoOk who
  | .setPref who _ => whoOk who
  | .rbReq who _ => whoOk who
  | .recoveryLoad who => whoOk who
  | .quote who => whoOk who
  | .timeNonce who => whoOk who
  | .timeSet who => whoOk who
  | .timeBaseWrite => true
  | .timeHoldover => true
  | .snapshot _ => true
  | .lifetimeMinute _ => true
  | .eventArchive => true
  | .vidSet _ => true
  | .vidRetry _ => true
  | .vcoreRecompute _ => true
  | .spiRead _ _ => true
  | .spiWrite _ _ => true
  | .spiStatus => true
  | .jtagInstruction _ _ => true
  | .registerRead who off width => whoOk who && widthOk width && decide (off < 0xC00000)
  | .configWrite _ => true
  | .powerDown _ => true
  | .fuseTestAccess _ => true
  | .startupTestRetry _ => true
  | .timeSlewEnd => true
  | .sidebandAbsence _ => true
  | .joinTransfer ksrk _ _ _ => ksrk.length == 32
  | .cascadeTableUpdate _ _ => true
  | .ridgeWaitTimeout => true
  | .slotOvercurrent _ => true

end Sys2Proof
end

