-- ==== Sys2Proof/Certificates/Slice0/Obligations.lean ====
section
/-! DEFINITION. The statements for the provers, chapter by chapter of the spec. -/

open Sys2Proof Sys2Proof.Machine

/-! ### The management space (00_scope.md) -/

/-- REGISTER_WRITE and REGISTER_READ of a management register (R10, R11, R336): a 1 clears an ICAUSE bit and a 0 leaves
it; IMASK takes its bits; an access of another width or alignment is not carried out; a read returns the register and
changes no state but its own output and the latches of EAV_AON_LO and SYS_TIME_LO; a read that its gate refuses ends
without data. -/
def Obligations.ManagementRegisters : Prop :=
  (∀ (who : Who) (b : Block) (v : Dword) (s : State), RegTakes who (blockBase b + 0x10) kWrite s →
    ∃ t, exec (.registerWrite who (blockBase b + 0x10) 4 ⟨v, false⟩) s = .next t
      ∧ causeOf b t = causeOf b s &&& ~~~(v.setWidth 32) ∧ maskOf b t = maskOf b s ∧ SameOutside [blockPart b] s t)
  ∧ (∀ (who : Who) (b : Block) (v : Dword) (s : State), RegTakes who (blockBase b + 0x14) kWrite s →
    ∃ t, exec (.registerWrite who (blockBase b + 0x14) 4 ⟨v, false⟩) s = .next t
      ∧ maskOf b t = v.setWidth 32 &&& causeBits b ∧ causeOf b t = causeOf b s ∧ SameOutside [blockPart b] s t)
  ∧ (∀ (who : Who) (off width : Nat) (v : Dword) (s : State), isVf who = false → pfWindow off = none →
    ¬(width = 4 ∧ off % 4 = 0) → ¬(width = 8 ∧ off % 8 = 0) → answers s = true →
    exec (.registerWrite who off width ⟨v, false⟩) s = .next s
      ∧ exec (.registerRead who off width) s = .next (emit (.regData who off 0) s))
  ∧ (∀ (who : Who) (off : Nat) (s : State), RegTakes who off kRead s → off % 4 = 0 →
    ∃ t, exec (.registerRead who off 4) s = .next t
      ∧ t.out = .regData who off ((readReg s off).setWidth 64) :: s.out ∧ SameOutside [.out, .eav, .sys] s t
      ∧ (off ≠ 0x100038 → t.eav = s.eav) ∧ (off ≠ 0x5B0 → t.sys = s.sys))
  ∧ (∀ (who : Who) (off : Nat) (s u : State), answers s = true → off < 0xC00000 → isVf who = false → off % 4 = 0 →
    mgmtGate who off kRead s = (false, u) →
    exec (.registerRead who off 4) s = .next (emit (.regAbort who off) u))

/-- Shadowed pairs (R12): a write to X is held pending with its initiator and has no effect; a second write to X while a
value is pending, and a write to X + 4 that does not match, that finds nothing pending or that comes from another
initiator, leave nothing pending and the pair's value unchanged, and raise SHADOW unless one was raised in the last
32,768 AON ticks (R371); a matching complement from the same initiator makes the value take effect. -/
def Obligations.ShadowedPairWrites : Prop :=
  (∀ (who : Who) (x : Nat) (v : Word) (s : State), pairOffs.contains x = true → PairTakes who x s →
    ∃ t, exec (.shadowPendingWrite who x v) s = .next t ∧ (SMap.get {} t.pairs x).pend = some (v, who)
      ∧ pairValue t x = pairValue s x ∧ SameOutside [.pairs] s t)
  ∧ (∀ (who : Who) (x : Nat) (v : Word) (p : Word × Who) (s : State), pairOffs.contains x = true →
    PairTakes who x { s with pairs := [] } → (SMap.get {} s.pairs x).pend = some p → s.eav.shadowAt = none →
    ∃ t, exec (.shadowPendingWrite who x v) s = .next t ∧ (SMap.get {} t.pairs x).pend = none
      ∧ pairValue t x = pairValue s x ∧ (t.eav.detected.map (·.1)) = s.eav.detected.map (·.1) ++ [srcShadow]
      ∧ SameOutside [.pairs, .eav] s t)
  ∧ (∀ (who i : Who) (x : Nat) (v w : Word) (s : State), pairOffs.contains x = true →
    PairTakes who x { s with pairs := [] } → (SMap.get {} s.pairs x).pend = some (w, i) → i ≠ who ∨ v ≠ ~~~w →
    s.eav.shadowAt = none →
    ∃ t, exec (.registerWrite who (x + 4) 4 ⟨v.setWidth 64, false⟩) s = .next t ∧ (SMap.get {} t.pairs x).pend = none
      ∧ pairValue t x = pairValue s x ∧ (t.eav.detected.map (·.1)) = s.eav.detected.map (·.1) ++ [srcShadow]
      ∧ SameOutside [.pairs, .eav] s t)
  ∧ (∀ (who : Who) (x : Nat) (v : Word) (s : State), pairOffs.contains x = true → PairTakes who x s →
    s.eav.shadowAt = none →
    ∃ t, exec (.registerWrite who (x + 4) 4 ⟨v.setWidth 64, false⟩) s = .next t
      ∧ (t.eav.detected.map (·.1)) = s.eav.detected.map (·.1) ++ [srcShadow] ∧ SameOutside [.pairs, .eav] s t)
  ∧ (∀ (who : Who) (x : Nat) (w : Word) (s : State), pairOffs.contains x = true →
    PairTakes who x { s with pairs := [] } → (SMap.get {} s.pairs x).pend = some (w, who) →
    ∃ ps, exec (.registerWrite who (x + 4) 4 ⟨(~~~w).setWidth 64, false⟩) s
        = .next (pairEffect x w cleanLine cleanOut { s with pairs := ps })
      ∧ SMap.get {} ps x = { pend := none, work := true, bad := false })

/-! ### The queue -/

/-- A step carries out the command at the front of the queue with the queue's rest. -/
def Obligations.StepRunsFront : Prop :=
  ∀ (c : Instr) (q : List Instr) (s : State), s.pending = c :: q → step s = exec c { s with pending := q }

/-- Every Camol instruction is read back from its own words, with every field of its format at every value. -/
def Obligations.CamolWordsReadBack : Prop :=
  ∀ (i : Instr) (c : CoreId) (w e : Word), camolWords i = some (c, w, e) → camolDecode c w e = some i

/-! ### The Aqley image (02_aqley_image.md) -/

/-- STAGE, COMMIT and DISCARD that a value in GTE_IMG_CTL starts (R51 to R53, R55, R62, R97): each from the STATE in which
it has its effect. A STAGE asks the physical function for the element; a COMMIT begins; a DISCARD clears the buffer and the
approval. None of them alters the latched structure (R56). A COMMIT while STATE is not APPROVED ends with STATE_REFUSED and has
no side effect; a command written while BUSY is set ends at once with STATE_REFUSED and leaves the running one alone. With the
warden stopped a command writes no status (R297). -/
def Obligations.ImageCommands : Prop :=
  (∀ (who : Who) (s : State), PairTakes who 0x20F000 s → wardenUp s = true → s.img.busy = false → s.img.phase = .idle →
    s.slt.cer = none → s.img.src.toNat % 8 = 0 → s.img.len.toNat % 8 = 0 → 336 ≤ s.img.len.toNat →
    s.img.len.toNat ≤ 1048576 → TagsFree s.img.src.toNat s.img.len.toNat s →
    ∃ t, exec (.stage who) s = .next t ∧ t.img.cmd = 1 ∧ t.img.busy = true ∧ t.img.phase = .staging
      ∧ Asked .stage 0 s.img.src.toNat s.img.len.toNat s t ∧ t.hqi.reads = s.hqi.reads ++ [.stage]
      ∧ t.img.refCheck = 0 ∧ t.img.latched = s.img.latched ∧ SameOutside [.img, .hqi, .out, .pairs] s t)
  ∧ (∀ (who : Who) (s : State), PairTakes who 0x20F000 s → wardenUp s = true → s.img.busy = false →
    s.img.phase = .approved →
    ∃ t, exec (.commit who) s = .next t ∧ t.img.cmd = 2 ∧ t.img.busy = true ∧ t.img.phase = .committing
      ∧ t.img.slotsDone = 0 ∧ t.img.latched = s.img.latched ∧ SameOutside [.img, .pairs] s t)
  ∧ (∀ (who : Who) (s : State), PairTakes who 0x20F000 s → wardenUp s = true → s.img.busy = false →
    s.img.phase = .staged ∨ s.img.phase = .approved → s.slt.cer = none →
    ∃ t, exec (.discard who) s = .next t ∧ t.img.cmd = 3 ∧ t.img.phase = .idle ∧ t.img.staging = [] ∧ t.img.staged = none
      ∧ t.img.status = 0 ∧ t.img.busy = false ∧ t.gte.cause = s.gte.cause ||| 0x80000000#32
      ∧ t.img.latched = s.img.latched ∧ SameOutside ([.img, .gte, .pairs] ++ sealedParts) s t)
  ∧ (∀ (who : Who) (s : State), PairTakes who 0x20F000 s → wardenUp s = true → s.img.busy = false →
    s.img.phase ≠ .approved →
    ∃ t, exec (.commit who) s = .next t
      ∧ t.img = { s.img with
        cmd := 2
        status := 2 }
      ∧ t.gte = { s.gte with cause := s.gte.cause ||| 0x80000000#32 } ∧ SameOutside [.img, .gte, .pairs] s t)
  ∧ (∀ (who : Who) (s : State) (c : Instr), c = .stage who ∨ c = .commit who ∨ c = .discard who →
    PairTakes who 0x20F000 s → wardenUp s = true → s.img.busy = true →
    ∃ t, exec c s = .next t ∧ t.img = { s.img with status := 2 }
      ∧ t.gte = { s.gte with cause := s.gte.cause ||| 0x80000000#32 } ∧ SameOutside [.img, .gte, .pairs] s t)
  ∧ (∀ (who : Who) (s : State) (c : Instr), c = .stage who ∨ c = .commit who ∨ c = .discard who →
    PairTakes who 0x20F000 s → wardenUp s = false →
    ∃ t, exec c s = .next t ∧ t.img = { s.img with cmd := t.img.cmd } ∧ SameOutside [.img, .pairs] s t)

/-- The end of a STAGE's fetch (R53): the HQI writes the bytes that came into the staging buffer of sealed memory, and the sixteen
checks run in order on them. Where none fails STATE becomes STAGED and SDIG holds the element digest; at the first that fails the
buffer is cleared, STATE becomes IDLE, and STATUS and GTE_IMG_REFUSE report it. Either way BUSY clears, IMG_DONE is set, and the
latched structure is as before. -/
def Obligations.StageFetchDoneChecks : Prop :=
  ∀ (s : State) (b : List Byte), wardenUp s = true → s.img.busy = true → s.img.phase = .staging → s.msu.inited = true →
    SealedGood s → s.img.fetched = some (.ok b) → b.length = s.img.len.toNat → b.length ≤ 1048576 →
    (gate stageTag tgtSealed0 (stageBuf - 0x80000000) b.length kWrite s).1 = true →
    ∃ t, exec .stageFetchDone s = .next t ∧ t.img.busy = false ∧ t.gte.cause = s.gte.cause ||| 0x80000000#32
      ∧ t.img.latched = s.img.latched ∧ SameOutside [.img, .gte, .hqi, .out, .msu] s t
      ∧ (match stageChecks s s.img.len.toNat b with
        | none => t.img.phase = .staged ∧ t.img.status = 0 ∧ t.img.staging = b
          ∧ sealedBytes t stageBuf b.length = b
          ∧ t.img.sdig = sha384 (b.take (leAt b 0x54 4)) ∧ t.img.staged = some (parseElement b)
        | some (check, sect, st) => t.img.phase = .idle ∧ t.img.staging = [] ∧ t.img.staged = none ∧ t.img.status = st
          ∧ t.img.refCheck = check ∧ t.img.refSect = sect
          ∧ ∀ i, stageBuf ≤ i → i < stageBuf + b.length → sealedBytes t i 1 = [0])

/-- The phases of a COMMIT (R62, R63): slot A written leaves the latched structure and GEN alone; with slot B written a
full element is shown by GEN and DIGEST, its generation and digest stand in the lifetime record, and STATE is PENDING_RESET
with the latched structure unchanged; a partial element is applied to the latched structure and STATE is IDLE. -/
def Obligations.CommitSlotsThenLatches : Prop :=
  (∀ (s : State) (e : Element), wardenUp s = true → s.img.phase = .committing → s.img.staged = some e →
    s.img.slotsDone = 0 →
    ∃ t, exec .commitSlotWritten s = .next t ∧ t.img = { s.img with slotsDone := 1 } ∧ t.gte = s.gte ∧ t.hqi = s.hqi)
  ∧ (∀ (s : State) (e : Element), wardenUp s = true → s.img.phase = .committing → s.img.staged = some e →
    s.img.slotsDone = 1 → isPartial e = false →
    ∃ t, exec .commitSlotWritten s = .next t ∧ t.img.phase = .pendingReset ∧ t.img.gen = e.gen
      ∧ t.img.digest = elementDigest e ∧ t.tel.counts.imgGen = e.gen ∧ t.tel.counts.imgDig = elementDigest e
      ∧ t.img.latched = s.img.latched ∧ t.img.status = 0 ∧ t.img.busy = false
      ∧ t.gte.cause = s.gte.cause ||| 0x80000000#32)
  ∧ (∀ (s : State) (e : Element), wardenUp s = true → s.img.phase = .committing → s.img.staged = some e →
    s.img.slotsDone = 1 → isPartial e = true → s.sys.power ≠ .idle →
    ∃ t, exec .commitSlotWritten s = .next t ∧ t.img.phase = .idle ∧ t.img.gen = e.gen ∧ t.img.digest = elementDigest e
      ∧ LatchedAs (some e.target) (applyElement e s.img.latched) t.img.latched ∧ t.img.status = 0 ∧ t.img.busy = false)

/-- The power-up load (R57 to R60): once the warden is released the record that the selection rule names is applied
element by element and latched, and the latches are locked; SOURCE names its slots and GEN its last element. With no
authentic record, or with a divergent selection, the latched structure has no tenant gable. -/
def Obligations.ImageLoadLatches : Prop :=
  ∀ (s : State), wardenUp s = true → s.img.locked = false →
    ∃ t, exec .imageLoad s = .next t ∧ t.img.locked = true
      ∧ (match selectRecord s with
        | .slots src es => t.img.source = src ∧ t.img.divergent = s.img.divergent
          ∧ LatchedAs none (es.foldl (fun l e => applyElement e l) { partition := s.img.latched.partition }) t.img.latched
          ∧ t.img.gen = (es.getLastD (parseElement [])).gen
        | .none => t.img.source = 0 ∧ t.img.latched = { partition := s.img.latched.partition }
          ∧ t.img.gen = s.tel.counts.imgGen ∧ t.img.digest = s.tel.counts.imgDig
        | .divergent => t.img.divergent = true ∧ t.img.latched = { partition := s.img.latched.partition }
          ∧ t.ks.phase = .isSealed)

/-! ### The host queue interface (03_host_queues.md) -/

/-- The tail doorbell (R82, R83, R85). A value with (TAIL - HEAD) ≤ d ≤ 2^SIZE_LOG2 becomes TAIL, each written slot j
below n is bound to position old TAIL + j and each other written slot becomes empty, and the posted positions whose slot still
has its last command in flight are noted (R81); any other value sets DB_RANGE and counts in DROP and leaves the ring's counts
alone. No other ring changes. A write of the physical function that its gate refuses leaves only the refusal (R336). -/
def Obligations.TailDoorbell : Prop :=
  (∀ (f r : Nat) (v : Word) (s : State), WindowTakes f r s → WindowAdmits f r 0 4 s → s.sys.power = .active →
    ((ringOf s (ctxNum f r)).tail - (ringOf s (ctxNum f r)).head).toNat ≤ (v - (ringOf s (ctxNum f r)).head).toNat →
    (v - (ringOf s (ctxNum f r)).head).toNat ≤ 2 ^ (ringOf s (ctxNum f r)).sizeLog2 →
    ∃ t, exec (.tailDoorbell f r v false) s = .next t
      ∧ ringOf t (ctxNum f r) = { ringOf s (ctxNum f r) with
          tail := v
          slots := (ringOf t (ctxNum f r)).slots
          reused := (ringOf t (ctxNum f r)).reused }
      ∧ (∀ j, (ringOf t (ctxNum f r)).slots.getD j .empty = match (ringOf s (ctxNum f r)).slots.getD j .empty with
        | .written b => if j < (v - (ringOf s (ctxNum f r)).tail).toNat
            then .bound ((ringOf s (ctxNum f r)).tail + BitVec.ofNat 32 j) b else .empty
        | x => x)
      ∧ (∀ q, q ∈ (ringOf t (ctxNum f r)).reused ↔ q ∈ (ringOf s (ctxNum f r)).reused
        ∨ ∃ c ∈ s.hqi.cmds, c.ref.fn = f ∧ c.ref.ring = r
          ∧ q = c.ref.pos + BitVec.ofNat 32 (2 ^ (ringOf s (ctxNum f r)).sizeLog2)
          ∧ (q - (ringOf s (ctxNum f r)).tail).toNat < (v - (ringOf s (ctxNum f r)).tail).toNat)
      ∧ (∀ c, c ≠ ctxNum f r → ringOf t c = ringOf s c) ∧ (∀ g, fnOf t g = fnOf s g) ∧ SameOutside [.hqi] s t)
  ∧ (∀ (f r : Nat) (v : Word) (s : State), WindowTakes f r s → WindowAdmits f r 0 4 s →
    ¬((ringOf s (ctxNum f r)).tail - (ringOf s (ctxNum f r)).head).toNat ≤ (v - (ringOf s (ctxNum f r)).head).toNat
      ∨ ¬(v - (ringOf s (ctxNum f r)).head).toNat ≤ 2 ^ (ringOf s (ctxNum f r)).sizeLog2 →
    ∃ t, exec (.tailDoorbell f r v false) s = .next t
      ∧ ringOf t (ctxNum f r) = { ringOf s (ctxNum f r) with dbRange := true } ∧ Dropped f false s t
      ∧ (∀ c, c ≠ ctxNum f r → ringOf t c = ringOf s c))
  ∧ (∀ (f r : Nat) (v : Word) (bad : Bool) (s : State), takesDoorbells s = true → f < 64 → r < 64 → WindowAdmits f r 0 4 s →
    (ringOf s (ctxNum f r)).isOpen = false ∨ ringCount s f ≤ r ∨ bad = true ∨ (fnOf s f).flrActive = true →
    ∃ t, exec (.tailDoorbell f r v bad) s = .next t ∧ Dropped f bad s t ∧ (∀ c, ringOf t c = ringOf s c))
  ∧ (∀ (r : Nat) (v : Word) (bad : Bool) (s u : State), takesDoorbells s = true → r < 64 →
    gate (whoTag s .pf) 0x53 (0x80000 + r * 0x1000) 4 kWrite s = (false, u) →
    exec (.tailDoorbell 0 r v bad) s = .next u ∧ u.hqi = s.hqi)

/-- Inline slots and other window writes (R83, R85): 64 bytes at slot j make an empty or written slot written with them;
a write to a bound slot is discarded with INL_OVERRUN; a write that the window does not accept, by width, offset or a ring
without INLINE, is discarded with WIN_WIDTH where the ring is open; a bad TLP or a ring that is not open or not owned discards a
64-byte write too. Each discarded write counts in DROP. Beyond the window's 256 bytes a write leaves at most ECRC (R70, R101). -/
def Obligations.InlineWrites : Prop :=
  (∀ (f r j : Nat) (b : List Byte) (s : State), WindowTakes f r s → WindowAdmits f r (64 * j) 64 s →
    ringInline s (ctxNum f r) = true → j < 4 → b.length = 64 → (ringOf s (ctxNum f r)).slots.length = 4 →
    (∀ p d, (ringOf s (ctxNum f r)).slots.getD j .empty ≠ .bound p d) →
    ∃ t, exec (.inlineWrite f r j b false) s = .next t
      ∧ ringOf t (ctxNum f r) = { ringOf s (ctxNum f r) with slots := (ringOf s (ctxNum f r)).slots.set j (.written b) }
      ∧ (∀ c, c ≠ ctxNum f r → ringOf t c = ringOf s c) ∧ (∀ g, fnOf t g = fnOf s g) ∧ SameOutside [.hqi] s t)
  ∧ (∀ (f r j : Nat) (b d : List Byte) (p : Word) (s : State), WindowTakes f r s → WindowAdmits f r (64 * j) 64 s →
    ringInline s (ctxNum f r) = true → j < 4 → b.length = 64 → (ringOf s (ctxNum f r)).slots.getD j .empty = .bound p d →
    ∃ t, exec (.inlineWrite f r j b false) s = .next t
      ∧ ringOf t (ctxNum f r) = { ringOf s (ctxNum f r) with inlOverrun := true } ∧ Dropped f false s t
      ∧ (∀ c, c ≠ ctxNum f r → ringOf t c = ringOf s c))
  ∧ (∀ (f r j : Nat) (b : List Byte) (bad : Bool) (s : State), takesDoorbells s = true → f < 64 → r < 64 →
    WindowAdmits f r (64 * j) 64 s → ringInline s (ctxNum f r) = true → j < 4 → b.length = 64 →
    (ringOf s (ctxNum f r)).isOpen = false ∨ ringCount s f ≤ r ∨ bad = true ∨ (fnOf s f).flrActive = true →
    ∃ t, exec (.inlineWrite f r j b bad) s = .next t ∧ Dropped f bad s t ∧ (∀ c, ringOf t c = ringOf s c))
  ∧ (∀ (f r j : Nat) (b : List Byte) (bad : Bool) (s : State), takesDoorbells s = true → f < 64 → r < 64 →
    WindowAdmits f r (64 * j) 64 s → ringInline s (ctxNum f r) = false → j < 4 →
    ∃ t, exec (.inlineWrite f r j b bad) s = .next t ∧ Dropped f bad s t
      ∧ ringOf t (ctxNum f r) = { ringOf s (ctxNum f r) with
          winWidth := (ringOf s (ctxNum f r)).winWidth || (ringOf s (ctxNum f r)).isOpen }
      ∧ (∀ c, c ≠ ctxNum f r → ringOf t c = ringOf s c))
  ∧ (∀ (f r off width : Nat) (bad : Bool) (s : State), takesDoorbells s = true → f < 64 → r < 64 → off < 0x100 →
    WindowAdmits f r off width s →
    ¬(width = 4 ∧ off = 0) → ¬(width = 64 ∧ ringInline s (ctxNum f r) = true ∧ off % 64 = 0) →
    ∃ t, exec (.doorbellWindowDiscard f r off ⟨width, bad⟩) s = .next t ∧ Dropped f bad s t
      ∧ ringOf t (ctxNum f r) = { ringOf s (ctxNum f r) with
          winWidth := (ringOf s (ctxNum f r)).winWidth || (ringOf s (ctxNum f r)).isOpen }
      ∧ (∀ c, c ≠ ctxNum f r → ringOf t c = ringOf s c))
  ∧ (∀ (f r off width : Nat) (bad : Bool) (s : State), takesDoorbells s = true → f < 64 → r < 64 → 0x100 ≤ off →
    exec (.doorbellWindowDiscard f r off ⟨width, bad⟩) s
      = .next (if bad then { s with hqi := { s.hqi with cause := s.hqi.cause ||| 0x10#32 } } else s))

/-- OPEN (R72, R73): the value 0b01 starts it with the setup registers as they stand; while one runs another ends at once
with STATE_REFUSED; its end writes STATUS, clears BUSY and sets SETUP_DONE; with every check passed the context is open
with its counts at zero and its slots empty, and with a check failed no context changes. -/
def Obligations.OpenRing : Prop :=
  (∀ (who : Who) (s : State), PairTakes who 0x300110 s → s.hqi.setupReq = none →
    ∃ t, exec (.ringOpen who) s = .next t
      ∧ t.hqi.setupReq = some (s.hqi.setupCtx, s.hqi.setupBase.toNat, s.hqi.setupSize) ∧ t.hqi.rings = s.hqi.rings
      ∧ SameOutside [.hqi, .pairs] s t)
  ∧ (∀ (who : Who) (s : State), PairTakes who 0x300110 s → s.hqi.setupReq.isSome = true →
    ∃ t, exec (.ringOpen who) s = .next t ∧ t.hqi.setupReq = s.hqi.setupReq ∧ t.hqi.setupStatus = 2
      ∧ t.hqi.cause = s.hqi.cause ||| 0x40#32 ∧ t.hqi.rings = s.hqi.rings ∧ SameOutside [.hqi, .pairs] s t)
  ∧ (∀ (c base size : Nat) (s : State), s.hqi.setupReq = some (c, base, size) → base < 2 ^ 64 →
    fnReady s (c / 64) = true → (fnOf s (c / 64)).flrActive = false → c % 64 < ringCount s (c / 64) →
    (ringOf s c).isOpen = false → 4 ≤ size → size ≤ maxLog2 s c → base % 4096 = 0 →
    (c / 64 = 0 ∨ latchBad s (.range (c / 64) 6) = false ∧ ∃ w ∈ SMap.get [] s.img.latched.windows (c / 64), w.base ≤ base
      ∧ base + 64 * 2 ^ size ≤ w.base + w.length ∧ bitOf w.access 0 = true ∧ bitOf w.access 1 = true) →
    ∃ t, exec .openComplete s = .next t ∧ t.hqi.setupStatus = 0 ∧ t.hqi.setupReq = none
      ∧ t.hqi.cause = s.hqi.cause ||| 0x40#32
      ∧ ringOf t c = { base := BitVec.ofNat 64 base, sizeLog2 := size, isOpen := true }
      ∧ (∀ k, k ≠ c → ringOf t k = ringOf s k) ∧ SameOutside [.hqi] s t)
  ∧ (∀ (c base size : Nat) (s : State), s.hqi.setupReq = some (c, base, size) → openChecks s c base size ≠ 0 →
    ∃ t, exec .openComplete s = .next t ∧ t.hqi.setupStatus = openChecks s c base size ∧ t.hqi.setupReq = none
      ∧ t.hqi.cause = s.hqi.cause ||| 0x40#32 ∧ t.hqi.rings = s.hqi.rings ∧ SameOutside [.hqi] s t)

/-- The Reel arbiter's cycles and frames (R86 to R89): a grant cycle advances the frame and puts at most one command in
flight, and then that of a ring that was eligible; after 256 cycles the next frame begins with the deal list that is due. -/
def Obligations.ReelCycles : Prop :=
  (∀ (s : State), powered s = true → s.img.locked = true → s.hqi.cycle < 256 →
    ∃ t, exec .grantCycle s = .next t ∧ t.hqi.cycle = s.hqi.cycle + 1
      ∧ (t.hqi.cmds.map (·.ref) = s.hqi.cmds.map (·.ref)
        ∨ ∃ r : CmdRef, t.hqi.cmds.map (·.ref) = s.hqi.cmds.map (·.ref) ++ [r] ∧ eligible s (ctxNum r.fn r.ring) = true
          ∧ r.pos = (ringOf s (ctxNum r.fn r.ring)).head))
  ∧ (∀ (s : State), s.hqi.cycle = 256 →
    ∃ t, exec .reelFrameBoundary s = .next t ∧ t.hqi.cycle = 0 ∧ t.hqi.nextDeal = none
      ∧ t.hqi.deal = s.hqi.nextDeal.getD s.hqi.deal ∧ t.hqi.rings = s.hqi.rings ∧ SameOutside [.hqi] s t)

/-- Entries on their way (R83, R86, R95): what the accepted doorbells posted becomes known and the fetches that are due
are issued; a fetched entry is held; a failed fetch stops the ring, discards what lies beyond it and sets RING_STOP; a
granted entry reaches the end of its ring's Reed queue with its ring and position. -/
def Obligations.EntriesMove : Prop :=
  (∀ (f r : Nat) (s : State), powered s = true → f < 64 → r < 64 → (ringOf s (ctxNum f r)).isOpen = true →
    ∃ t, exec (.postedEntriesKnown f r) s = .next t
      ∧ (ringOf t (ctxNum f r)).known = (ringOf s (ctxNum f r)).tail
      ∧ (ringOf t (ctxNum f r)).head = (ringOf s (ctxNum f r)).head
      ∧ t.hqi.reads = s.hqi.reads ++ ((dueFetches { ringOf s (ctxNum f r) with known := (ringOf s (ctxNum f r)).tail }).map
          fun p => ReadId.fetch ⟨f, r, p⟩)
      ∧ SameOutside [.hqi, .out] s t)
  ∧ (∀ (f r : Nat) (p : Word) (b : List Byte) (s : State), s.hqi.reads.contains (.fetch ⟨f, r, p⟩) = true →
    (ringOf s (ctxNum f r)).fetching.contains p = true → b.length = 64 →
    ∃ t, exec (.entryFetchReturn f r p (.ok b)) s = .next t
      ∧ (ringOf t (ctxNum f r)).held = (ringOf s (ctxNum f r)).held ++ [(p, b)]
      ∧ (ringOf t (ctxNum f r)).fetching.contains p = false ∧ SameOutside [.hqi, .out] s t)
  ∧ (∀ (f r : Nat) (p : Word) (d : HostData) (s : State), d = .poison ∨ d = .ecrc ∨ d = .ur ∨ d = .ca →
    s.hqi.reads.contains (.fetch ⟨f, r, p⟩) = true → (ringOf s (ctxNum f r)).fetching.contains p = true →
    (ringOf s (ctxNum f r)).stopAt = none → r < 64 → f < 64 →
    ∃ t, exec (.entryFetchReturn f r p d) s = .next t ∧ (ringOf t (ctxNum f r)).stopped = true
      ∧ (ringOf t (ctxNum f r)).fetchErr = true ∧ (ringOf t (ctxNum f r)).stopAt = some p
      ∧ (∀ x ∈ (ringOf t (ctxNum f r)).held,
          (x.1 - (ringOf s (ctxNum f r)).head).toNat < (p - (ringOf s (ctxNum f r)).head).toNat)
      ∧ t.hqi.cause &&& 2#32 = 2#32 ∧ t.hqi.stopFn.getLsbD f = true ∧ SameOutside [.hqi, .out] s t)
  ∧ (∀ (f r : Nat) (p : Word) (e : List Byte) (rest : List (Word × List Byte)) (s : State), powered s = true → f < 64 →
    r < 64 → (ringOf s (ctxNum f r)).granted = (p, e) :: rest → (ringOf s (ctxNum f r)).chains = [] → e.length = 64 →
    ∃ t, exec (.entryCommit f r) s = .next t ∧ (ringOf t (ctxNum f r)).granted = rest
      ∧ (∃ k : Packet, queueOf t (ringQueue s (ctxNum f r)) = queueOf s (ringQueue s (ctxNum f r)) ++ [k] ∧ k.typ = 1
        ∧ k.words = wordsOf e ++ [BitVec.ofNat 32 (r + 256 * f), p] ∧ k.prod = f ∧ k.fn = some f)
      ∧ SameOutside [.hqi, .rfb] s t)

/-- Host reads that return or time out (R67, R94): their tags are free for requests that wait; a command's data stand ready for it; poisoned data or a failed ECRC
end it with INTEGRITY and any other failure with ABORTED; a timeout sets CPL_TIMEOUT and fails the read as ABORTED. -/
def Obligations.HostReadsReturn : Prop :=
  (∀ (r : CmdRef) (b : List Byte) (s : State), answers s = true → s.hqi.reads.contains (.cmd r) = true →
    ∃ t, exec (.hostReadReturn (.cmd r) (.ok b)) s = .next t
      ∧ t.hqi.cmds = s.hqi.cmds.map (fun c => if c.ref = r then { c with src := .got b } else c)
      ∧ t.hqi.reads.contains (.cmd r) = false ∧ t.hqi.cause = s.hqi.cause ∧ SameOutside [.hqi, .out] s t)
  ∧ (∀ (r : CmdRef) (d : HostData) (s : State), answers s = true → s.hqi.reads.contains (.cmd r) = true →
    d = .poison ∨ d = .ecrc →
    ∃ t, exec (.hostReadReturn (.cmd r) d) s = .next t
      ∧ t.hqi.cmds = s.hqi.cmds.map (fun c => if c.ref = r then { c with src := .failed 7 } else c)
      ∧ t.hqi.cause = s.hqi.cause ||| 0x10#32 ∧ SameOutside [.hqi, .out] s t)
  ∧ (∀ (r : CmdRef) (s : State), answers s = true → s.hqi.reads.contains (.cmd r) = true → s.hqi.toDisable = false →
    ∃ t, exec (.completionTimeout (.cmd r)) s = .next t
      ∧ t.hqi.cmds = s.hqi.cmds.map (fun c => if c.ref = r then { c with src := .failed 6 } else c)
      ∧ t.hqi.cause = s.hqi.cause ||| 0x20#32 ∧ SameOutside [.hqi, .out] s t)

/-- The HQI sink (R80, R324): with a host-write packet first, the write leaves inside a WRITE window of its function, or
it is refused outside every one; with a completion packet first, its 64 bytes overwrite the entry's slot, with
NOT_PERMITTED where a write of the command was refused, CPL rises and the command is no longer in flight; a packet whose
function is not READY or whose ring is not open is dropped. The packet leaves the sink. -/
def Obligations.SinkWrites : Prop :=
  (∀ (p : Packet) (ps : List Packet) (s : State), s.rfb.sink0 = p :: ps → p.typ = 3 →
    fnReady s (fld (p.words.getD 2 0) 8 6) = true →
    (ringOf s (ctxNum (fld (p.words.getD 2 0) 8 6) (fld (p.words.getD 2 0) 0 6))).isOpen = true →
    ∃ t, exec .sinkHostWrite s = .next t ∧ t.rfb.sink0 = ps
      ∧ (if inWindow s (fld (p.words.getD 2 0) 8 6) ((p.words.getD 0 0).toNat + (p.words.getD 1 0).toNat * 2 ^ 32)
            (p.words.getD 4 0).toNat 1
        then Written (fld (p.words.getD 2 0) 8 6) ((p.words.getD 0 0).toNat + (p.words.getD 1 0).toNat * 2 ^ 32)
              (slice (bytesOf (p.words.drop 5)) 0 (p.words.getD 4 0).toNat) s t
          ∧ t.rfb.refused = s.rfb.refused
        else t.out = s.out ∧ t.rfb.cause = s.rfb.cause ||| 4#32
          ∧ t.rfb.refused = (p.ctx, fld (p.words.getD 2 0) 8 6, p.words.getD 3 0) :: s.rfb.refused)
      ∧ SameOutside [.rfb, .out] s t)
  ∧ (∀ (p : Packet) (ps : List Packet) (s : State), s.rfb.sink0 = p :: ps → p.typ = 2 → p.words.length = 18 →
    fnReady s (fld (p.words.getD 16 0) 8 6) = true →
    (ringOf s (ctxNum (fld (p.words.getD 16 0) 8 6) (fld (p.words.getD 16 0) 0 6))).isOpen = true →
    (ringOf s (ctxNum (fld (p.words.getD 16 0) 8 6) (fld (p.words.getD 16 0) 0 6))).chains = [] →
    ∃ t b, exec .sinkCompletionWrite s = .next t ∧ t.rfb.sink0 = ps
      ∧ Written (fld (p.words.getD 16 0) 8 6)
          ((ringOf s (ctxNum (fld (p.words.getD 16 0) 8 6) (fld (p.words.getD 16 0) 0 6))).base.toNat
            + 64 * ((p.words.getD 17 0).toNat
              % 2 ^ (ringOf s (ctxNum (fld (p.words.getD 16 0) 8 6) (fld (p.words.getD 16 0) 0 6))).sizeLog2)) b s t
      ∧ b.length = 64
      ∧ (if s.rfb.refused.contains (p.ctx, fld (p.words.getD 16 0) 8 6, p.words.getD 17 0)
        then leAt b 0 2 = 8 ∧ slice b 8 56 = List.replicate 56 0 else b = bytesOf (p.words.take 16))
      ∧ (ringOf t (ctxNum (fld (p.words.getD 16 0) 8 6) (fld (p.words.getD 16 0) 0 6))).cpl
        = (ringOf s (ctxNum (fld (p.words.getD 16 0) 8 6) (fld (p.words.getD 16 0) 0 6))).cpl + 1
      ∧ findCmd t ⟨fld (p.words.getD 16 0) 8 6, fld (p.words.getD 16 0) 0 6, p.words.getD 17 0⟩ = none
      ∧ SameOutside [.rfb, .out, .hqi] s t)

/-- Resets of functions and of the endpoint (R74, R98, R100): afterwards no command of this module and no open ring of a reset
function is left (what a peer has forwarded is that peer's, R449) and FLR_DONE is set with its bit; a virtual function's reset leaves every other function's rings alone; a
reset of the physical function or of the endpoint resets every function and clears VF Enable; clearing VF Enable alone
resets the virtual functions (the model's reading of R100, log 305). Structural latches and keys
are unaffected. The link reaching L0 sets LINK_UP; a configuration write sets its field and only a supported value; a request
for an unsupported feature is answered as an Unsupported Request and changes nothing else (R67, R68, R101). -/
def Obligations.ResetsAndEndpoint : Prop :=
  (∀ (f : Nat) (s : State), answers s = true → 1 ≤ f → f < 64 → fnEnabled s f = true →
    ∃ t, exec (.functionLevelReset f) s = .next t ∧ (∀ c ∈ t.hqi.cmds, c.ref.fn = f → isServed c.ref = true)
      ∧ (∀ r < 64, ringOf t (ctxNum f r) = {}) ∧ (∀ c, c / 64 ≠ f → (ringOf t c).tail = (ringOf s c).tail)
      ∧ fnOf t f = {} ∧ t.hqi.flrFn.getLsbD f = true ∧ t.hqi.cause &&& 1#32 = 1#32
      ∧ t.img.latched = s.img.latched ∧ t.eav.vault = s.eav.vault ∧ t.msu = s.msu)
  ∧ (∀ (k : EndpointReset) (s : State), answers s = true →
    ∃ t, exec (.conventionalReset k) s = .next t ∧ (∀ c ∈ t.hqi.cmds, 64 ≤ c.ref.fn ∨ isServed c.ref = true)
      ∧ (∀ c, c < 4096 → (ringOf t c).isOpen = false)
      ∧ t.hqi.vfEnable = false ∧ t.hqi.cause &&& 1#32 = 1#32 ∧ t.img.latched = s.img.latched
      ∧ t.eav.vault = s.eav.vault
      ∧ (k ≠ .pfFlr → t.hqi.maxPayload = 128 ∧ t.hqi.maxRead = 512 ∧ t.hqi.numVfs = 63)
      ∧ (k = .linkDown → s.hqi.linkUp = true → t.hqi.cause &&& 4#32 = 4#32 ∧ t.hqi.linkUp = false))
  ∧ (∀ (s : State), answers s = true → ∃ t, exec .linkUp s = .next t ∧ t.hqi.linkUp = true
    ∧ t.hqi.cause = s.hqi.cause ||| 8#32 ∧ t.hqi.rings = s.hqi.rings ∧ SameOutside [.hqi] s t)
  ∧ (∀ (on : Bool) (s : State), answers s = true →
    (on = true ∨ s.hqi.vfEnable = false →
        exec (.configWrite (.vfEnable on)) s = .next { s with hqi := { s.hqi with vfEnable := on } })
      ∧ exec (.configWrite (.timeoutDisable on)) s = .next { s with hqi := { s.hqi with toDisable := on } }
      ∧ exec (.configWrite (.ecrcEnable on)) s = .next { s with hqi := { s.hqi with ecrc := on } }
      ∧ exec (.configWrite (.tenBitTags on)) s = .next { s with hqi := { s.hqi with tenBit := on } })
  ∧ (∀ (s : State), answers s = true → s.hqi.vfEnable = true →
    ∃ t, exec (.configWrite (.vfEnable false)) s = .next t ∧ t.hqi.vfEnable = false
      ∧ (∀ c ∈ t.hqi.cmds, c.ref.fn = 0 ∨ 64 ≤ c.ref.fn ∨ isServed c.ref = true)
      ∧ (∀ c, 64 ≤ c → c < 4096 → (ringOf t c).isOpen = false) ∧ (∀ c, c < 64 → (ringOf t c).tail = (ringOf s c).tail)
      ∧ t.img.latched = s.img.latched ∧ t.eav.vault = s.eav.vault ∧ t.msu = s.msu)
  ∧ (∀ (n : Nat) (s : State), answers s = true →
    (exec (.configWrite (.maxPayload n)) s = .next (if n = 128 ∨ n = 256 ∨ n = 512
      then { s with hqi := { s.hqi with maxPayload := n } } else s))
      ∧ (s.hqi.vfEnable = false → n ≤ 63 →
        exec (.configWrite (.numVfs n)) s = .next { s with hqi := { s.hqi with numVfs := n } }))
  ∧ (∀ (k : Unsupported) (s : State), answers s = true →
    exec (.unsupportedRequestReceived k) s = .next (emit (.unsupportedRequest k) s))

/-! ### Native transaction services (04_transaction_services.md) -/

/-- Checks 1 to 6 of every native command, in order (R96, R103, R112): a malformed entry stalls, completes, vanishes, or
disturbs a truss of its gable, and touches nothing but its command, its gable's packets, engines and SRAMs and its function's
rings (R2, R96; which of these it does is the model's free choice, log 301); an opcode that is not in the gable's service
table ends with UNSUPPORTED, a tenant opcode waiting first for an install step (R156); sealed memory that a check reads is waited for, and where it fails the command ends with INTEGRITY (R224, R225); the first check that fails ends
the command with its status; with all passed a core of the gable takes it, and SRC is read where the command reads one. -/
def Obligations.NativeChecksInOrder : Prop :=
  ∀ p ∈ nativeRows, ∀ (r : CmdRef) (c : Cmd) (s : State), runnable s r = some c → (liveTrusses s r.fn).isEmpty = false →
    (c.bad = true → r.ring < 64 → EntryUndefined r s (exec (p.1 r) s))
    ∧ (c.bad = false → isSub r = false ∨ eOpcode c.entry ≠ 0x7FFF → 0x8000 ≤ eOpcode c.entry →
        (installWaits s r.fn).isSome = true → exec (p.1 r) s = .next s)
    ∧ (c.bad = false → isSub r = false ∨ eOpcode c.entry ≠ 0x7FFF → eOpcode c.entry < 0x8000 ∨ installWaits s r.fn = none →
        inTable s r.fn (eOpcode c.entry) = false → exec (p.1 r) s = .next (endCmd r 10 0 [] (takeEntryPacket r s)))
    ∧ (c.bad = false → inTable s r.fn (eOpcode c.entry) = true → eOpcode c.entry = p.2.opcode →
        malformedFor p.2 c.entry = true → r.ring < 64 → EntryUndefined r s (exec (p.1 r) s))
    ∧ (c.bad = false → inTable s r.fn (eOpcode c.entry) = true → eOpcode c.entry = p.2.opcode →
        malformedFor p.2 c.entry = false → c.truss = none →
        (sealedLook p.2 r c.entry (takeEntryPacket r s) = none → exec (p.1 r) s = .next (takeEntryPacket r s))
        ∧ (∀ w, sealedLook p.2 r c.entry (takeEntryPacket r s) = some (false, w) → exec (p.1 r) s = .next (endCmd r 7 0 [] w))
        ∧ (∀ w, sealedLook p.2 r c.entry (takeEntryPacket r s) = some (true, w) →
          (earlyChecks p.2 r c.entry w ≠ 0 → exec (p.1 r) s = .next (endCmd r (earlyChecks p.2 r c.entry w) 0 [] w))
          ∧ (earlyChecks p.2 r c.entry w = 0 → p.2.source = true → 0 < eSrcLen c.entry → r.ring < 64 →
            findCmd w r = some c → TagsFree (eSrc c.entry) (eSrcLen c.entry) w →
            ∃ t n, exec (p.1 r) s = .next t ∧ Asked (.cmd r) r.fn (eSrc c.entry) (eSrcLen c.entry) w t
              ∧ t.hqi.reads = w.hqi.reads ++ [.cmd r] ∧ (findCmd t r).bind (·.core) = some n
              ∧ n ∈ workerCores p.2 r c.entry w)))

/-- A command that ends outside a chain commits one completion to the HQI sink (R79, R80, R323): STATUS, the entry's
flags, DONE, TAG, and with OK RESULT and INLINE, else zeros. -/
def Obligations.CompletionOfCommand : Prop :=
  ∀ (r : CmdRef) (c : Cmd) (status result : Nat) (inl : List Byte) (s : State), findCmd s r = some c → r.ring < 64 →
    chainAt (ringOf s (ctxNum r.fn r.ring)) r.pos = none → c.entry.length = 64 → status < 65536 → result < 2 ^ 64 →
    ∃ k : Packet, (endCmd r status result inl s).rfb.sink0 = s.rfb.sink0 ++ [k] ∧ k.typ = 2 ∧ k.fn = some r.fn
      ∧ k.words.drop 16 = [BitVec.ofNat 32 (r.ring + 256 * r.fn), r.pos] ∧ (bytesOf (k.words.take 16)).length = 64
      ∧ leAt (bytesOf (k.words.take 16)) 0 2 = status ∧ leAt (bytesOf (k.words.take 16)) 2 1 = eFlags c.entry
      ∧ leAt (bytesOf (k.words.take 16)) 3 1 = 0x80 ∧ slice (bytesOf (k.words.take 16)) 4 4 = slice c.entry 4 4
      ∧ leAt (bytesOf (k.words.take 16)) 8 8 = (if status = 0 then result else 0)
      ∧ slice (bytesOf (k.words.take 16)) 16 48 = (if status = 0 then padTo 48 inl else List.replicate 48 0)

/-- The PIN commands (R110, R119 to R125): what each does with its keys and source. A translation ends with VERIFY_FAILED
where the inbound block does not hold a PIN of its format, else with the block under the outbound key; a verification ends
with OK exactly where its comparison holds. -/
def Obligations.PinCommands : Prop :=
  (∀ (r : CmdRef) (c : Cmd) (t : Nat) (src : List Byte) (s : State), AtWork svcPinTranslate r c t src s →
    ∃ u, exec (.pinTranslate r) s = .next u ∧ CarriedOut r c t
      [⟨eKey c.entry, fun k => roleIs 1 17 k && keySuits (eParam c.entry 48 1) k
          && (eParam c.entry 49 1 != 1 || eParam c.entry 48 1 == 1)⟩,
       ⟨eTarget c.entry, fun k => roleIs 1 16 k && keySuits (eParam c.entry 49 1) k⟩]
      false (fun w => match c.keys with
        | [inn, out] => translated t c.entry
            (pinDecipher (pAlg inn.policy) inn.secret (eParam c.entry 48 1) (panDigits c.entry 50 52) src) out
            (eParam c.entry 49 1) (panDigits c.entry 50 52) w
        | _ => failed 9 w) s u)
  ∧ (∀ (r : CmdRef) (c : Cmd) (t : Nat) (src : List Byte) (s : State), AtWork svcPinVerify r c t src s →
    eParam c.entry 49 1 = 0 →
    ∃ u, exec (.pinVerify r) s = .next u ∧ CarriedOut r c t
      [⟨eKey c.entry, fun k => roleIs 1 17 k && keySuits (eParam c.entry 48 1) k⟩,
       ⟨eTarget c.entry, fun k => roleIs 2 17 k && keySuits (eParam c.entry 48 1) k⟩]
      false (fun w => match c.keys with
        | [inn, ref] =>
          let n := pinSize (eParam c.entry 48 1)
          let pin := pinDecipher (pAlg inn.policy) inn.secret (eParam c.entry 48 1) (panDigits c.entry 50 52) (src.take n)
          verdict (pin.isSome && pin == pinDecipher (pAlg ref.policy) ref.secret (eParam c.entry 48 1)
            (panDigits c.entry 50 52) (src.drop n)) w
        | _ => failed 9 w) s u)
  ∧ (∀ (r : CmdRef) (c : Cmd) (t : Nat) (src : List Byte) (s : State), AtWork svcDukptPinTranslate r c t src s →
    ∃ u, exec (.dukptPinTranslate r) s = .next u ∧ CarriedOut r c t
      [⟨eKey c.entry, dukptRole (eParam c.entry 48 1)⟩,
       ⟨eTarget c.entry, fun k => roleIs 1 16 k && keySuits (eParam c.entry 49 1) k⟩]
      false (fun w => match c.keys with
        | [k, out] => if ksnOk (eParam c.entry 48 1) (src.take 16) then
            translated t c.entry (pinDecipher (if eParam c.entry 48 1 = 0 then 1 else pAlg k.policy)
              (dukptKey (eParam c.entry 48 1) k (src.take 16) .pin) (eParam c.entry 51 1) (panDigits c.entry 50 52)
              (src.drop 16)) out (eParam c.entry 49 1) (panDigits c.entry 50 52) w
          else failed 4 w
        | _ => failed 9 w) s u)
  ∧ (∀ (r : CmdRef) (c : Cmd) (t : Nat) (src : List Byte) (s : State), AtWork svcDukptMacVerify r c t src s →
    ∃ u, exec (.dukptMacVerify r) s = .next u ∧ CarriedOut r c t [⟨eKey c.entry, dukptRole (eParam c.entry 48 1)⟩]
      false (fun w => match c.keys with
        | [k] =>
          let key := dukptKey (eParam c.entry 48 1) k (src.take 16)
            (if eParam c.entry 50 1 = 0 then .macRequest else .macResponse)
          let mac := if eParam c.entry 48 1 = 0 then macAlg3 key (pad9797 8 false (src.drop 32)) else aesCmac key (src.drop 32)
          if ksnOk (eParam c.entry 48 1) (src.take 16) then
            verdict (mac.take (eParam c.entry 49 1) == slice src 16 (eParam c.entry 49 1)) w
          else failed 4 w
        | _ => failed 9 w) s u)

/-- The card and MAC commands (R126 to R130): what each computes under its key, and what it compares. -/
def Obligations.CardAndMacCommands : Prop :=
  (∀ (r : CmdRef) (c : Cmd) (t : Nat) (src : List Byte) (s : State), AtWork svcEmvAcVerify r c t src s →
    eParam c.entry 41 1 = 0 →
    ∃ u, exec (.emvAcVerify r) s = .next u ∧ CarriedOut r c t
      [⟨eKey c.entry, fun k => roleIs 0xA 20 k
          && (if eParam c.entry 40 1 = 0 then pAlg k.policy == 1 else algAes (pAlg k.policy))⟩]
      false (fun w => match c.keys with
        | [k] =>
          let aes := eParam c.entry 40 1 == 1
          let psn : Byte := if eParam c.entry 42 1 = 0xFF then 0 else BitVec.ofNat 8 (eParam c.entry 42 1)
          verdict (emvMac aes (emvSessionKey aes (cardKey aes k.secret (panDigits c.entry 43 44) psn) (slice c.entry 54 2))
            (src.drop 8) == slice c.entry 56 8) w
        | _ => failed 9 w) s u)
  ∧ (∀ (r : CmdRef) (c : Cmd) (t : Nat) (src : List Byte) (s : State), AtWork svcCcvGenerate r c t src s →
    ∃ u, exec (.ccvGenerate r) s = .next u ∧ CarriedOut r c t [⟨eKey c.entry, roleIs 9 16⟩]
      false (fun w => match c.keys with
        | [k] => if eDstLen c.entry = 0 then .ends 0 (eParam c.entry 40 1) (ccvBytes k.secret c.entry) [] w
          else .ends 0 (eParam c.entry 40 1) [] (ccvBytes k.secret c.entry) w
        | _ => failed 9 w) s u)
  ∧ (∀ (r : CmdRef) (c : Cmd) (t : Nat) (src : List Byte) (s : State), AtWork svcCcvVerify r c t src s →
    ∃ u, exec (.ccvVerify r) s = .next u ∧ CarriedOut r c t [⟨eKey c.entry, roleIs 9 17⟩]
      false (fun w => match c.keys with
        | [k] => verdict (ccvBytes k.secret c.entry == slice c.entry 56 3) w
        | _ => failed 9 w) s u)
  ∧ (∀ (r : CmdRef) (c : Cmd) (t : Nat) (src : List Byte) (s : State), AtWork svcMacGenerate r c t src s →
    ∃ u, exec (.macGenerate r) s = .next u ∧ CarriedOut r c t [⟨eKey c.entry, macRole (eParam c.entry 40 1) 16⟩]
      false (fun w => match c.keys with
        | [k] => if eDstLen c.entry = 0 then .ends 0 (eParam c.entry 42 1) (macOf c.entry k src) [] w
          else .ends 0 (eParam c.entry 42 1) [] (macOf c.entry k src) w
        | _ => failed 9 w) s u)
  ∧ (∀ (r : CmdRef) (c : Cmd) (t : Nat) (src : List Byte) (s : State), AtWork svcMacVerify r c t src s →
    ∃ u, exec (.macVerify r) s = .next u ∧ CarriedOut r c t [⟨eKey c.entry, macRole (eParam c.entry 40 1) 17⟩]
      false (fun w => match c.keys with
        | [k] => verdict (macOf c.entry k (src.drop (eParam c.entry 42 1)) == src.take (eParam c.entry 42 1)) w
        | _ => failed 9 w) s u)

/-- The key commands (R131 to R137): a key block that opens under its protection key stores its key, with the check value
in the completion; an export wraps an exportable key; a generated or an imported public key is stored in its target; a
deletion empties the slot where the handle still resolves; KEY_INFO returns policy, generation and check value. For every
command what its work answers is stated, and for each where it completes with OK and with what. -/
def Obligations.KeyCommands : Prop :=
  (∀ (r : CmdRef) (c : Cmd) (t : Nat) (src : List Byte) (s : State), AtWork svcKeyImport r c t src s →
    ∃ u, exec (.keyImport r) s = .next u ∧ CarriedOut r c t [⟨eKey c.entry, roleIs 0xB 19⟩]
      (eParam c.entry 48 1 != 0) (fun w => match c.keys with
        | [k] => importWork r c.entry src k.secret w
        | _ => failed 9 w) s u)
  ∧ (∀ (r : CmdRef) (c : Cmd) (t : Nat) (src : List Byte) (s : State), AtWork svcKeyExport r c t src s →
    ∃ u, exec (.keyExport r) s = .next u ∧ CarriedOut r c t
      [⟨eKey c.entry, roleIs 0xB 18⟩,
       ⟨eTarget c.entry, fun k => pUsage k.policy != 0xE && pUsage k.policy != 0xF && pBit k.policy 21
          && !algPublic (pAlg k.policy)⟩]
      false (fun w => match c.keys with
        | [kb, k] => if eDstLen c.entry < 48 + 2 * payloadLen k.secret.length then failed 4 w
          else if pBit k.policy 22 = true ∧ w.slt.exportG ≠ some r.fn then failed 2 w
          else exportWork r t c.entry kb k w
        | _ => failed 9 w) s u)
  ∧ (∀ (r : CmdRef) (c : Cmd) (t : Nat) (src : List Byte) (s : State), AtWork svcKeyGenerate r c t src s →
    ∃ u, exec (.keyGenerate r) s = .next u ∧ CarriedOut r c t [] (curveOf (pAlg (ePolicy c.entry))).isSome (fun w => generateWork r t c.entry w) s u)
  ∧ (∀ (r : CmdRef) (c : Cmd) (t : Nat) (src : List Byte) (s : State), AtWork svcKeyImportPublic r c t src s →
    ∃ u, exec (.keyImportPublic r) s = .next u ∧ CarriedOut r c t []
      true (fun w => if pointOk (pAlg (ePolicy c.entry)) src
        then storeKey r (eTarget c.entry) (ePolicy c.entry) [] src [] [] w else failed 9 w) s u)
  ∧ (∀ (r : CmdRef) (c : Cmd) (t : Nat) (src : List Byte) (s : State), AtWork svcKeyDelete r c t src s →
    ∃ u, exec (.keyDelete r) s = .next u
      ∧ CarriedOut r c t [⟨eKey c.entry, fun _ => true⟩] false (fun w => deleteWork r c.entry w) s u)
  ∧ (∀ (r : CmdRef) (c : Cmd) (t : Nat) (src : List Byte) (s : State), AtWork svcKeyInfo r c t src s →
    eDstLen c.entry = 0 →
    ∃ u, exec (.keyInfo r) s = .next u ∧ CarriedOut r c t [⟨eKey c.entry, fun _ => true⟩]
      false (fun w => match c.keys with
        | [k] => .ends 0 0 (leBytes 4 k.policy.toNat ++ leBytes 2 (hGen (eKey c.entry)) ++ checkValue k) [] w
        | _ => failed 9 w) s u)
  ∧ (∀ (r : CmdRef) (c : Cmd) (t : Nat) (src : List Byte) (kb : LoadedKey) (b : KeyBlock) (p key : List Byte) (alg : Nat)
      (bits : List Nat) (policy : Word) (wma : Bool) (s w x : State),
    AtWork svcKeyImport r c t src s → wma = (eParam c.entry 48 1 != 0) → Permitted svcKeyImport wma r c t s → c.keys = [kb] →
    ofDecimal (slice src 1 4) = some (eSrcLen c.entry) → parseBlock src = some b → (eParam c.entry 48 1 ≠ 0 ↔ b.alg = 69) →
    openKeyBlock kb.secret b = some p → payloadKey p = some key → blockAlg b.alg (eParam c.entry 48 1) key.length = some alg →
    secretOk alg key = true → modeBits b.mode b.usage alg = some bits →
    policy = policyOf alg b.usage (bits ++ if b.expo = 69 then [21] else []) →
    b.opts.all (kcOk (checkValue ⟨policy, key, pointFor alg key⟩)) = true → policyAllowed policy = true →
    spanAligned (hResident (eTarget c.entry)) (hIndex (eTarget c.entry)) alg key.length = true →
    spanInRange (workState wma r c t s) r.fn (hResident (eTarget c.entry)) (hIndex (eTarget c.entry)) alg key.length = true →
    Storable r (eTarget c.entry) policy key (pointFor alg key) (workState wma r c t s) w → Left wma r c t 0 w x →
    exec (.keyImport r) s = .next (endCmd r 0 0 (leBytes 8 (newHandle (eTarget c.entry) policy key (workState wma r c t s))
      ++ checkValue ⟨policy, key, pointFor alg key⟩) (commitHostWrites r (eDst c.entry) [] x)))
  ∧ (∀ (r : CmdRef) (c : Cmd) (t : Nat) (src : List Byte) (kb k : LoadedKey) (m : Byte) (fill : List Byte) (s w x : State),
    AtWork svcKeyExport r c t src s → Permitted svcKeyExport false r c t s → c.keys = [kb, k] →
    (pBit k.policy 22 = true → s.slt.exportG = some r.fn) → 48 + 2 * payloadLen k.secret.length ≤ eDstLen c.entry →
    drbgDraw t 16 false (workState false r c t s) = (some fill, w) → modeLetter k.policy = some m →
    Left false r c t (makeBlock kb.secret k m fill).length w x →
    exec (.keyExport r) s = .next (endCmd r 0 (48 + 2 * payloadLen k.secret.length) []
      (commitHostWrites r (eDst c.entry) (makeBlock kb.secret k m fill) x)))
  ∧ (∀ (r : CmdRef) (c : Cmd) (t : Nat) (src d secret dest : List Byte) (policy : Word) (wma : Bool) (s v w x : State),
    AtWork svcKeyGenerate r c t src s → policy = ePolicy c.entry → wma = (curveOf (pAlg policy)).isSome →
    Permitted svcKeyGenerate wma r c t s → drbgDraw t (genLen (pAlg policy)) false (workState wma r c t s) = (some d, v) →
    secretFrom (pAlg policy) d = some secret → dest = (if eDstLen c.entry = 0 then [] else pointFor (pAlg policy) secret) →
    Storable r (eTarget c.entry) policy secret (pointFor (pAlg policy) secret) v w → Left wma r c t dest.length w x →
    exec (.keyGenerate r) s = .next (endCmd r 0 dest.length (leBytes 8 (newHandle (eTarget c.entry) policy secret v)
      ++ checkValue ⟨policy, secret, pointFor (pAlg policy) secret⟩) (commitHostWrites r (eDst c.entry) dest x)))
  ∧ (∀ (r : CmdRef) (c : Cmd) (t : Nat) (src : List Byte) (s w x : State),
    AtWork svcKeyImportPublic r c t src s → Permitted svcKeyImportPublic true r c t s →
    pointOk (pAlg (ePolicy c.entry)) src = true → Storable r (eTarget c.entry) (ePolicy c.entry) [] src (workState true r c t s) w →
    Left true r c t 0 w x →
    exec (.keyImportPublic r) s = .next (endCmd r 0 0
      (leBytes 8 (newHandle (eTarget c.entry) (ePolicy c.entry) [] (workState true r c t s)) ++ [])
      (commitHostWrites r (eDst c.entry) [] x)))
  ∧ (∀ (r : CmdRef) (c : Cmd) (t : Nat) (src : List Byte) (d : Bool × State) (s w x : State),
    AtWork svcKeyDelete r c t src s → Permitted svcKeyDelete false r c t s →
    d = readDir (hResident (eKey c.entry)) (hIndex (eKey c.entry)) 1 (workState false r c t s) → d.1 = true →
    handleResolves d.2 r.fn (eKey c.entry) = true → changeGate (hResident (eKey c.entry)) d.2 = some 0 → commitsHere d.2 = true →
    changeHere (hResident (eKey c.entry)) (deleteRec d.2 r.fn (hResident (eKey c.entry)) (hIndex (eKey c.entry))) d.2 = (true, w) →
    Left false r c t 0 w x →
    exec (.keyDelete r) s = .next (endCmd r 0 0 [] (commitHostWrites r (eDst c.entry) [] x)))
  ∧ (∀ (r : CmdRef) (c : Cmd) (t : Nat) (src dest : List Byte) (k : LoadedKey) (s x : State),
    AtWork svcKeyInfo r c t src s → Permitted svcKeyInfo false r c t s → c.keys = [k] →
    dest = (if eDstLen c.entry = 0 then [] else k.pub) → dest.length ≤ eDstLen c.entry →
    Left false r c t dest.length (workState false r c t s) x →
    exec (.keyInfo r) s = .next (endCmd r 0 dest.length
      (leBytes 4 k.policy.toNat ++ leBytes 2 (hGen (eKey c.entry)) ++ checkValue k) (commitHostWrites r (eDst c.entry) dest x)))

/-- The signing, metering and tariff commands (R138 to R146): what the work of each answers, and where each completes with OK,
or a verification with its verdict, and with what. -/
def Obligations.SigningCommands : Prop :=
  (∀ (r : CmdRef) (c : Cmd) (t : Nat) (src : List Byte) (s : State), AtWork svcEcdsaSign r c t src s →
    ∃ u, exec (.ecdsaSign r) s = .next u ∧ CarriedOut r c t
      [⟨eKey c.entry, fun k => roleIs 0xC 16 k && algPrivate (pAlg k.policy)⟩]
      true (fun w => match c.keys with
        | [k] => match curveOf (pAlg k.policy) with
          | some cv => if eParam c.entry 40 1 = 1 ∧ eSrcLen c.entry ≠ cv.len then failed 4 w
            else if eDstLen c.entry < 2 * cv.len then failed 4 w
            else withSignature t cv k (if eParam c.entry 40 1 = 0 then curveHash cv src else src) w fun sig x =>
              .ends 0 (2 * cv.len) [] sig x
          | none => failed 9 w
        | _ => failed 9 w) s u)
  ∧ (∀ (r : CmdRef) (c : Cmd) (t : Nat) (src : List Byte) (s : State), AtWork svcEcdsaVerify r c t src s →
    ∃ u, exec (.ecdsaVerify r) s = .next u ∧ CarriedOut r c t
      [⟨eKey c.entry, fun k => roleIs 0xC 17 k && algPublic (pAlg k.policy)⟩]
      true (fun w => match c.keys with
        | [k] => match curveOf (pAlg k.policy) with
          | some cv => if eSrcLen c.entry < 2 * cv.len ∨ (eParam c.entry 40 1 = 1 ∧ eSrcLen c.entry ≠ 3 * cv.len) then failed 4 w
            else verdict (ecdsaCheck cv k.pub
              (if eParam c.entry 40 1 = 0 then curveHash cv (src.drop (2 * cv.len)) else src.drop (2 * cv.len))
              (src.take (2 * cv.len))) w
          | none => failed 9 w
        | _ => failed 9 w) s u)
  ∧ (∀ (r : CmdRef) (c : Cmd) (t : Nat) (src : List Byte) (s : State), AtWork svcMeterSeal r c t src s →
    ∃ u, exec (.meterSeal r) s = .next u ∧ CarriedOut r c t
      [⟨eKey c.entry, fun k => roleIs 0xD 16 k && algPrivate (pAlg k.policy)⟩]
      true (fun w => match c.keys with
        | [k] => match curveOf (pAlg k.policy) with
          | some cv => if eDstLen c.entry < 104 + 2 * cv.len then failed 4 w
            else match sealValue r (eParam c.entry 40 4) w with
              | (.ended st, _, x) => failed st x
              | (.waits, _, x) => awaitCounter r (eParam c.entry 40 4) x
              | (.value v, time, x) => sealRecord t cv k (eParam c.entry 40 4) v time src x
          | none => failed 9 w
        | _ => failed 9 w) s u)
  ∧ (∀ (r : CmdRef) (c : Cmd) (t : Nat) (src : List Byte) (s : State), AtWork svcMeterVerify r c t src s →
    ∃ u, exec (.meterVerify r) s = .next u ∧ CarriedOut r c t
      [⟨eKey c.entry, fun k => roleIs 0xD 17 k && algPublic (pAlg k.policy)⟩]
      true (fun w => match c.keys with
        | [k] => match curveOf (pAlg k.policy) with
          | some cv => if eSrcLen c.entry < 104 ∨ eSrcLen c.entry ≠ 104 + 2 * cv.len + leAt src 0x14 4 then failed 4 w
            else if meterGood cv k src then .ends 0 (leAt src 0x18 8)
              (slice src 0x20 8 ++ slice src 7 1 ++ [0, 0, 0] ++ slice src 0x10 4 ++ slice src 0x28 16) [] w
            else failed 1 w
          | none => failed 9 w
        | _ => failed 9 w) s u)
  ∧ (∀ (r : CmdRef) (c : Cmd) (t : Nat) (src : List Byte) (s : State), AtWork svcTariffLoad r c t src s →
    ∃ u, exec (.tariffLoad r) s = .next u ∧ CarriedOut r c t [⟨eKey c.entry, roleIs 0xE 17⟩]
      true (fun w => match c.keys with
        | [k] => match curveOf (pAlg k.policy) with
          | some cv => tariffLoadWork r c.entry src cv k w
          | none => failed 9 w
        | _ => failed 9 w) s u)
  ∧ (∀ (r : CmdRef) (c : Cmd) (t : Nat) (src : List Byte) (s : State), AtWork svcTariffPrice r c t src s →
    ∃ u, exec (.tariffPrice r) s = .next u ∧ CarriedOut r c t [] false (fun w => priceWork r c.entry src w) s u)
  ∧ (∀ (r : CmdRef) (c : Cmd) (t : Nat) (src d : List Byte) (k : LoadedKey) (cv : Curve) (sig : Nat × Nat) (s w x : State),
    AtWork svcEcdsaSign r c t src s → Permitted svcEcdsaSign true r c t s → c.keys = [k] → curveOf (pAlg k.policy) = some cv →
    (eParam c.entry 40 1 = 0 ∨ (eParam c.entry 40 1 = 1 ∧ eSrcLen c.entry = cv.len)) → 2 * cv.len ≤ eDstLen c.entry →
    drbgDraw t cv.len false (workState true r c t s) = (some d, w) → 1 ≤ beNat d → beNat d < cv.n →
    ecdsaWith cv (beNat k.secret) (if eParam c.entry 40 1 = 0 then curveHash cv src else src) (beNat d) = some sig →
    Left true r c t (beBytes cv.len sig.1 ++ beBytes cv.len sig.2).length w x →
    exec (.ecdsaSign r) s = .next (endCmd r 0 (2 * cv.len) []
      (commitHostWrites r (eDst c.entry) (beBytes cv.len sig.1 ++ beBytes cv.len sig.2) x)))
  ∧ (∀ (r : CmdRef) (c : Cmd) (t : Nat) (src : List Byte) (k : LoadedKey) (cv : Curve) (good : Bool) (s x : State),
    AtWork svcEcdsaVerify r c t src s → Permitted svcEcdsaVerify true r c t s → c.keys = [k] → curveOf (pAlg k.policy) = some cv →
    ((eParam c.entry 40 1 = 0 ∧ 2 * cv.len ≤ eSrcLen c.entry) ∨ (eParam c.entry 40 1 = 1 ∧ eSrcLen c.entry = 3 * cv.len)) →
    good = ecdsaCheck cv k.pub
      (if eParam c.entry 40 1 = 0 then curveHash cv (src.drop (2 * cv.len)) else src.drop (2 * cv.len)) (src.take (2 * cv.len)) →
    Left true r c t 0 (workState true r c t s) x →
    exec (.ecdsaVerify r) s = .next (if good then endCmd r 0 0 [] (commitHostWrites r (eDst c.entry) [] x) else endCmd r 1 0 [] x))
  ∧ (∀ (r : CmdRef) (c : Cmd) (t : Nat) (src d body : List Byte) (k : LoadedKey) (cv : Curve) (v time : Nat) (sig : Nat × Nat)
      (s u w x : State),
    AtWork svcMeterSeal r c t src s → Permitted svcMeterSeal true r c t s → c.keys = [k] → curveOf (pAlg k.policy) = some cv →
    104 + 2 * cv.len ≤ eDstLen c.entry → sealValue r (eParam c.entry 40 4) (workState true r c t s) = (.value v, time, u) →
    body = meterBody (pAlg k.policy + 1) (timeByte u) (meterKeyId k.pub) (eParam c.entry 40 4) src.length v time (serialBytes u)
      (curveHash cv src) →
    drbgDraw t cv.len false u = (some d, w) → 1 ≤ beNat d → beNat d < cv.n →
    ecdsaWith cv (beNat k.secret) (curveHash cv body) (beNat d) = some sig →
    Left true r c t (body ++ (beBytes cv.len sig.1 ++ beBytes cv.len sig.2)).length w x →
    exec (.meterSeal r) s = .next (endCmd r 0 v []
      (commitHostWrites r (eDst c.entry) (body ++ (beBytes cv.len sig.1 ++ beBytes cv.len sig.2)) x)))
  ∧ (∀ (r : CmdRef) (c : Cmd) (t : Nat) (src : List Byte) (k : LoadedKey) (cv : Curve) (s x : State),
    AtWork svcMeterVerify r c t src s → Permitted svcMeterVerify true r c t s → c.keys = [k] → curveOf (pAlg k.policy) = some cv →
    104 ≤ eSrcLen c.entry → eSrcLen c.entry = 104 + 2 * cv.len + leAt src 0x14 4 →
    Left true r c t 0 (workState true r c t s) x →
    exec (.meterVerify r) s = .next (if meterGood cv k src then
        endCmd r 0 (leAt src 0x18 8) (slice src 0x20 8 ++ slice src 7 1 ++ [0, 0, 0] ++ slice src 0x10 4 ++ slice src 0x28 16)
          (commitHostWrites r (eDst c.entry) [] x)
      else endCmd r 1 0 [] x))
  ∧ (∀ (r : CmdRef) (c : Cmd) (t n : Nat) (src old : List Byte) (k : LoadedKey) (cv : Curve) (s u w x : State),
    AtWork svcTariffLoad r c t src s → Permitted svcTariffLoad true r c t s → c.keys = [k] → curveOf (pAlg k.policy) = some cv →
    n = tariffLen (leAt src 0xE 1) → eSrcLen c.entry = n + 2 * cv.len → tariffOk src = true →
    msuRead (tariffAddr (workState true r c t s) r.fn (eParam c.entry 40 2)) 1024 true true (workState true r c t s) = (some old, u) →
    tariffGen u r.fn (eParam c.entry 40 2) < leAt src 4 4 →
    ecdsaCheck cv k.pub (curveHash cv (src.take n)) (src.drop n) = true →
    msuWrite (tariffAddr u r.fn (eParam c.entry 40 2)) (padTo 1024 src) true true u = (true, w) → Left true r c t 0 w x →
    exec (.tariffLoad r) s = .next (endCmd r 0 0 [] (commitHostWrites r (eDst c.entry) [] x)))
  ∧ (∀ (r : CmdRef) (c : Cmd) (t total : Nat) (src tar dest : List Byte) (charges : List Nat) (s w x : State),
    AtWork svcTariffPrice r c t src s → Permitted svcTariffPrice false r c t s →
    msuRead (tariffAddr (workState false r c t s) r.fn (eParam c.entry 40 2)) 1024 true true (workState false r c t s) = (some tar, w) →
    (chunks 16 src).all (fun y => allZero (slice y 12 4)) = true → tariffTotal tar (chunks 16 src) = some (charges, total) →
    dest = (if bitOf (eParam c.entry 42 1) 0 then charges.flatMap fun y => leBytes 8 y else []) →
    Left false r c t dest.length w x →
    exec (.tariffPrice r) s = .next (endCmd r 0 dest.length
      (leBytes 8 total ++ leBytes 8 (roundBy (leAt tar 0xB 1) total (10 ^ (6 - leAt tar 0xA 1))) ++ slice tar 8 2
        ++ slice tar 0xA 1 ++ [0] ++ leBytes 4 (chunks 16 src).length ++ slice tar 4 4)
      (commitHostWrites r (eDst c.entry) dest x)))

/-- HASH, RANDOM, the counters and NOP (R147 to R150), and the packages' two commands (R153): HASH returns the digest of
SRC; RANDOM returns that many bytes from the truss's DRBG; COUNTER_NEXT returns the value drawn and COUNTER_READ the last
one; NOP completes with OK; a package that passes its checks waits for its install step. -/
def Obligations.PlainCommands : Prop :=
  (∀ (r : CmdRef) (c : Cmd) (t : Nat) (src : List Byte) (s : State), AtWork svcHash r c t src s →
    ∃ u, exec (.hash r) s = .next u ∧ CarriedOut r c t [] false (fun w =>
      if eDstLen c.entry = 0 then .ends 0 (shaLen (eParam c.entry 40 1)) (sha (eParam c.entry 40 1) src) [] w
      else .ends 0 (shaLen (eParam c.entry 40 1)) [] (sha (eParam c.entry 40 1) src) w) s u)
  ∧ (∀ (r : CmdRef) (c : Cmd) (t : Nat) (src : List Byte) (s : State), AtWork svcRandom r c t src s →
    ∃ u, exec (.random r) s = .next u ∧ CarriedOut r c t [] false (fun w =>
      match drawMany t (bitOf (eParam c.entry 44 1) 0) 1024 (eParam c.entry 40 4) w with
      | (some b, x) => if eDstLen c.entry = 0 then .ends 0 (eParam c.entry 40 4) b [] x else .ends 0 (eParam c.entry 40 4) [] b x
      | (none, x) => failed 7 x) s u)
  ∧ (∀ (r : CmdRef) (c : Cmd) (t : Nat) (src : List Byte) (s : State), AtWork svcCounterNext r c t src s →
    ∃ u, exec (.counterNext r) s = .next u ∧ CarriedOut r c t [] false (fun w =>
      match counterTurn r (eParam c.entry 40 4) (fun k x => ((ctrDraw k x).1, 0, (ctrDraw k x).2)) w with
      | (.ended st, _, x) => failed st x
      | (.waits, _, x) => awaitCounter r (eParam c.entry 40 4) x
      | (.value v, _, x) => .ends 0 v [] [] x) s u)
  ∧ (∀ (r : CmdRef) (c : Cmd) (t : Nat) (src : List Byte) (s : State), AtWork svcCounterRead r c t src s →
    ∃ u, exec (.counterRead r) s = .next u ∧ CarriedOut r c t [] false (fun w =>
      match ctrReadValue (eParam c.entry 40 4) w with
      | (some v, x) => .ends 0 v [] [] x
      | (none, x) => failed 12 x) s u)
  ∧ (∀ (r : CmdRef) (c : Cmd) (t : Nat) (src : List Byte) (s : State), AtWork svcNop r c t src s →
    ∃ u, exec (.nop r) s = .next u ∧ CarriedOut r c t [] false (fun w => .ends 0 0 [] [] w) s u)
  ∧ (∀ (r : CmdRef) (c : Cmd) (t : Nat) (src : List Byte) (s : State), AtWork svcServiceLoad r c t src s →
    ∃ u, exec (.serviceLoad r) s = .next u ∧ CarriedOut r c t [⟨eKey c.entry, roleIs 0xF 17⟩]
      true (fun w => match c.keys with
        | [k] => match parsePackage src with
          | none => failed 4 w
          | some p => if p.generation ≤ ((installed w r.fn).map (·.generation)).getD 0 then failed 2 w
            else if pkgSigOk k.pub src = false then failed 1 w
            else if (gableCfg w r.fn).flashSectors * 4096 < src.length then failed 5 w
            else awaitInstall r k.pub w
        | _ => failed 9 w) s u)
  ∧ (∀ (r : CmdRef) (c : Cmd) (t : Nat) (src : List Byte) (s : State), AtWork svcServiceUnload r c t src s →
    ∃ u, exec (.serviceUnload r) s = .next u ∧ CarriedOut r c t [] false (fun w => awaitInstall r [] w) s u)

/-- Packages and tenant commands (R153 to R156): with no tenant command of the gable in flight an install step replaces
or removes the package and completes its command; a tenant command enters its program at User level on a worker core, at the
core address 0x12_0000 + ENTRY of the truss SRAM, with a copy of its entry at hand; a program that completes gives its status,
result and inline bytes (a status from 0xE to 0x7FFF becomes ABORTED); one that exceeds its budget, takes an exception or is
refused by a gate ends with ABORTED; a sub-command is taken up, and one of an opcode that is not native is answered with
UNSUPPORTED. -/
def Obligations.TenantCommands : Prop :=
  (∀ (g : Nat) (r : CmdRef) (c : Cmd) (s : State), installWaits s g = some r → findCmd s r = some c →
    tenantRunning s g = false → trussClocks s = true → c.finished = false → eOpcode c.entry = 0x01F1 → OnRing r s →
    ∃ t, exec (.serviceInstall g) s = .next t ∧ installed t g = none ∧ SMap.get none t.svc.waiting g = none
      ∧ Completed r c 0 0 [] s t)
  ∧ (∀ (g : Nat) (r : CmdRef) (c : Cmd) (b : List Byte) (p : Package) (s : State), installWaits s g = some r →
    findCmd s r = some c → tenantRunning s g = false → trussClocks s = true → c.finished = false →
    eOpcode c.entry = 0x01F0 → c.src = .got b → parsePackage b = some p → OnRing r s →
    ∃ t, exec (.serviceInstall g) s = .next t ∧ installed t g = some p ∧ SMap.get none t.svc.waiting g = none
      ∧ Completed r c 0 0 [] s t)
  ∧ (∀ (r : CmdRef) (c : Cmd) (core : CoreId) (p : Package) (o : Nat × Nat × Nat × Nat) (s : State), runnable s r = some c →
    0x8000 ≤ eOpcode c.entry → c.worker = none → c.calling = false → (liveTrusses s r.fn).isEmpty = false →
    installWaits s r.fn = none → c.bad = false → entryReserved c.entry = false → isWorker s r.fn (coreNum core) = true →
    core ≠ .warden → installed s r.fn = some p → tenantOpcode s r.fn (eOpcode c.entry) = some o →
    bitOf o.2.1 0 = false ∨ gableStatus (takeEntryPacket r s) r = 0 →
    imageGranted (takeEntryPacket r s) (coreNum core) p.image.length = true → findCmd s (subRef r (coreNum core)) = none →
    (∀ f ∈ (s.core (coreNum core)).frames.head?, f.witness = 2) →
    ∃ t, exec (.tenantCommand r core .started) s = .next t
      ∧ (t.core (coreNum core)).pc = BitVec.ofNat 32 (0x120000 + o.2.2.1) ∧ (t.core (coreNum core)).pl = 2
      ∧ (t.core (coreNum core)).frames = (s.core (coreNum core)).frames.tail
      ∧ (∃ a, (t.core (coreNum core)).reg 0 = BitVec.ofNat 32 a
        ∧ Memory.read 0 (t.core (coreNum core)).loc a 64 = padTo 64 c.entry)
      ∧ (findCmd t r).map (·.worker) = some (some (coreNum core)))
  ∧ (∀ (r : CmdRef) (c : Cmd) (core : CoreId) (st : BitVec 16) (res : Dword) (inl : List Byte) (s : State),
    ProgramRuns r c (coreNum core) s → OnRing r s →
    ∃ t, exec (.tenantCommand r core (.completes st res inl)) s = .next t
      ∧ Completed r c (if 0xE ≤ st.toNat ∧ st.toNat ≤ 0x7FFF then 6 else st.toNat) res.toNat (inl.take 48) s t)
  ∧ (∀ (r : CmdRef) (c : Cmd) (core : CoreId) (s : State), ProgramRuns r c (coreNum core) s → OnRing r s →
    VectorGood (coreNum core) exGate s →
    ∃ t, exec (.tenantCommand r core .gateRefused) s = .next t ∧ Completed r c 6 0 [] s t)
  ∧ (∀ (r : CmdRef) (c : Cmd) (core : CoreId) (s : State), ProgramRuns r c (coreNum core) s → OnRing r s →
    (∀ e, e < 9 → VectorGood (coreNum core) e (drawBelow 9 1 s).2) →
    ∃ t, exec (.tenantCommand r core .exception) s = .next t ∧ Completed r c 6 0 [] s t)
  ∧ (∀ (r : CmdRef) (c : Cmd) (n : Nat) (s : State), ProgramRuns r c n s → OnRing r s → VectorGood n exTick s →
    ∃ t, exec (.tenantBudgetExceeded r) s = .next t ∧ Completed r c 6 0 [] s t)
  ∧ (∀ (r : CmdRef) (c : Cmd) (core : CoreId) (e : List Byte) (s : State), ProgramRuns r c (coreNum core) s →
    nativeOpcodes.contains (eOpcode e) = true →
    ∃ t d, exec (.tenantCommand r core (.subCommand e)) s = .next t ∧ findCmd t (subRef r (coreNum core)) = some d
      ∧ d.entry = padTo 64 e ∧ d.committed = true ∧ (t.core (coreNum core)).pl = 1
      ∧ (findCmd t r).map (·.calling) = some true ∧ t.rfb.sink0 = s.rfb.sink0)
  ∧ (∀ (r : CmdRef) (c : Cmd) (core : CoreId) (e : List Byte) (s : State), ProgramRuns r c (coreNum core) s →
    nativeOpcodes.contains (eOpcode e) = false →
    ∃ t, exec (.tenantCommand r core (.subCommand e)) s = .next t
      ∧ (findCmd t r).map (·.answer) = some (completionBytes (padTo 64 e) 10 0 []) ∧ t.rfb.sink0 = s.rfb.sink0)

/-- The physical function's commands (R114 to R117): NOP; GABLE_SUSPEND sets the gable's HOST reason at once and waits for
the class K commands granted before it was set; GABLE_SUSPEND_DRAINED completes it when they have completed; GABLE_RESUME
clears the reason, for the commands granted from then on; GABLE_INFO returns the gable's state and changes none. -/
def Obligations.PhysicalFunctionCommands : Prop :=
  (∀ (r : CmdRef) (c : Cmd) (s : State), PfReady r c s → eOpcode c.entry = 0 → pfMalformed c.entry = false →
    exec (.pfNop r) s = .next (endCmd r 0 0 [] (takeEntryPacket r s)))
  ∧ (∀ (r : CmdRef) (c : Cmd) (g : Nat) (s : State), PfReady r c s → eOpcode c.entry = 0x0F00 → pfMalformed c.entry = false →
    g = eGable c.entry → 1 ≤ g → g ≤ 63 → formed s g = true → (∀ x, ¬EarlyK g x s) →
    ∃ v, exec (.gableSuspend r) s = .next (endCmd r 0 0 (gableInfo v g) v) ∧ SameOutside [.rfb, .svc] s v
      ∧ bitOf (reasonsOf v g) 0 = true ∧ (∀ x, x ≠ g → SMap.get 0 v.svc.reasons x = SMap.get 0 s.svc.reasons x)
      ∧ v.svc.drains = s.svc.drains)
  ∧ (∀ (r : CmdRef) (c : Cmd) (g : Nat) (s : State), PfReady r c s → eOpcode c.entry = 0x0F00 → pfMalformed c.entry = false →
    g = eGable c.entry → 1 ≤ g → g ≤ 63 → formed s g = true → (∃ x, EarlyK g x s) →
    ∃ v before, exec (.gableSuspend r) s = .next v ∧ SameOutside [.rfb, .svc] s v ∧ bitOf (reasonsOf v g) 0 = true
      ∧ v.svc.drains = s.svc.drains ++ [(r, g, before)] ∧ (∀ x, x ∈ before ↔ EarlyK g x s) ∧ v.rfb.sink0 = s.rfb.sink0)
  ∧ (∀ (r : CmdRef) (g : Nat) (before : List CmdRef) (s : State), s.svc.drains.find? (fun d => d.1 == r) = some (r, g, before) →
    wardenUp s = true → (∀ x ∈ before, findCmd s x = none) →
    exec (.gableSuspendDrained r) s = .next (endCmd r 0 0 (gableInfo s g)
      { s with svc := { s.svc with drains := s.svc.drains.filter fun d => d.1 != r } }))
  ∧ (∀ (r : CmdRef) (c : Cmd) (g : Nat) (s : State), PfReady r c s → eOpcode c.entry = 0x0F01 → pfMalformed c.entry = false →
    g = eGable c.entry → 1 ≤ g → g ≤ 63 → formed s g = true →
    ∃ v, exec (.gableResume r) s = .next (endCmd r 0 0 (gableInfo v g) v) ∧ SameOutside [.rfb, .svc] s v
      ∧ bitOf (reasonsOf v g) 0 = false ∧ (∀ x, x ≠ g → SMap.get 0 v.svc.reasons x = SMap.get 0 s.svc.reasons x)
      ∧ (∀ d ∈ s.hqi.cmds, bitOf (SMap.get 0 s.svc.reasons g) 0 = true → d.ref.fn = g → d.ref.ring < 64 →
        classKCmd s g d.entry = true → gableStatus v d.ref ≠ 0))
  ∧ (∀ (r : CmdRef) (c : Cmd) (g : Nat) (s : State), PfReady r c s → eOpcode c.entry = 0x0F02 → pfMalformed c.entry = false →
    g = eGable c.entry → 1 ≤ g → g ≤ 63 →
    exec (.gableInfo r) s = .next (endCmd r 0 0 (gableInfo (takeEntryPacket r s) g) (takeEntryPacket r s)))

/-! ### Public-key engines (05_public_key_engines.md) -/

/-- Issuing a WMA instruction (R159, R169, R279): above User level it joins its context's queue with its fields and
level, and the core goes on behind its two words; a full queue stalls the core with nothing issued; at User level it takes
the privileged-instruction fault. -/
def Obligations.WmaIssue : Prop :=
  (∀ p ∈ wmaRows, ∀ (c : CoreId) (o : WmaOp) (s : State), c ≠ .warden → Issues c true s → o.rd = 0 →
    ((fetched c true s).core (coreNum c)).pl < 2 →
    bitOf (wmaCtx (wmaOf (fetched c true s) (trussOf (coreNum c))) (coreInTruss (coreNum c))).sticky.toNat 14 = false →
    ((wmaCtx (wmaOf (fetched c true s) (trussOf (coreNum c))) (coreInTruss (coreNum c))).queue.length < 8 →
      ∃ t, exec (p.1 c o) s = .next t
        ∧ (wmaCtx (wmaOf t (trussOf (coreNum c))) (coreInTruss (coreNum c))).queue
          = (wmaCtx (wmaOf (fetched c true s) (trussOf (coreNum c))) (coreInTruss (coreNum c))).queue
            ++ [⟨p.2, o, ((fetched c true s).core (coreNum c)).pl⟩]
        ∧ (wmaOf t (trussOf (coreNum c))).mem = (wmaOf (fetched c true s) (trussOf (coreNum c))).mem
        ∧ (t.core (coreNum c)).pc = ((fetched c true s).core (coreNum c)).pc + 8
        ∧ (t.core (coreNum c)).g = ((fetched c true s).core (coreNum c)).g)
    ∧ (8 ≤ (wmaCtx (wmaOf (fetched c true s) (trussOf (coreNum c))) (coreInTruss (coreNum c))).queue.length →
      exec (p.1 c o) s = .next ((fetched c true s).updCore (coreNum c) fun k => { k with phase := .stalledCopi p.2 o })))
  ∧ (∀ p ∈ wmaRows, ∀ (c : CoreId) (o : WmaOp) (s : State), c ≠ .warden → Issues c true s → o.rd = 0 →
    ((fetched c true s).core (coreNum c)).pl = 2 →
    exec (p.1 c o) s = .next (faultHere (coreNum c) exPrivileged (fetched c true s)))
  ∧ (∀ (c : CoreId) (o : WmaOp) (s : State), c ≠ .warden → Issues c true s → ((fetched c true s).core (coreNum c)).pl < 2 →
    wmaLegal 0x11 o = true → o.irq = 0 →
    ∃ t, exec (.mstat c o) s = .next t
      ∧ (t.core (coreNum c)) = { ((fetched c true s).core (coreNum c)).setReg o.rd.toNat
            (wmaStatus (fetched c true s) (trussOf (coreNum c)) (coreInTruss (coreNum c))) with
          pc := ((fetched c true s).core (coreNum c)).pc + 8
          phase := (t.core (coreNum c)).phase }
      ∧ (wmaCtx (wmaOf t (trussOf (coreNum c))) (coreInTruss (coreNum c))).sticky
        = (if bitOf o.arg.toNat 0 then
            (wmaCtx (wmaOf (fetched c true s) (trussOf (coreNum c))) (coreInTruss (coreNum c))).sticky &&& ~~~(0x7F00 : Word)
          else (wmaCtx (wmaOf (fetched c true s) (trussOf (coreNum c))) (coreInTruss (coreNum c))).sticky))
  ∧ (∀ (c : CoreId) (o : WmaOp) (s : State), c ≠ .warden → Issues c true s → ((fetched c true s).core (coreNum c)).pl < 2 →
    o.rd = 0 → wmaLegal 0x12 o = true →
    bitOf (wmaCtx (wmaOf (fetched c true s) (trussOf (coreNum c))) (coreInTruss (coreNum c))).sticky.toNat 14 = false →
    ∃ t, exec (.mabort c o) s = .next t
      ∧ (wmaCtx (wmaOf t (trussOf (coreNum c))) (coreInTruss (coreNum c))).queue = []
      ∧ (wmaCtx (wmaOf t (trussOf (coreNum c))) (coreInTruss (coreNum c))).m = 0
      ∧ bitOf (wmaCtx (wmaOf t (trussOf (coreNum c))) (coreInTruss (coreNum c))).sticky.toNat 14 = true
      ∧ (∀ i, (privRegion (fetched c true s) (trussOf (coreNum c)) (coreInTruss (coreNum c))).1 ≤ i →
          i < (privRegion (fetched c true s) (trussOf (coreNum c)) (coreInTruss (coreNum c))).1
            + (privRegion (fetched c true s) (trussOf (coreNum c)) (coreInTruss (coreNum c))).2 →
          SMap.get {} (wmaOf t (trussOf (coreNum c))).mem i = {})
      ∧ (t.core (coreNum c)).pc = ((fetched c true s).core (coreNum c)).pc + 8)

/-- The modular WMA instructions (R160, R162, R164, R171): with a modulus and sources below 2m (or randomised), what MMUL,
MMAC, MADD and MSUB write represents A·B·T⁻¹, A·B·T⁻¹ + D, A + B and A − B modulo m in every mode, carries KEY where a
source did, and no other operand word changes; a plain source of 2m or more sets RANGE. -/
def Obligations.WmaModular : Prop :=
  (∀ (t : Fin 32) (c : Fin 4) (e : WmaEntry) (len m d a b x y z : Nat) (s : State), AtEnd t.val c.val e len m s →
    2 ≤ e.op → e.op ≤ 5 → 0 < m → m < 2 ^ (64 * (wmaCtx (wmaOf s t.val) c.val).w) →
    operandAt s t.val c.val e.o.d len = some d → operandAt s t.val c.val e.o.a len = some a →
    operandAt s t.val c.val e.o.b len = some b → residueOf m (wordsAt s t.val a len) = some x →
    residueOf m (wordsAt s t.val b len) = some y → (e.op = 3 → residueOf m (wordsAt s t.val d len) = some z) →
    (randomised s t.val = true → (drawLambda t.val s).1.isSome = true) →
    ∃ u, exec (.wmaInstructionEnd t c false) s = .next u
      ∧ residueOf m (wordsAt u t.val d len) = some ((if e.op = 2 then x * y * invT m len
          else if e.op = 3 then x * y * invT m len + z else if e.op = 4 then x + y else x + m - y) % m)
      ∧ (∀ w ∈ wordsAt u t.val d len, w.key = (anyKey (wordsAt s t.val a len) || anyKey (wordsAt s t.val b len)
          || (decide (e.op = 3) && anyKey (wordsAt s t.val d len))))
      ∧ WordsKept t.val [(d, len)] s u
      ∧ (wmaCtx (wmaOf u t.val) c.val).queue = (wmaCtx (wmaOf s t.val) c.val).queue.tail
      ∧ (e.o.irq = 1 → (u.core (4 * t.val + c.val)).intWma = true)
      ∧ SameOutside [.pke, .cores, .sym, .sys, .free, .gte] s u)
  ∧ (∀ (t : Fin 32) (c : Fin 4) (e : WmaEntry) (len m d a b : Nat) (s : State), AtEnd t.val c.val e len m s →
    2 ≤ e.op → e.op ≤ 5 → 0 < m → operandAt s t.val c.val e.o.d len = some d →
    operandAt s t.val c.val e.o.a len = some a → operandAt s t.val c.val e.o.b len = some b →
    residueOf m (wordsAt s t.val a len) = none ∨ residueOf m (wordsAt s t.val b len) = none →
    ∃ u, exec (.wmaInstructionEnd t c false) s = .next u
      ∧ bitOf (wmaCtx (wmaOf u t.val) c.val).sticky.toNat 8 = true ∧ WordsKept t.val [(d, len)] s u)

/-- The other WMA instructions (R164, R165, R168, R171): IADD adds plain integers without the carry, MCLR clears, MMOV
copies, MRELEASE clears KEY, MRAND writes the drawn value where it lies in [1, m − 1] and else draws again, MCMP compares values that hold no KEY word, MCSWAP
exchanges or keeps both operands. -/
def Obligations.WmaPlain : Prop :=
  (∀ (t : Fin 32) (c : Fin 4) (e : WmaEntry) (len m d a b : Nat) (s : State), AtEnd t.val c.val e len m s → e.op = 6 →
    operandAt s t.val c.val e.o.d len = some d → operandAt s t.val c.val e.o.a len = some a →
    operandAt s t.val c.val e.o.b len = some b →
    ∃ u, exec (.wmaInstructionEnd t c false) s = .next u
      ∧ wordsNat (wordsAt u t.val d len)
        = (wordsNat (wordsAt s t.val a len) + wordsNat (wordsAt s t.val b len)) % 2 ^ (64 * len)
      ∧ anyRep (wordsAt u t.val d len) = false ∧ WordsKept t.val [(d, len)] s u)
  ∧ (∀ (t : Fin 32) (c : Fin 4) (e : WmaEntry) (len m d : Nat) (s : State), AtEnd t.val c.val e len m s →
    operandAt s t.val c.val e.o.d len = some d → e.op = 0x0A ∨ e.op = 0x10 →
    ∃ u, exec (.wmaInstructionEnd t c false) s = .next u
      ∧ wordsAt u t.val d len = (if e.op = 0x0A then List.replicate len {}
        else (wordsAt s t.val d len).map fun w => { w with key := false })
      ∧ WordsKept t.val [(d, len)] s u)
  ∧ (∀ (t : Fin 32) (c : Fin 4) (e : WmaEntry) (len m d a : Nat) (s : State), AtEnd t.val c.val e len m s → e.op = 9 →
    operandAt s t.val c.val e.o.d len = some d → operandAt s t.val c.val e.o.a len = some a →
    ∃ u, exec (.wmaInstructionEnd t c false) s = .next u
      ∧ wordsAt u t.val d len = (wordsAt s t.val a len).map (fun w => { w with key := anyKey (wordsAt s t.val a len) })
      ∧ WordsKept t.val [(d, len)] s u)
  ∧ (∀ (t : Fin 32) (c : Fin 4) (e : WmaEntry) (len m d v : Nat) (s w : State), AtEnd t.val c.val e len m s → e.op = 0x0E →
    operandAt s t.val c.val e.o.d len = some d → 2 < m → m < 2 ^ (64 * len) → randBits t.val m s = (some v, w) →
    (1 ≤ v → v < m →
      ∃ u, exec (.wmaInstructionEnd t c false) s = .next u ∧ wordsNat (wordsAt u t.val d len) = v
        ∧ (∀ y ∈ wordsAt u t.val d len, y.key = bitOf e.o.arg.toNat 0 ∧ y.rep = false) ∧ WordsKept t.val [(d, len)] s u
        ∧ (wmaCtx (wmaOf u t.val) c.val).queue = (wmaCtx (wmaOf s t.val) c.val).queue.tail)
    ∧ (v = 0 ∨ m ≤ v → exec (.wmaInstructionEnd t c false) s = .next w))
  ∧ (∀ (t : Fin 32) (c : Fin 4) (e : WmaEntry) (len m a b x y : Nat) (s : State), AtEnd t.val c.val e len m s →
    e.op = 0x0B → operandAt s t.val c.val e.o.a len = some a → operandAt s t.val c.val e.o.b len = some b → 0 < m →
    residueOf m (wordsAt s t.val a len) = some x → residueOf m (wordsAt s t.val b len) = some y →
    ∃ u, exec (.wmaInstructionEnd t c false) s = .next u ∧ WordsKept t.val [] s u
      ∧ (if anyKey (wordsAt s t.val a len) || anyKey (wordsAt s t.val b len) then
          bitOf (wmaCtx (wmaOf u t.val) c.val).sticky.toNat 12 = true
          ∧ bitOf (wmaCtx (wmaOf u t.val) c.val).sticky.toNat 7 = bitOf (wmaCtx (wmaOf s t.val) c.val).sticky.toNat 7
        else bitOf (wmaCtx (wmaOf u t.val) c.val).sticky.toNat 7 = decide (x = y)))
  ∧ (∀ (t : Fin 32) (c : Fin 4) (e : WmaEntry) (len m d a b : Nat) (s : State), AtEnd t.val c.val e len m s → e.op = 7 →
    operandAt s t.val c.val e.o.d len = some d → operandAt s t.val c.val e.o.a len = some a →
    operandAt s t.val c.val e.o.b len = some b → (a + len ≤ b ∨ b + len ≤ a) →
    ∃ u sw, exec (.wmaInstructionEnd t c false) s = .next u
      ∧ sw = (if bitOf e.o.arg.toNat 30 then (wmaCtx (wmaOf s t.val) c.val).last
        else (!bitOf e.o.arg.toNat 31 && decide (fld e.o.arg 0 10 < 64 * len)
          && (wordsNat (wordsAt s t.val d len)).testBit (fld e.o.arg 0 10)) != (wmaCtx (wmaOf s t.val) c.val).sw)
      ∧ (wordsAt u t.val a len).map (·.val) = (wordsAt s t.val (if sw then b else a) len).map (·.val)
      ∧ (wordsAt u t.val b len).map (·.val) = (wordsAt s t.val (if sw then a else b) len).map (·.val)
      ∧ (wmaCtx (wmaOf u t.val) c.val).last = sw ∧ WordsKept t.val [(a, len), (b, len)] s u)

/-- The Galliard command registers (R182, R184 to R186): with no command running LOAD begins with the microcode store
invalid, RUN begins a service of the loader ROM or of the loaded microprogram, and ABORT clears operand memory and ends
with OK; while a command runs LOAD and RUN end at once with STATE_REFUSED and the running command goes on; RUN of a
service without microprogram ends with STATE_REFUSED. -/
def Obligations.GalliardCommands : Prop :=
  (∀ (who : Who) (n : Fin 4) (s : State), PairTakes who (galCtl n.val) s → (galOf s n.val).run = .none →
    ∃ t, exec (.galliardLoad who n) s = .next t ∧ (galOf t n.val).run = .load ∧ (galOf t n.val).loaded = false
      ∧ (galOf t n.val).code = [] ∧ (galOf t n.val).mem = (galOf s n.val).mem ∧ SameOutside [.pke, .pairs] s t)
  ∧ (∀ (who : Who) (n : Fin 4) (s : State), PairTakes who (galCtl n.val) s → (galOf s n.val).run ≠ .none →
    ∃ t, exec (.galliardLoad who n) s = .next t ∧ galOf t n.val = { galOf s n.val with status := 2 }
      ∧ t.pke.cause.getLsbD n.val = true ∧ t.pke.cause.getLsbD (4 + n.val) = true ∧ SameOutside [.pke, .pairs] s t)
  ∧ (∀ (who : Who) (n : Fin 4) (s : State), PairTakes who (galCtl n.val) s → (galOf s n.val).run = .none →
    ∃ t, exec (.galliardAbort who n) s = .next t
      ∧ galOf t n.val = { galOf s n.val with
          mem := []
          ctl := 3
          status := 0 }
      ∧ t.pke.cause.getLsbD n.val = true ∧ SameOutside [.pke, .pairs] s t)
  ∧ (∀ (who : Who) (n : Fin 4) (svc : Nat) (s : State), PairTakes who (galCtl n.val) s → (galOf s n.val).run = .run svc →
    ∃ t, exec (.galliardAbort who n) s = .next t ∧ (galOf t n.val).mem = [] ∧ (galOf t n.val).status = 6
      ∧ (galOf t n.val).run = .none ∧ (galOf t n.val).code = (galOf s n.val).code
      ∧ (galOf t n.val).loaded = (galOf s n.val).loaded ∧ SameOutside [.pke, .pairs, .free] s t)
  ∧ (∀ p ∈ galServices, ∀ (who : Who) (n : Fin 4) (s : State), RegTakes who (galCtl n.val + 0x1C) kWrite s →
    PairTakes who (galCtl n.val) (setGal n.val { galOf s n.val with service := p.2 } s) → (galOf s n.val).run = .none →
    (p.2 = 0 ∨ p.2 = 0xFF00
        ∨ ((galOf s n.val).loaded = true ∧ ((galOf s n.val).entries.any fun e => e.1 == p.2) = true) →
      ∃ t, exec (p.1 who n) s = .next t
        ∧ galOf t n.val = { galOf s n.val with
            service := p.2
            ctl := 2
            run := .run p.2 }
        ∧ SameOutside [.pke, .pairs] s t)
    ∧ (p.2 ≠ 0 → p.2 ≠ 0xFF00 → (galOf s n.val).loaded = false →
      ∃ t, exec (p.1 who n) s = .next t ∧ (galOf t n.val).status = 2 ∧ (galOf t n.val).run = .none
        ∧ (galOf t n.val).mem = (galOf s n.val).mem ∧ SameOutside [.pke, .pairs] s t))

/-- A Galliard command that runs ends (R182, R184 to R187): LOAD of a length outside R184 ends with RANGE and leaves the
store invalid; the RSA public service leaves x^65537 mod N in operand memory, RANGE where x ≥ N; ECDSA verification ends
with INVALID_KEY for a point off the curve, else with its verdict, and leaves operand memory as it is. -/
def Obligations.GalliardEnds : Prop :=
  (∀ (n : Fin 4) (s : State), (galOf s n.val).run = .load → s.msu.inited = true →
    (galOf s n.val).len.toNat % 8 ≠ 0 ∨ (galOf s n.val).len.toNat < 256 ∨ 17128 < (galOf s n.val).len.toNat →
    ∃ t, exec (.galliardLoadComplete n) s = .next t
      ∧ galOf t n.val = { galOf s n.val with
          run := .none
          status := 4 }
      ∧ t.pke.cause.getLsbD n.val = true ∧ t.pke.cause.getLsbD (4 + n.val) = true ∧ SameOutside [.pke] s t)
  ∧ (∀ (n : Fin 4) (b : List Byte) (s u : State), (galOf s n.val).run = .load → s.msu.inited = true → (galOf s n.val).loaded = false →
    (galOf s n.val).len.toNat % 8 = 0 → 256 ≤ (galOf s n.val).len.toNat → (galOf s n.val).len.toNat ≤ 17128 →
    (galOf s n.val).addr.toNat % 8 = 0 → (galOf s n.val).addr.toNat + (galOf s n.val).len.toNat ≤ 0x60000000 →
    gate galTag tgtSealed0 (galOf s n.val).addr.toNat (galOf s n.val).len.toNat kRead s = (true, s) →
    msuRead (0x80000000 + (galOf s n.val).addr.toNat) (galOf s n.val).len.toNat true true s = (some b, u) → u.pke = s.pke →
    ∃ t, exec (.galliardLoadComplete n) s = .next t
      ∧ (galOf t n.val).status = galChecks u b (galOf s n.val).len.toNat ∧ (galOf t n.val).run = .none
      ∧ ((galOf t n.val).loaded = true ↔ galChecks u b (galOf s n.val).len.toNat = 0)
      ∧ (galChecks u b (galOf s n.val).len.toNat = 0 → (galOf t n.val).mpId = leAt b 6 2 ∧ (galOf t n.val).mpVer = leAt b 8 2
        ∧ (galOf t n.val).code = slice b (32 + 8 * leAt b 0x0A 2) (leAt b 0x0C 4)))
  ∧ (∀ (n : Fin 4) (s : State), (galOf s n.val).run = .run 2 → (galOf s n.val).mpId = 1 →
    galBits (galOf s n.val).arg.toNat = true →
    (galNat (galOf s n.val) 0 ((galOf s n.val).arg.toNat / 8) < galNat (galOf s n.val) 0x400 ((galOf s n.val).arg.toNat / 8) →
      ∃ t, exec (.galliardRunDone n) s = .next t ∧ (galOf t n.val).status = 0 ∧ (galOf t n.val).run = .none
        ∧ galNat (galOf t n.val) 0 ((galOf s n.val).arg.toNat / 8)
          = galNat (galOf s n.val) 0 ((galOf s n.val).arg.toNat / 8) ^ 65537
            % galNat (galOf s n.val) 0x400 ((galOf s n.val).arg.toNat / 8)
        ∧ t.pke.cause.getLsbD n.val = true ∧ SameOutside [.pke] s t)
    ∧ (galNat (galOf s n.val) 0x400 ((galOf s n.val).arg.toNat / 8) ≤ galNat (galOf s n.val) 0 ((galOf s n.val).arg.toNat / 8) →
      ∃ t, exec (.galliardRunDone n) s = .next t ∧ (galOf t n.val).status = 4 ∧ (galOf t n.val).mem = (galOf s n.val).mem
        ∧ t.pke.cause.getLsbD (4 + n.val) = true ∧ SameOutside [.pke, .free] s t))
  ∧ (∀ (n : Fin 4) (svc : Nat) (s : State), (galOf s n.val).run = .run svc →
    svc = 0 ∨ (svc = 3 ∧ (galOf s n.val).mpId = 1) →
    ∃ t, exec (.galliardRunDone n) s = .next t
      ∧ (galOf t n.val).status = (if onCurve bp384 (galNat (galOf s n.val) 0xC0 48) (galNat (galOf s n.val) 0x100 48) = false
          then 9
        else if ecdsaVerifyNat bp384 (galNat (galOf s n.val) 0xC0 48) (galNat (galOf s n.val) 0x100 48)
            (galDigest (galOf s n.val)) (galNat (galOf s n.val) 0x40 48) (galNat (galOf s n.val) 0x80 48) then 0 else 1)
      ∧ (galOf t n.val).mem = (galOf s n.val).mem ∧ (galOf t n.val).cycles = 440000 ∧ SameOutside [.pke] s t)

/-! ### Symmetric ports, hashing and the counter vault (06_symmetric_hash_counters.md) -/

/-- A write of GO (R188 to R193, R196): it is a store at the core's level, which a gate may refuse and refuses below Supervisor
level; with the port free, an OP with a reserved bit set ends at once with UNSUPPORTED and zero DATA; a core whose chains a
change of the pipelines closed gets ABORTED once; else the request begins with its inputs as they stand, and a source in host
memory is read where its function and a READ window admit it. With the port busy the write is discarded. -/
def Obligations.PortRequests : Prop :=
  ∀ p ∈ portRows, ∀ (c : CoreId) (s : State), (portRequest (portOf s (coreNum c))).op = p.2 →
    (canIssue s (coreNum c) = false → exec (p.1 c) s = .next s)
    ∧ (canIssue s (coreNum c) = true → ∀ w,
      coreGate (coreNum c) (s.core (coreNum c)).pl goAddress 4 kWrite (wake (coreNum c) s) = (none, w) →
      exec (p.1 c) s = .next (faultHere (coreNum c) exGate w))
    ∧ ((s.core (coreNum c)).pl = 2 →
      (coreGate (coreNum c) (s.core (coreNum c)).pl goAddress 4 kWrite (wake (coreNum c) s)).1 = none)
    ∧ (GoAdmitted c s → (portOf s (coreNum c)).req.isSome = true → exec (p.1 c) s = .next (wake (coreNum c) s))
    ∧ (GoAdmitted c s → (portOf s (coreNum c)).req = none → (portRequest (portOf s (coreNum c))).resv = true
        ∨ flagsOk p.2 (portRequest (portOf s (coreNum c))).flags = false →
      ∃ t, exec (p.1 c) s = .next t ∧ PortEnded c 10 noData t ∧ SameOutside [.sym, .cores] s t)
    ∧ (GoAdmitted c s → (portOf s (coreNum c)).req = none → (portRequest (portOf s (coreNum c))).resv = false →
      flagsOk p.2 (portRequest (portOf s (coreNum c))).flags = true → (portOf s (coreNum c)).closed = true →
      ∃ t, exec (p.1 c) s = .next t ∧ PortEnded c 6 noData t ∧ (portOf t (coreNum c)).closed = false
        ∧ SameOutside [.sym, .cores] s t)
    ∧ (GoAdmitted c s → (portOf s (coreNum c)).req = none → (portRequest (portOf s (coreNum c))).resv = false →
      flagsOk p.2 (portRequest (portOf s (coreNum c))).flags = true → (portOf s (coreNum c)).closed = false →
      ∃ t b, exec (p.1 c) s = .next t ∧ (portOf t (coreNum c)).req = some { asked c s with begun := b }
        ∧ portData t (coreNum c) = portData s (coreNum c)
        ∧ (if sourceKind (asked c s) = some 1 ∧ hostSourceOk s (coreNum c) (asked c s) = true ∧ 0 < (asked c s).len then
            TagsFree (asked c s).argA (asked c s).len s →
              Asked (.port (coreNum c)) ((asked c s).argB % 64) (asked c s).argA (asked c s).len s t
          else t.out = s.out)
        ∧ SameOutside [.sym, .cores, .hqi, .out] s t)

/-- What the chain, key, cipher, hash and DRBG requests leave when they end (R190, R195, R198 to R200, R203, R205,
R206). -/
def Obligations.PortResults : Prop :=
  (∀ (c : CoreId) (r : PortReq) (src : HostData) (m : Bool) (s : State), AtPort c 1 r s →
    (boundChain s (coreNum c) 0 = none → ∀ p, openPipe s (gableOfCore s (coreNum c)) (if bitOf r.flags 0 then 2 else 1) = some p →
      ∃ t k, exec (.portRequestComplete c src m) s = .next t ∧ (portOf t (coreNum c)).req = none
        ∧ (portOf t (coreNum c)).status = 0 ∧ boundChain t (coreNum c) 0 = some k ∧ k / 30 = p ∧ (chainOf s k).core = none
        ∧ (chainOf t k).key = none ∧ (bitOf r.flags 0 = true → (boundChain t (coreNum c) 1).isSome = true)
        ∧ SameOutside [.sym, .hqi] s t)
    ∧ (boundChain s (coreNum c) 0 = none →
      openPipe s (gableOfCore s (coreNum c)) (if bitOf r.flags 0 then 2 else 1) = none →
      exec (.portRequestComplete c src m) s = .next (serveLoads s))
    ∧ ((boundChain s (coreNum c) 0).isSome = true →
      ∃ t, exec (.portRequestComplete c src m) s = .next t ∧ PortEnded c 2 noData t ∧ t.sym.chains = s.sym.chains))
  ∧ (∀ (c : CoreId) (r : PortReq) (src : HostData) (m : Bool) (s : State), AtPort c 2 r s →
    ∃ t, exec (.portRequestComplete c src m) s = .next t ∧ (portOf t (coreNum c)).status = 0
      ∧ (∀ ch, boundChain t (coreNum c) ch = none) ∧ SameOutside [.sym, .hqi] s t)
  ∧ (∀ (c : CoreId) (r : PortReq) (src : HostData) (m : Bool) (k : Nat) (s : State), AtPort c 3 r s →
    bitOf r.flags 0 = false → boundChain s (coreNum c) r.ch = some k → isPavane s (gableOfCore s (coreNum c)) = false →
    (handleInRange s (gableOfCore s (coreNum c)) r.argA = false → r.begun = none →
      ∃ t, exec (.portRequestComplete c src m) s = .next t ∧ PortEnded c 8 noData t ∧ SameOutside [.sym, .hqi] s t)
    ∧ (handleInRange s (gableOfCore s (coreNum c)) r.argA = true → r.begun = none →
      exec (.portRequestComplete c src m) s = .next (serveLoads s))
    ∧ (handleInRange s (gableOfCore s (coreNum c)) r.argA = true → r.begun.isSome = true → loadWaits s r.argA = false →
      ∃ t, exec (.portRequestComplete c src m) s = .next t
        ∧ match openKey (gableOfCore s (coreNum c)) r.argA s with
          | (st, none, u) => PortEnded c st noData t ∧ t.sym.chains = u.sym.chains
          | (_, some x, u) =>
            if pUsage x.policy ≠ r.use / 256 % 256
                ∨ (if r.use / 65536 % 4 = 0 then pBit x.policy 16 else if r.use / 65536 % 4 = 1 then pBit x.policy 17
                  else if r.use / 65536 % 4 = 2 then pBit x.policy 20 else pBit x.policy 18 || pBit x.policy 19) = false
                ∨ (pBit x.policy 23 = true ∧ isPavane u (gableOfCore s (coreNum c)) = false) then
              PortEnded c 3 noData t ∧ t.sym.chains = u.sym.chains
            else if isPavane u (gableOfCore s (coreNum c)) = false then
              if onUseOk x = false then PortEnded c 9 noData t ∧ t.sym.chains = u.sym.chains
              else (portOf t (coreNum c)).status = 0 ∧ (chainOf t k).key = some ⟨x.policy, x.secret⟩
                ∧ portData t (coreNum c) = portData u (coreNum c)
            else True))
  ∧ (∀ (c : CoreId) (r : PortReq) (src : HostData) (m : Bool) (k d : Nat) (x : KeyMat) (s : State), AtPort c 4 r s →
    r.begun.isSome = true →
    boundChain s (coreNum c) r.ch = some k → boundChain s (coreNum c) (1 - r.ch) = some d → (chainOf s k).key = some x →
    isPavane s (gableOfCore s (coreNum c)) = false → algAes (pAlg x.policy) = true → pBit x.policy 20 = true →
    r.len = 16 ∨ r.len = 32 → policyAllowed (BitVec.ofNat 32 r.use) = true → algAes (pAlg (BitVec.ofNat 32 r.use)) = true →
    keyLenOk (pAlg (BitVec.ofNat 32 r.use)) r.len = true →
    ∃ t, exec (.portRequestComplete c src m) s = .next t ∧ (portOf t (coreNum c)).status = 0
      ∧ (chainOf t d).key = some ⟨BitVec.ofNat 32 r.use, deriveBytes x (r.flags % 4) r.len r.data⟩
      ∧ portData t (coreNum c) = portData s (coreNum c) ∧ SameOutside [.sym, .hqi] s t)
  ∧ (∀ (c : CoreId) (r : PortReq) (src : HostData) (m : Bool) (k : Nat) (x : KeyMat) (s : State), AtPort c 5 r s →
    boundChain s (coreNum c) r.ch = some k → (chainOf s k).key = some x → slotAdmits s k (gableOfCore s (coreNum c)) = true →
    (pUsage x.policy = 3 ∨ pUsage x.policy = 4 ∨ pUsage x.policy = 0xA ∨ pUsage x.policy = 0xB
        ∨ pBit x.policy (if bitOf r.flags 0 then 17 else 16) = false →
      ∃ t, exec (.portRequestComplete c src m) s = .next t ∧ PortEnded c 3 noData t ∧ SameOutside [.sym, .hqi] s t)
    ∧ (algAes (pAlg x.policy) = true → pUsage x.policy = 0x10 → pBit x.policy (if bitOf r.flags 0 then 17 else 16) = true →
      ∃ t, exec (.portRequestComplete c src m) s = .next t
        ∧ PortEnded c 0 (padTo 64 (padTo 16 ((if bitOf r.flags 0 then blockDec (pAlg x.policy) x.secret
            else blockEnc (pAlg x.policy) x.secret) (r.data.take 16)))) t
        ∧ (chainOf t k).state = padTo 16 ((if bitOf r.flags 0 then blockDec (pAlg x.policy) x.secret
            else blockEnc (pAlg x.policy) x.secret) (r.data.take 16)) ∧ SameOutside [.sym, .hqi] s t))
  ∧ (∀ (c : CoreId) (r : PortReq) (src : HostData) (m : Bool) (k : Nat) (x : KeyMat) (s : State), AtPort c 6 r s →
    boundChain s (coreNum c) r.ch = some k → (chainOf s k).key = some x → slotAdmits s k (gableOfCore s (coreNum c)) = true →
    algAes (pAlg x.policy) = true → pUsage x.policy = 7 → r.flags = 3 → r.len ≤ 64 →
    ∃ t, exec (.portRequestComplete c src m) s = .next t
      ∧ PortEnded c 0 (padTo 64 (cmacAlg (pAlg x.policy) x.secret (r.data.take r.len))) t ∧ SameOutside [.sym, .hqi] s t)
  ∧ (∀ (c : CoreId) (r : PortReq) (src : HostData) (s : State), AtPort c 7 r s → bitOf r.flags 2 = false →
    ∃ t, exec (.portRequestComplete c src false) s = .next t ∧ (portOf t (coreNum c)).status = 0
      ∧ shaOf t (coreNum c) = { active := true, alg := r.flags % 4, state := shaInit (r.flags % 4) } ∧ SameOutside [.sym, .hqi] s t)
  ∧ (∀ (c : CoreId) (op : Nat) (r : PortReq) (src : HostData) (s : State), AtPort c op r s → op = 8 ∨ op = 9 →
    ((shaOf s (coreNum c)).active = false →
      ∃ t, exec (.portRequestComplete c src false) s = .next t ∧ PortEnded c 2 noData t ∧ SameOutside [.sym, .hqi] s t)
    ∧ ((shaOf s (coreNum c)).active = true → r.flags % 8 = 3 → r.len ≤ 64 →
      (op = 8 → r.len % shaBlockLen (shaOf s (coreNum c)).alg = 0 →
        ∃ t, exec (.portRequestComplete c src false) s = .next t ∧ (portOf t (coreNum c)).status = 0
          ∧ shaOf t (coreNum c) = { shaOf s (coreNum c) with
              state := shaBlocks (shaOf s (coreNum c)).alg (shaOf s (coreNum c)).state (r.data.take r.len)
              count := (shaOf s (coreNum c)).count + r.len } ∧ SameOutside [.sym, .hqi] s t)
      ∧ (op = 9 → r.len < shaBlockLen (shaOf s (coreNum c)).alg → (shaOf s (coreNum c)).outer = none →
        ∃ t, exec (.portRequestComplete c src false) s = .next t ∧ shaOf t (coreNum c) = {}
          ∧ PortEnded c 0 (padTo 64 (shaOut (shaOf s (coreNum c)).alg (shaBlocks (shaOf s (coreNum c)).alg
              (shaOf s (coreNum c)).state (shaPad (shaOf s (coreNum c)).alg ((shaOf s (coreNum c)).count + r.len)
                (r.data.take r.len))))) t ∧ SameOutside [.sym, .hqi] s t)))
  ∧ (∀ (c : CoreId) (r : PortReq) (src : HostData) (m : Bool) (s : State), AtPort c 10 r s → 1 ≤ r.len → r.len ≤ 64 →
    bitOf r.flags 0 = false →
    ((drbgOf s (drbgNum (coreNum c))).err = true →
      ∃ t, exec (.portRequestComplete c src m) s = .next t ∧ PortEnded c 7 noData t ∧ SameOutside [.sym, .hqi] s t)
    ∧ ((drbgOf s (drbgNum (coreNum c))).err = false → (drbgOf s (drbgNum (coreNum c))).since < 65536 →
      (drbgOf s (drbgNum (coreNum c))).inst = true →
      ∃ t, exec (.portRequestComplete c src m) s = .next t
        ∧ (match ctrGenerate r.len (drbgOf s (drbgNum (coreNum c))).key (drbgOf s (drbgNum (coreNum c))).v with
          | (blocks, key, v) =>
            if repeatsBlock ((drbgOf s (drbgNum (coreNum c))).last :: blocks) then
              PortEnded c 7 noData t ∧ (drbgOf t (drbgNum (coreNum c))).err = true
            else PortEnded c 0 (padTo 64 (blocks.flatten.take r.len)) t
              ∧ (drbgOf t (drbgNum (coreNum c))).since = (drbgOf s (drbgNum (coreNum c))).since + 1
              ∧ (drbgOf t (drbgNum (coreNum c))).key = key ∧ (drbgOf t (drbgNum (coreNum c))).v = v)
        ∧ SameOutside [.sym, .tel, .hqi] s t))

/-- Counters (R193, R207 to R210): requests to a counter are served in the order in which they reach it; CTR_NEXT issues V + 1
where the bound covers it, and at V = 2^64 − 1 changes nothing and ends with EXHAUSTED; a value that the bound does not cover
waits, with a RESERVE record of min(B + 256, 2^64 − 1) on its way; a record that has verified raises B; CTR_READ returns V;
CTR_NEXT_TIME returns value and trusted time together, and nothing before time has been set. -/
def Obligations.CounterVault : Prop :=
  (∀ (c : CoreId) (op : Nat) (r : PortReq) (src : HostData) (m : Bool) (s : State), AtPort c op r s → op = 11 ∨ op = 12 →
    ctrOwned s (gableOfCore s (coreNum c)) r.argA = true → vaultTurn s (.port (coreNum c)) r.argA = false →
    exec (.portRequestComplete c src m) s = .next (serveLoads s))
  ∧ (∀ (c : CoreId) (r : PortReq) (src : HostData) (m : Bool) (s : State), AtPort c 11 r s →
    (ctrOwned s (gableOfCore s (coreNum c)) r.argA = false →
      ∃ t, exec (.portRequestComplete c src m) s = .next t ∧ PortEnded c 8 noData t ∧ SameCounters s t
        ∧ SameOutside [.sym, .hqi] s t)
    ∧ (CounterTurn c r s → ctrV s r.argA = 2 ^ 64 - 1 →
      ∃ t, exec (.portRequestComplete c src m) s = .next t ∧ PortEnded c 5 noData t ∧ SameCounters s t
        ∧ SameOutside [.sym, .hqi] s t)
    ∧ (CounterTurn c r s → ctrV s r.argA < ctrB s r.argA → ctrB s r.argA ≤ 2 ^ 64 - 1 →
      ∃ t, exec (.portRequestComplete c src m) s = .next t
        ∧ PortEnded c 0 (padTo 64 (leBytes 8 (ctrV s r.argA + 1))) t ∧ ctrV t r.argA = ctrV s r.argA + 1
        ∧ (∀ k, k ≠ r.argA → ctrV t k = ctrV s k) ∧ (∀ k, ctrB t k = ctrB s k) ∧ SameOutside [.sym, .flc, .hqi] s t)
    ∧ (CounterTurn c r s → ctrV s r.argA = ctrB s r.argA →
      ctrB s r.argA < 2 ^ 64 - 1 → SMap.get none s.sym.ctr.flight r.argA = none → (journalPlace s).isSome = true →
      ∃ t, exec (.portRequestComplete c src m) s = .next t ∧ (portOf t (coreNum c)).req = some r ∧ SameCounters s t
        ∧ SMap.get none t.sym.ctr.flight r.argA = some (min (ctrB s r.argA + 256) (2 ^ 64 - 1))
        ∧ t.sym.ctr.seq = s.sym.ctr.seq + 1 ∧ SameOutside [.sym, .flc, .hqi] s t))
  ∧ (∀ (i b : Nat) (s : State), powered s = true → SMap.get none s.sym.ctr.flight i = some b →
    ((journalAll s).any fun r => r.typ == 1 && r.index == i && r.value == b) = true →
    ∃ t, exec (.reserveRecordVerified i) s = .next t ∧ ctrB t i = b ∧ (∀ k, k ≠ i → ctrB t k = ctrB s k)
      ∧ (∀ k, ctrV t k = ctrV s k) ∧ ((∀ g ∈ s.btn.grants, g.1 ≠ i) → SameOutside [.sym, .flc, .btn] s t)
      ∧ (∀ g ∈ t.btn.grants, g.1 ≠ i))
  ∧ (∀ (x : Nat) (s : State), powered s = true → s.sym.ctr.timeFly = some x →
    ((journalAll s).any fun r => r.typ == 3 && r.value == x) = true →
    ∃ t, exec .timeRecordVerified s = .next t ∧ t.sym.ctr.ceiling = x ∧ t.sym.ctr.timeFly = none
      ∧ SameCounters s t ∧ SameOutside [.sym] s t)
  ∧ (∀ (c : CoreId) (r : PortReq) (src : HostData) (m : Bool) (s : State), AtPort c 12 r s → CounterTurn c r s →
    (s.sys.timePhase = .unset →
      ∃ t, exec (.portRequestComplete c src m) s = .next t ∧ PortEnded c 2 noData t ∧ SameCounters s t)
    ∧ (s.sys.timePhase ≠ .unset → ctrV s r.argA < ctrB s r.argA → ctrB s r.argA ≤ 2 ^ 64 - 1 → s.sys.time ≤ s.sym.ctr.ceiling →
      ∃ t, exec (.portRequestComplete c src m) s = .next t ∧ ctrV t r.argA = ctrV s r.argA + 1
        ∧ PortEnded c 0 (padTo 64 (leBytes 8 (ctrV s r.argA + 1) ++ leBytes 8 s.sys.time
            ++ [if s.sys.timePhase = .synchronised then 1 else 2])) t))
  ∧ (∀ (c : CoreId) (r : PortReq) (src : HostData) (m : Bool) (s : State), AtPort c 13 r s → s.btn.table = none →
    ctrOwned s (gableOfCore s (coreNum c)) r.argA = true →
    ∃ t, exec (.portRequestComplete c src m) s = .next t ∧ PortEnded c 0 (padTo 64 (leBytes 8 (ctrV s r.argA))) t
      ∧ SameCounters s t ∧ SameOutside [.sym, .hqi] s t)

/-- The other events of the symmetric subsystem (R26, R197, R206, R213, R215, R466, R467): frames and slots of the Pavane
pipelines, page rewrites up to their PAGE record, requests that a stalled journal ends, DRBG retries and entropy blocks. -/
def Obligations.SymmetricEvents : Prop :=
  (∀ (s : State), powered s = true → s.img.locked = true →
    (∃ t, exec .pavaneFrameBoundary s = .next t ∧ (∀ p < 4, (pipeOf t p).slot = 0 ∧ (pipeOf t p).nextCfg = none
        ∧ (pipeOf t p).kind = (match (pipeOf s p).nextCfg with | some x => x.1 | none => (pipeOf s p).kind)
        ∧ (pipeOf t p).slots = (match (pipeOf s p).nextCfg with | some x => x.2 | none => (pipeOf s p).slots))
      ∧ SameOutside [.sym, .hqi] s t)
    ∧ (∃ t, exec .pavaneSlotStart s = .next t ∧ (∀ p < 4, (pipeOf t p).slots = (pipeOf s p).slots
        ∧ ((pipeOf s p).kind = 1 → (pipeOf t p).slot = (if (pipeOf s p).slot < 15 then (pipeOf s p).slot + 1
            else (pipeOf s p).slot))
        ∧ ((pipeOf s p).kind ≠ 1 → pipeOf t p = pipeOf s p)) ∧ SameOutside [.sym, .hqi] s t))
  ∧ (∀ (i : Nat) (s : State), powered s = true →
    (s.sym.ctr.stalled = false → exec (.journalStallTimeout i) s = .next s)
    ∧ (s.sym.ctr.stalled = true →
      ∃ t, exec (.journalStallTimeout i) s = .next t ∧ (∀ k, ctrV t k = ctrV s k) ∧ (∀ k, ctrB t k = ctrB s k)
        ∧ (∀ n r, (n, portOf s n) ∈ s.sym.ports → (portOf s n).req = some r → waitsFor s i r = true →
          (portOf t n).req = none ∧ (portOf t n).status = 11)))
  ∧ (∀ (t : Fin 32) (s : State), powered s = true → (drbgOf s t.val).err = true →
    ∃ u, exec (.drbgReseedRetry t) s = .next u
      ∧ (entropyGood s = true → (drbgOf u t.val).inst = true ∧ (drbgOf u t.val).since = 0 ∧ (drbgOf u t.val).err = false
        ∧ u.sys.pool = s.sys.pool.drop 1 ∧ SameOutside [.sym, .sys, .free] s u)
      ∧ (entropyGood s = false → (drbgOf u t.val).err = true ∧ u.sym.drbgFail.getLsbD t.val = true
        ∧ u.sym.cause.getLsbD 0 = true))
  ∧ (∀ (k : Fin 4) (s : State), powered s = true → s.sys.entOn.getLsbD k.val = true → s.sys.entFail.getLsbD k.val = false →
    (s.sys.pool.length < 256 → entropyGood s = true →
      ∃ u b, exec (.entropyBlock k true) s = .next u ∧ u.sys.pool = s.sys.pool ++ [b] ∧ b.length = 48
        ∧ SameOutside [.sys, .free] s u)
    ∧ (∃ u, exec (.entropyBlock k false) s = .next u ∧ u.sys.entFail.getLsbD k.val = true ∧ u.sys.pool = s.sys.pool
      ∧ u.sys.cause.getLsbD 6 = true ∧ SameOutside [.sys, .tel] s u))
  ∧ (∀ (s : State), powered s = true → (s.sym.ctr.since < pagePeriod s → exec .pageRewrite s = .next s)
    ∧ (wardenUp s = true → pagePeriod s ≤ s.sym.ctr.since → 0 < pagePeriod s → portIdle s = true → s.sym.ctr.rewrite = .none →
      (writePage (s.sym.ctr.nextPage % 128) s).1 = true → (journalPlace (writePage (s.sym.ctr.nextPage % 128) s).2).isSome = true →
      ∃ t, exec .pageRewrite s = .next t ∧ SameCounters s t
        ∧ t.sym.ctr.rewrite = .record (s.sym.ctr.nextPage % 128) s.sym.ctr.freeSect s.sym.ctr.seq
        ∧ (∀ i < 512, flashWord t ((ctrjSect0 s + s.sym.ctr.freeSect) * 512 + i)
          = BitVec.ofNat 64 (ctrB s (512 * (s.sym.ctr.nextPage % 128) + i)))
        ∧ t.sym.ctr.seq = s.sym.ctr.seq + 1 ∧ SameOutside flashParts s t)
    ∧ (s.sym.ctr.rewrite ≠ .none → exec .pageRewrite s = .next s))

/-! ### Sealed memory and the key store (07_key_store_sealed_memory.md) -/

/-- Accesses to sealed memory (R222 to R226): a read of lines that verify changes nothing; a write leaves its bytes
and no others changed, advances its counters, and makes no line fail; an access whose two reads fail counts AUTH_FAIL, reports
line and cause and makes the line fail from then on, and a partial write then writes nothing; one that passes on re-read counts
REREAD and goes on; a whole-line write clears a failing line; an access before INIT_DONE waits; the end of initialisation sets
INIT_DONE, and spares the row of a line that failed twice as it was read back. -/
def Obligations.SealedMemory : Prop :=
  (∀ (off len : Nat) (b : Bool) (s : State), powered s = true → s.msu.inited = true → off + len ≤ 0xE0000000 →
    LinesGood s (off / 64) (lineCount off len) → exec (.msuRead off len true b) s = .next s)
  ∧ (∀ (off : Nat) (d : List Byte) (b : Bool) (s : State), powered s = true → s.msu.inited = true →
    off + d.length ≤ 0xE0000000 → GroupsGood s off d.length →
    ∃ t, exec (.msuWrite off d true b) s = .next t
      ∧ (∀ a, SMap.get 0 t.msu.mem a = if off ≤ a ∧ a < off + d.length then d.getD (a - off) 0 else SMap.get 0 s.msu.mem a)
      ∧ (∀ i, SMap.get false t.msu.failing i = SMap.get false s.msu.failing i) ∧ SameOutside [.msu] s t)
  ∧ (∀ (off : Nat) (d : List Byte) (f g : Bool) (s : State), powered s = true → s.msu.inited = true → off + 64 ≤ 0xE0000000 →
    s.msu.rootOk = true → counterFails s (off / 64) = false → off % 64 = 0 → d.length = 64 →
    (minorOf s 0 (off / 64) = 63 → f = true ∧ ∀ k < 64, off / 64 / 64 * 64 + k ≠ off / 64 → lineFails s (off / 64 / 64 * 64 + k) = false) →
    ∃ t, exec (.msuWrite off d f g) s = .next t
      ∧ (∀ a, SMap.get 0 t.msu.mem a = if off ≤ a ∧ a < off + 64 then d.getD (a - off) 0 else SMap.get 0 s.msu.mem a)
      ∧ SMap.get false t.msu.failing (off / 64) = false
      ∧ (minorOf s 0 (off / 64) < 63 → minorOf t 0 (off / 64) = minorOf s 0 (off / 64) + 1
        ∧ majorOf t 0 (off / 64 / 64) = majorOf s 0 (off / 64 / 64))
      ∧ (minorOf s 0 (off / 64) = 63 → majorOf t 0 (off / 64 / 64) = majorOf s 0 (off / 64 / 64) + 1
        ∧ ∀ k < 64, minorOf t 0 (off / 64 / 64 * 64 + k) = 0) ∧ SameOutside [.msu] s t)
  ∧ (∀ (off len : Nat) (d : List Byte) (s : State), powered s = true → s.msu.inited = true → off + len ≤ 0xE0000000 →
    0 < len → off % 64 + len ≤ 64 → lineFails s (off / 64) = false →
    (∃ t, exec (.msuRead off len false false) s = .next t ∧ t.msu.authFail = satInc 0xFFFF s.msu.authFail
      ∧ t.msu.fail = off / 64 * 64 ∧ lineFails t (off / 64) = true ∧ t.msu.cause.getLsbD 2 = true
      ∧ t.msu.mem = s.msu.mem ∧ t.eav.detected = s.eav.detected
        ++ [(srcBusParity, padTo 16 ([2, 0, 0, 0] ++ leBytes 4 (off / 64 * 64)))] ∧ SameOutside sealedParts s t)
    ∧ (d.length = len → len < 64 → ∃ t, exec (.msuWrite off d false false) s = .next t ∧ t.msu.mem = s.msu.mem
      ∧ lineFails t (off / 64) = true ∧ t.msu.authFail = satInc 0xFFFF s.msu.authFail)
    ∧ (∃ t, exec (.msuRead off len false true) s = .next t ∧ t.msu.reread = satInc 0xFFFF s.msu.reread
      ∧ t.msu.cause.getLsbD 1 = true ∧ t.msu.mem = s.msu.mem ∧ (∀ i, lineFails t i = lineFails s i)
      ∧ t.msu.authFail = s.msu.authFail))
  ∧ (∀ (off len : Nat) (f g : Bool) (d : List Byte) (s : State), powered s = true → s.msu.inited = false → off + len ≤ 0xE0000000 →
    d.length = len →
    exec (.msuRead off len f g) s = .next { s with msu := { s.msu with waiting := s.msu.waiting ++ [⟨off, len, none, f, g⟩] } }
    ∧ exec (.msuWrite off d f g) s
      = .next { s with msu := { s.msu with waiting := s.msu.waiting ++ [⟨off, len, some d, f, g⟩] } })
  ∧ (∀ (s : State), powered s = true → s.msu.inited = false → s.msu.waiting = [] →
    exec (.msuInitDone []) s = .next { s with msu := { s.msu with
      inited := true
      cause := s.msu.cause ||| 1 } }
    ∧ (∀ i, lineFails s i = false → ∃ t, exec (.msuInitDone [(i, false)]) s = .next t ∧ lineFails t i = true
      ∧ t.msu.inited = true ∧ t.msu.authFail = satInc 0xFFFF s.msu.authFail ∧ t.msu.mem = s.msu.mem
      ∧ (SMap.get 0 s.msu.used (rowId i).1 < 1024 →
        SMap.get (0, 0) t.msu.remap (1024 * (rowId i).1 + SMap.get 0 s.msu.used (rowId i).1) = ((rowId i).2 + 1, 2))))

/-- The key-store commands start (R242): each in its permitted state and with none running; outside it, or while another
runs, the command ends at once with STATE_REFUSED and KS_DONE and nothing else changes; with the warden stopped it ends with no
status (R297). -/
def Obligations.KeyStoreCommands : Prop :=
  (∀ (who : Who) (s : State), PairTakes who 0x701000 s → wardenUp s = true → s.ks.run = .none →
    retiredLc s = false →
    (s.ks.phase = .empty → lifecycle s = lcOwned ∨ lifecycle s = lcDev → s.eav.rootLock = false → s.btn.role = .solo →
      ∃ t, exec (.ksInit who) s = .next t ∧ t.ks = { s.ks with
          ctl := 1
          run := .init } ∧ SameOutside [.ks, .pairs] s t)
    ∧ (s.ks.phase = .isOpen → s.ks.addr.toNat % 4096 = 0 →
      ∃ t, exec (.backup who) s = .next t ∧ t.ks = { s.ks with
          ctl := 2
          run := .backup s.ks.addr.toNat s.ks.seq } ∧ SameOutside [.ks, .pairs] s t)
    ∧ (s.ks.phase = .closed → s.ks.addr.toNat % 4096 = 0 →
      ∃ t, exec (.restore who) s = .next t ∧ t.ks = { s.ks with
          ctl := 3
          run := .restore s.ks.addr.toNat none }
        ∧ t.hqi.reads = s.hqi.reads ++ [.restore] ∧ (s.hqi.unsent = [] → Requested .restore 0 s.ks.addr.toNat 1141047360 s t)
        ∧ SameOutside [.ks, .pairs, .hqi, .out] s t)
    ∧ (∀ b, s.ks.phase = .isOpen → s.ks.pending = some b → s.ks.arg.toNat = b.gen →
      ∃ t, exec (.confirm who) s = .next t ∧ t.ks = { s.ks with
          ctl := 4
          run := .confirm } ∧ SameOutside [.ks, .pairs] s t))
  ∧ (∀ p ∈ ksRows, ∀ (who : Who) (s : State), PairTakes who 0x701000 s →
    (wardenUp s = false → ∃ t, exec (p.1 who) s = .next t ∧ t.ks = { s.ks with ctl := p.2 } ∧ SameOutside [.ks, .pairs] s t)
    ∧ (wardenUp s = true → s.ks.run ≠ .none ∨ (p.2 = 1 ∧ s.ks.phase ≠ .empty) ∨ (p.2 = 2 ∧ s.ks.phase ≠ .isOpen)
      ∨ (p.2 = 3 ∧ s.ks.phase ≠ .closed) ∨ (p.2 = 4 ∧ (s.ks.phase ≠ .isOpen ∨ s.ks.pending = none)) →
    ∃ t, exec (p.1 who) s = .next t ∧ t.ks = { s.ks with
        ctl := p.2
        status := 2 } ∧ t.msu.cause = s.msu.cause ||| 0x20 ∧ SameOutside [.ks, .pairs, .msu] s t))

/-- The key-store commands end (R242, R243): STATUS, BUSY clear and KS_DONE. INIT leaves a KSRK in the vault and root record
generation 1 without a backup, and opens the store; BACKUP, once its pages have been read, writes header and pages to host memory and leaves the backup pending; CONFIRM names the pending backup in the next root record; a RESTORE whose data failed, or whose checks fail, leaves
STATE CLOSED and the slot table unchanged. -/
def Obligations.KeyStoreEnds : Prop :=
  (∀ (s : State), wardenUp s = true → s.ks.run = .init →
    ∃ t r, exec .ksDone s = .next t ∧ t.ks.run = .none ∧ t.ks.status = 0 ∧ t.ks.phase = .isOpen
      ∧ t.msu.cause.getLsbD 5 = true ∧ t.ks.root = some r ∧ r.gen = 1 ∧ r.bGen = 0 ∧ r.bSeq = 0
      ∧ r.parent = List.replicate 48 0 ∧ (∀ k, k < 0x40 ∨ 0x60 ≤ k → SMap.get 0 t.eav.vault k = SMap.get 0 s.eav.vault k))
  ∧ (∀ (addr seq : Nat) (s u : State), wardenUp s = true → s.ks.run = .backup addr seq → readPages 4096 0 s = (0, u) →
    ∃ t b, exec .ksDone s = .next t ∧ t.ks.run = .none ∧ t.ks.status = 0 ∧ t.ks.pending = some b
      ∧ b.gen = nextBackupGen u ∧ b.seq = seq ∧ b.digest = sha384 (backupHead u (nextBackupGen u) seq)
      ∧ t.out = ((List.range 4096).foldl (fun v k => writeHost 0 (addr + 0x30040 + 278528 * k) (backupPage u k) v)
          (writeHost 0 addr (backupHead u (nextBackupGen u) seq) u)).out
      ∧ t.msu.mem = u.msu.mem ∧ SameOutside [.ks, .msu, .out] u t)
  ∧ (∀ (addr seq st : Nat) (s u : State), wardenUp s = true → s.ks.run = .backup addr seq → readPages 4096 0 s = (st, u) → st ≠ 0 →
    ∃ t, exec .ksDone s = .next t ∧ t.ks = { u.ks with
        run := .none
        status := st } ∧ t.msu.cause.getLsbD 5 = true ∧ SameOutside [.ks, .msu] u t)
  ∧ (∀ (r : RootRec) (b : Backup) (s : State), wardenUp s = true → s.ks.run = .confirm → s.ks.root = some r →
    s.ks.pending = some b → b.gen < 2 ^ 64 → b.seq < 2 ^ 64 → b.digest.length = 48 → r.ksrkId.length = 16 →
    r.gen + 1 < 2 ^ 64 →
    ∃ t x, exec .ksDone s = .next t ∧ t.ks.run = .none ∧ t.ks.status = 0 ∧ t.ks.pending = none ∧ t.ks.root = some x
      ∧ x.gen = r.gen + 1 ∧ x.parent = rootDigest r ∧ x.ksrkId = r.ksrkId ∧ x.bGen = b.gen ∧ x.bSeq = b.seq
      ∧ x.bDigest = b.digest ∧ t.msu.cause.getLsbD 5 = true ∧ SameOutside (.ks :: .msu :: flashParts) s t)
  ∧ (∀ (a : Nat) (d : HostData) (s : State), wardenUp s = true → s.ks.run = .restore a (some d) →
    (∀ b, d = .ok b → restoreChecks s b ≠ 0) →
    ∃ t, exec .ksDone s = .next t ∧ t.ks = { s.ks with
        run := .none
        status := match d with
          | .ok b => restoreChecks s b
          | .poison => 7
          | .ecrc => 7
          | .ur => 6
          | .ca => 6 }
      ∧ t.msu.mem = s.msu.mem ∧ t.msu.cause.getLsbD 5 = true ∧ SameOutside [.ks, .msu] s t)

/-- The key store's power-up and its logs (R238, R239, R245 to R247): the root record that the copies select gives STATE;
divergent copies seal the store with DIVERGENT and its cause; erased copies without a KSRK leave it EMPTY; the replay's end
opens it; a verified slot-log record moves the log on; reclaiming the resident log changes no directory entry. -/
def Obligations.KeyStorePowerUp : Prop :=
  (∀ (s v : State), wardenUp s = true → s.ks.phase = .starting → s.ks.root = none → s.msu.inited = true →
    v = noteKeyArea (flushRowWords s) →
    ∃ t u, exec .keyStorePowerUp s = .next t
      ∧ u = flushAll 60 { v with ks := { v.ks with
          slotLog := logEnd v slotLogArea
          resLog := logEnd v (resLogArea v) } }
      ∧ (match selectRoot u with
        | .one r => t.ks.root = some r ∧ t.ks.status = 0 ∧ t.ks.phase = (if ksrkId u = r.ksrkId ∧ hasKsrk u = true then
            (if r.bGen = 0 then .starting else .closed) else .noRoot)
        | .divergent => t.ks.phase = .isSealed ∧ t.ks.status = 13 ∧ t.msu.cause.getLsbD 7 = true ∧ t.svc.diverg = true
        | .none => t.ks.root = none ∧ (if ([0, 1, 2].all fun k => copyErased (rootCopy u k)) = true ∧ hasKsrk u = false
            then t.ks.phase = .empty ∧ t.ks.status = 0 else t.ks.phase = .isSealed ∧ t.ks.status = 7)))
  ∧ (∀ (r : RootRec) (s : State), s.ks.root = some r → s.ks.phase = .starting →
    ∃ t, exec .logReplayEnd s = .next t ∧ t.ks.phase = .isOpen ∧ t.ks.root = some r ∧ t.eav.vault = s.eav.vault
      ∧ t.ks.resDir = s.ks.resDir)
  ∧ (∀ (s : State), wardenUp s = true → bufRecs s = [] → exec .slotLogRecordVerified s = .next s)
  ∧ (∀ (r : LogRec) (rest : List LogRec) (u s : State), wardenUp s = true → bufRecs s = r :: rest →
    (∀ pos, appendLog slotLogArea s.ks.slotLog slotSectorFree r s = (some pos, u) →
      ∃ t, exec .slotLogRecordVerified s = .next t ∧ t.ks.slotLog = pos ∧ t.flash = u.flash
        ∧ t.eav.vault = (setBuf rest u).eav.vault ∧ t.ks.seq = s.ks.seq ∧ t.msu.mem = s.msu.mem)
    ∧ (appendLog slotLogArea s.ks.slotLog slotSectorFree r s = (none, u) → exec .slotLogRecordVerified s = .next u))
  ∧ (∀ (s : State), wardenUp s = true →
    (oldestResident s = none → exec .residentLogReclaim s = .next s)
    ∧ (∀ x u, oldestResident s = some x →
      copyForward ((sectorRecs s x).filter fun r => residentLive s r) s = (true, u) →
      ∃ t, exec .residentLogReclaim s = .next t ∧ t.ks.resDir = s.ks.resDir ∧ t.eav = s.eav ∧ t.msu = s.msu
        ∧ ((fwErase x u).1 = true → sectorErased t x = true) ∧ SameOutside (.ks :: flashParts) s t)
    ∧ (∀ x u, oldestResident s = some x →
      copyForward ((sectorRecs s x).filter fun r => residentLive s r) s = (false, u) → exec .residentLogReclaim s = .next u))

/-! ### Camol: the instruction set (08_camol_isa.md) -/

/-- Issue of every Camol instruction (R225, R261, R270, R282, R305): where its core cannot issue nothing happens but that an
entry which waits goes on; where its gate refuses the fetch GATE is raised, where the fetch does not return BUS_ERROR; a fetch
that waits, and a pair of Pavane cores that differs, let it not go on; with fields that the instruction does not permit, and for
a word that no instruction has, it performs nothing and raises ILLEGAL. -/
def Obligations.CamolIssue : Prop :=
  (∀ (i : Instr) (c : CoreId) (w e : Word) (s : State), camolWords i = some (c, w, e) →
    (canIssue s (coreNum c) = false → exec i s = .next (unpark (coreNum c) s))
    ∧ (canIssue s (coreNum c) = false → (s.core (coreNum c)).parked = none → exec i s = .next s)
    ∧ (∀ u, canIssue s (coreNum c) = true → issueAt (coreNum c) (hasExtension w) s = (.refused, u) →
        exec i s = .next (faultHere (coreNum c) exGate u))
    ∧ (∀ u, canIssue s (coreNum c) = true → issueAt (coreNum c) (hasExtension w) s = (.failed, u) →
        exec i s = .next (faultHere (coreNum c) exBus u))
    ∧ (∀ u, canIssue s (coreNum c) = true → issueAt (coreNum c) (hasExtension w) s = (.stall, u) → exec i s = .next u)
    ∧ (Issues c (hasExtension w) s → fieldsOk (s.core (coreNum c)).cnt i = false →
        exec i s = .next (faultHere (coreNum c) exIllegal (fetched c (hasExtension w) s))))
  ∧ (∀ (c : CoreId) (s : State), Issues c false s → unlistedWord c s = faultHere (coreNum c) exIllegal (fetched c false s))

/-- The integer instructions (R264): what each leaves in RD, its pair or the flags; nothing but those and the PC of its
core changes. -/
def Obligations.CamolInteger : Prop :=
  (∀ p ∈ aluRows, ∀ (c : CoreId) (f : FmtR) (k : Core) (s : State), Issues c false s → k = atIssue c false s → f.s = 0 →
    ∃ t, exec (p.1 c f) s = .next t
      ∧ OnlyCore c (Core.setReg { k with pc := k.pc + 4 } f.rd.toNat
            (p.2 (k.reg f.ra.toNat) (k.reg f.rb.toNat))) (fetched c false s) t)
  ∧ (∀ p ∈ shiftByRows, ∀ (c : CoreId) (f : FmtR) (k : Core) (s : State), Issues c false s → k = atIssue c false s → f.s.toNat ≤ 31 →
    ∃ t, exec (p.1 c f) s = .next t
      ∧ OnlyCore c (Core.setReg { k with pc := k.pc + 4 } f.rd.toNat (p.2 (k.reg f.ra.toNat) f.s.toNat)) (fetched c false s) t)
  ∧ (∀ p ∈ immediateRows, ∀ (c : CoreId) (f : FmtI) (k : Core) (s : State), Issues c false s → k = atIssue c false s →
    ∃ t, exec (p.1 c f) s = .next t
      ∧ OnlyCore c (Core.setReg { k with pc := k.pc + 4 } f.rd.toNat (p.2 (k.reg f.ra.toNat) f.imm)) (fetched c false s) t)
  ∧ (∀ (c : CoreId) (f : FmtE) (k : Core) (s : State), Issues c true s → k = atIssue c true s → f.z = 0 →
    ∃ t, exec (.movi c f) s = .next t
      ∧ OnlyCore c (Core.setReg { k with pc := k.pc + 8 } f.rd.toNat f.imm) (fetched c true s) t)
  ∧ (∀ p ∈ flagRows, ∀ (c : CoreId) (f : FmtR) (k : Core) (s : State) (r : Word × Bool × Bool), Issues c false s → k = atIssue c false s → f.s = 0 →
    r = exactSum p.2.1 (k.reg f.ra.toNat) (k.reg f.rb.toNat)
      (p.2.2 k.st) →
    ∃ t st, exec (p.1 c f) s = .next t ∧ FlagsAre k.st st r.1.msb (r.1 == 0) r.2.1 r.2.2
      ∧ OnlyCore c (Core.setReg { k with
          st := st
          pc := k.pc + 4 } f.rd.toNat r.1) (fetched c false s) t)
  ∧ (∀ (c : CoreId) (f : FmtR) (k : Core) (s : State) (r : Word × Bool × Bool), Issues c false s → k = atIssue c false s → f.s = 0 → f.rd = 0 →
    r = exactSum true (k.reg f.ra.toNat) (k.reg f.rb.toNat) false →
    ∃ t st, exec (.cmp c f) s = .next t ∧ FlagsAre k.st st r.1.msb (r.1 == 0) r.2.1 r.2.2
      ∧ OnlyCore c { k with
          st := st
          pc := k.pc + 4 } (fetched c false s) t)
  ∧ (∀ (c : CoreId) (f : FmtI) (k : Core) (s : State) (r : Word × Bool × Bool), Issues c false s → k = atIssue c false s → f.rd = 0 →
    r = exactSum true (k.reg f.ra.toNat) (BitVec.ofInt 32 f.imm.toInt) false →
    ∃ t st, exec (.cmpi c f) s = .next t ∧ FlagsAre k.st st r.1.msb (r.1 == 0) r.2.1 r.2.2
      ∧ OnlyCore c { k with
          st := st
          pc := k.pc + 4 } (fetched c false s) t)
  ∧ (∀ (c : CoreId) (f : FmtR) (k : Core) (s : State) (r : Word), Issues c false s → k = atIssue c false s → f.s = 0 → f.rd = 0 →
    r = k.reg f.ra.toNat &&& k.reg f.rb.toNat →
    ∃ t st, exec (.tst c f) s = .next t
      ∧ FlagsAre k.st st r.msb (r == 0) (flagC k.st) (flagV k.st)
      ∧ OnlyCore c { k with
          st := st
          pc := k.pc + 4 } (fetched c false s) t)
  ∧ (∀ (c : CoreId) (f : FmtR) (k : Core) (s : State), Issues c false s → k = atIssue c false s → f.s = 0 → f.rd.toNat % 2 = 0 →
    (∃ t v, exec (.mull c f) s = .next t
      ∧ v = BitVec.ofInt 64 ((k.reg f.ra.toNat).toInt * (k.reg f.rb.toNat).toInt)
      ∧ OnlyCore c ((Core.setReg { k with
          pc := k.pc + 4 } f.rd.toNat (v.setWidth 32)).setReg (f.rd.toNat + 1) ((v >>> 32).setWidth 32)) (fetched c false s) t)
    ∧ (∃ t v, exec (.mullu c f) s = .next t
      ∧ v = BitVec.ofNat 64 ((k.reg f.ra.toNat).toNat * (k.reg f.rb.toNat).toNat)
      ∧ OnlyCore c ((Core.setReg { k with
          pc := k.pc + 4 } f.rd.toNat (v.setWidth 32)).setReg (f.rd.toNat + 1) ((v >>> 32).setWidth 32)) (fetched c false s) t))

/-- DIVR and DIVRU (R269, R293, R302): the rounded quotient goes to the pair RD; −2^63 ÷ −1 is fitted into 64 bits; a
divisor of zero leaves the pair and raises DIV_ZERO, at the instruction where exceptions are precise, and else is noted
once, with the core going on. MFA and MTA (R268): a half of an accumulator is read, or a whole one written, without rounding
or saturation. -/
def Obligations.DivisionAndMoves : Prop :=
  (∀ (c : CoreId) (f : FmtR) (k : Core) (s : State) (x : Dword) (d : Word), Issues c false s → k = atIssue c false s → legalDiv f = true →
    x = pairReg k f.ra.toNat → d = k.reg f.rb.toNat → d ≠ 0 →
    (∃ t v, exec (.divru c f) s = .next t
      ∧ v = BitVec.ofInt 64 (rnd (fxRM k.fxctl) (x.toNat : Int) (d.toNat : Int))
      ∧ OnlyCore c ((Core.setReg { k with
          pc := k.pc + 4 } f.rd.toNat (v.setWidth 32)).setReg (f.rd.toNat + 1) ((v >>> 32).setWidth 32)) (fetched c false s) t)
    ∧ (¬(x = 0x8000000000000000 ∧ d = 0xFFFFFFFF) → ∃ t v, exec (.divr c f) s = .next t
      ∧ v = BitVec.ofInt 64 (rnd (fxRM k.fxctl) (if d.toInt < 0 then -x.toInt else x.toInt) (d.toInt.natAbs : Nat))
      ∧ OnlyCore c ((Core.setReg { k with
          pc := k.pc + 4 } f.rd.toNat (v.setWidth 32)).setReg (f.rd.toNat + 1) ((v >>> 32).setWidth 32)) (fetched c false s) t)
    ∧ (x = 0x8000000000000000 → d = 0xFFFFFFFF → fxSat k.fxctl = true → ∃ t, exec (.divr c f) s = .next t
      ∧ OnlyCore c ((Core.setReg { k with
          fxctl := k.fxctl ||| 8
          pc := k.pc + 4 } f.rd.toNat 0xFFFFFFFF).setReg (f.rd.toNat + 1) 0x7FFFFFFF) (fetched c false s) t)
    ∧ (x = 0x8000000000000000 → d = 0xFFFFFFFF → fxSat k.fxctl = false → ∃ t u, exec (.divr c f) s = .next t
      ∧ OnlyCore c ((Core.setReg { k with
          pc := k.pc + 4 } f.rd.toNat 0).setReg (f.rd.toNat + 1) 0x80000000) (fetched c false s) u
      ∧ t = (if fxOvt k.fxctl then arithmetic (coreNum c) 8 0 (k.pc + 4) u else u)))
  ∧ (∀ p ∈ [Instr.divr, Instr.divru], ∀ (c : CoreId) (f : FmtR) (k : Core) (s : State), Issues c false s → k = atIssue c false s → legalDiv f = true →
    k.reg f.rb.toNat = 0 →
    (k.precise = true →
      exec (p c f) s = .next (takeException (coreNum c) 7 k.pc (fetched c false s)))
    ∧ (k.precise = false → ∃ t, exec (p c f) s = .next t
      ∧ OnlyCore c { k with
          imprec := some (k.imprec.getD (if k.late = [] then 7 else 8))
          late := []
          pc := k.pc + 4 } (fetched c false s) t))
  ∧ (∀ (c : CoreId) (f : FmtA) (k : Core) (s : State), Issues c false s → k = atIssue c false s → fieldsOk 0 (.mfa c f) = true →
    ∃ t, exec (.mfa c f) s = .next t
      ∧ OnlyCore c (Core.setReg { k with pc := k.pc + 4 } f.rg.toNat
            (if f.f.toNat = 0 then (k.acc f.as.toNat).setWidth 32
              else BitVec.ofInt 32 ((k.acc f.as.toNat).toInt / (2 ^ 32 : Nat)))) (fetched c false s) t)
  ∧ (∀ (c : CoreId) (f : FmtA) (k : Core) (s : State), Issues c false s → k = atIssue c false s → fieldsOk 0 (.mta c f) = true →
    ∃ t, exec (.mta c f) s = .next t
      ∧ OnlyCore c (Core.setAcc { k with pc := k.pc + 4 } f.ad.toNat
            ((k.reg f.rb.toNat).setWidth 8 ++ k.reg f.rg.toNat)) (fetched c false s) t)

/-- Rounding and fitting (R266, R267), and what the accumulator instructions make of them: each rounding mode gives the
integer that its words name; a value that fits is kept; with SAT set the nearest end of the range is written and SATF set;
otherwise the value modulo 2^w, read as signed, is written even where OVT raises FX_OVERFLOW. -/
def Obligations.RoundingAndFitting : Prop :=
  (∀ (x d : Int), 0 < d →
    ((2 * (rnd 0 x d * d - x)).natAbs ≤ d.natAbs ∧ ((2 * (rnd 0 x d * d - x)).natAbs = d.natAbs → rnd 0 x d % 2 = 0))
    ∧ ((2 * (rnd 1 x d * d - x)).natAbs ≤ d.natAbs
        ∧ ((2 * (rnd 1 x d * d - x)).natAbs = d.natAbs → x.natAbs < (rnd 1 x d * d).natAbs))
    ∧ rnd 2 x d = x.tdiv d ∧ rnd 3 x d = x.fdiv d)
  ∧ (∀ (fx : Word) (v : Int) (w : Nat), 0 < w →
    (-((2 ^ (w - 1) : Nat) : Int) ≤ v → v < (2 ^ (w - 1) : Nat) → fit fx v w = (v, false, false))
    ∧ (fxSat fx = true → (2 ^ (w - 1) : Nat) ≤ v → fit fx v w = (((2 ^ (w - 1) : Nat) : Int) - 1, true, false))
    ∧ (fxSat fx = true → v < -((2 ^ (w - 1) : Nat) : Int) → fit fx v w = (-((2 ^ (w - 1) : Nat) : Int), true, false))
    ∧ (fxSat fx = false → ¬(-((2 ^ (w - 1) : Nat) : Int) ≤ v ∧ v < (2 ^ (w - 1) : Nat)) →
        fit fx v w = ((v + (2 ^ (w - 1) : Nat)) % (2 ^ w : Nat) - (2 ^ (w - 1) : Nat), false, fxOvt fx)))
  ∧ (∀ p ∈ fixedRows, ∀ (c : CoreId) (f : FmtA) (k : Core) (s : State) (r : Int × Bool × Bool), Issues c false s → k = atIssue c false s →
    fieldsOk 0 (p.1 c f) = true → r = fit k.fxctl (p.2.1 k f) p.2.2.1 →
    ∃ t u q, exec (p.1 c f) s = .next t
      ∧ q = { k with
          fxctl := if r.2.1 then k.fxctl ||| 8 else k.fxctl
          pc := k.pc + 4 }
      ∧ OnlyCore c (if p.2.2.2 then q.setReg f.rg.toNat (BitVec.ofInt 32 r.1)
            else q.setAcc f.ad.toNat (BitVec.ofInt 40 r.1)) (fetched c false s) u
      ∧ t = (if r.2.2 then arithmetic (coreNum c) 8 (if p.2.2.2 then 1 else 2) (k.pc + 4) u else u))

/-- Loads and stores (R259, R263, R301): the bytes move at the address of their mode, the base is updated only when the
access is performed, a loaded value is written last, and a store stores what RD held before; a misaligned access, one below
the stack limit, one that a gate refuses and one that fails leave every register, and raise their exception. -/
def Obligations.LoadsAndStores : Prop :=
  (∀ p ∈ [(Instr.ld, false), (Instr.lds, true)], ∀ (c : CoreId) (f : FmtM) (k q : Core) (s u : State) (bs : List Byte), Issues c false s → k = atIssue c false s →
    legalM f p.2 = true → (addrM k f).toNat % 2 ^ f.sz.toNat = 0 → stackFault k f = false →
    coreLoad (coreNum c) (addrM k f).toNat (2 ^ f.sz.toNat) (fetched c false s) = (.ok bs, u) → q = u.core (coreNum c) →
    ∃ t, exec (p.1 c f) s = .next t
      ∧ (t.core (coreNum c)).reg f.rd.toNat = (if p.2 then
            BitVec.ofInt 32 (if f.sz.toNat = 0 then (BitVec.ofNat 8 (leAt bs 0 1)).toInt else (BitVec.ofNat 16 (leAt bs 0 2)).toInt)
          else BitVec.ofNat 32 (leAt bs 0 (min 4 (2 ^ f.sz.toNat))))
      ∧ (f.sz.toNat = 3 → (t.core (coreNum c)).reg (f.rd.toNat + 1) = BitVec.ofNat 32 (leAt bs 4 4))
      ∧ (f.rb ≠ f.rd → ¬(f.sz.toNat = 3 ∧ f.rb.toNat = f.rd.toNat + 1) → (t.core (coreNum c)).reg f.rb.toNat
          = (if f.am.toNat = 1 then q.reg f.rb.toNat + BitVec.ofNat 32 (2 ^ f.sz.toNat)
            else if f.am.toNat = 2 then q.reg f.rb.toNat - BitVec.ofNat 32 (2 ^ f.sz.toNat)
            else q.reg f.rb.toNat))
      ∧ (∀ r, r ≠ f.rd.toNat → r ≠ f.rb.toNat → ¬(f.sz.toNat = 3 ∧ r = f.rd.toNat + 1) →
          (t.core (coreNum c)).reg r = q.reg r)
      ∧ OnlyCore c { q with
          g := (t.core (coreNum c)).g
          pc := q.pc + 4 } u t)
  ∧ (∀ (t' : Fin 32) (k : Fin 4) (a n pl : Nat) (s : State), a + n ≤ 0x4000 →
    coreLoadAs (coreNum (.truss t' k)) pl a n s = (.ok (Memory.read 0 (s.core (coreNum (.truss t' k))).loc a n), s))
  ∧ (∀ (c : CoreId) (f : FmtM) (k q : Core) (s u : State), Issues c false s → k = atIssue c false s → legalM f false = true →
    (addrM k f).toNat % 2 ^ f.sz.toNat = 0 → stackFault k f = false → q = u.core (coreNum c) →
    coreStore (coreNum c) (addrM k f).toNat
      (if f.sz.toNat = 3 then leBytes 4 (k.reg f.rd.toNat).toNat
          ++ leBytes 4 (k.reg (f.rd.toNat + 1)).toNat
        else leBytes (2 ^ f.sz.toNat) (k.reg f.rd.toNat).toNat) (fetched c false s) = (.ok [], u) →
    ∃ t, exec (.st c f) s = .next t
      ∧ (∀ r, r ≠ f.rb.toNat → (t.core (coreNum c)).reg r = q.reg r)
      ∧ (t.core (coreNum c)).reg f.rb.toNat
          = (if f.am.toNat = 1 then q.reg f.rb.toNat + BitVec.ofNat 32 (2 ^ f.sz.toNat)
            else if f.am.toNat = 2 then q.reg f.rb.toNat - BitVec.ofNat 32 (2 ^ f.sz.toNat)
            else q.reg f.rb.toNat)
      ∧ OnlyCore c { q with
          g := (t.core (coreNum c)).g
          pc := q.pc + 4 } u t)
  ∧ (∀ (t' : Fin 32) (k : Fin 4) (a : Nat) (bs : List Byte) (s : State), a + bs.length ≤ 0x4000 →
    ∃ u, coreStore (coreNum (.truss t' k)) a bs s = (.ok [], u)
      ∧ (∀ i, SMap.get 0 (u.core (coreNum (.truss t' k))).loc i
          = if a ≤ i ∧ i < a + bs.length then bs.getD (i - a) 0 else SMap.get 0 (s.core (coreNum (.truss t' k))).loc i)
      ∧ OnlyCore (.truss t' k) { s.core (coreNum (.truss t' k)) with loc := (u.core (coreNum (.truss t' k))).loc } s u)
  ∧ (∀ p ∈ memoryRows, ∀ (c : CoreId) (f : FmtM) (k : Core) (s : State), Issues c false s → k = atIssue c false s → legalM f p.2 = true →
    ((addrM k f).toNat % 2 ^ f.sz.toNat ≠ 0 →
      exec (p.1 c f) s = .next (faultHere (coreNum c) exAlign (fetched c false s)))
    ∧ ((addrM k f).toNat % 2 ^ f.sz.toNat = 0 → f.rb.toNat = 15 → f.am.toNat = 2 →
        ((k.reg 15).toNat : Int) - (2 ^ f.sz.toNat : Nat) < (k.slim.toNat : Int) →
      exec (p.1 c f) s = .next (faultHere (coreNum c) exStack (fetched c false s))))
  ∧ (∀ p ∈ [(Instr.ld, false), (Instr.lds, true)], ∀ (c : CoreId) (f : FmtM) (k : Core) (s u : State), Issues c false s → k = atIssue c false s →
    legalM f p.2 = true → (addrM k f).toNat % 2 ^ f.sz.toNat = 0 → stackFault k f = false →
    (coreLoad (coreNum c) (addrM k f).toNat (2 ^ f.sz.toNat) (fetched c false s) = (.refused, u) →
      exec (p.1 c f) s = .next (faultHere (coreNum c) exGate u))
    ∧ (coreLoad (coreNum c) (addrM k f).toNat (2 ^ f.sz.toNat) (fetched c false s) = (.failed, u) →
      exec (p.1 c f) s = .next (faultHere (coreNum c) exBus u))
    ∧ (coreLoad (coreNum c) (addrM k f).toNat (2 ^ f.sz.toNat) (fetched c false s) = (.stall, u) → exec (p.1 c f) s = .next u))
  ∧ (∀ (c : CoreId) (f : FmtM) (k : Core) (s u : State), Issues c false s → k = atIssue c false s → legalM f false = true →
    (addrM k f).toNat % 2 ^ f.sz.toNat = 0 → stackFault k f = false →
    (coreStore (coreNum c) (addrM k f).toNat (storeBytes k f) (fetched c false s) = (.refused, u) →
      exec (.st c f) s = .next (faultHere (coreNum c) exGate u))
    ∧ (coreStore (coreNum c) (addrM k f).toNat (storeBytes k f) (fetched c false s) = (.stall, u) → exec (.st c f) s = .next u))

/-- Table look-up and the resumable instructions (R275 to R277): TLI interpolates between the two points around x, clamped
to the last one; an element of TVI or BCOPY reads its word before it writes its own and IDX names the next; a group of
BSCAN ends at the first match, or goes on; with IDX at CNT nothing is done; a refused read leaves RD and IDX. -/
def Obligations.TablesAndRuns : Prop :=
  (∀ (c : CoreId) (f : FmtT) (k q : Core) (s u v : State) (x i fr : Nat) (lo hi : List Byte), Issues c false s → k = atIssue c false s → legalT f = true →
    x = (k.reg f.ra.toNat).toNat →
    i = (if f.n.toNat ≤ x / 2 ^ f.s.toNat then f.n.toNat - 1 else x / 2 ^ f.s.toNat) →
    fr = (if f.n.toNat ≤ x / 2 ^ f.s.toNat then 2 ^ f.s.toNat else x % 2 ^ f.s.toNat) →
    (k.reg f.rb.toNat).toNat % 4 = 0 →
    coreLoad (coreNum c) (k.reg f.rb.toNat + BitVec.ofNat 32 (4 * i)).toNat 4 (fetched c false s) = (.ok lo, u) →
    coreLoad (coreNum c) (k.reg f.rb.toNat + BitVec.ofNat 32 (4 * i) + 4).toNat 4 u = (.ok hi, v) →
    q = v.core (coreNum c) →
    ∃ t, exec (.tli c f) s = .next t
      ∧ OnlyCore c (Core.setReg { q with pc := q.pc + 4 } f.rd.toNat (BitVec.ofInt 32
            (tableWord (f.sgn == 1) (BitVec.ofNat 32 (leNat lo)) + rnd (fxRM k.fxctl)
              ((tableWord (f.sgn == 1) (BitVec.ofNat 32 (leNat hi)) - tableWord (f.sgn == 1) (BitVec.ofNat 32 (leNat lo))) * fr)
              (2 ^ f.s.toNat : Nat)))) v t)
  ∧ (∀ (c : CoreId) (f : FmtT) (k : Core) (s u : State), Issues c false s → k = atIssue c false s → legalT f = true →
    ((k.reg f.rb.toNat).toNat % 4 ≠ 0 →
      exec (.tli c f) s = .next (faultHere (coreNum c) exAlign (fetched c false s)))
    ∧ (∀ x i : Nat, x = (k.reg f.ra.toNat).toNat →
        i = (if f.n.toNat ≤ x / 2 ^ f.s.toNat then f.n.toNat - 1 else x / 2 ^ f.s.toNat) →
        (k.reg f.rb.toNat).toNat % 4 = 0 →
        coreLoad (coreNum c) (k.reg f.rb.toNat + BitVec.ofNat 32 (4 * i)).toNat 4 (fetched c false s) = (.refused, u) →
        exec (.tli c f) s = .next (faultHere (coreNum c) exGate u)))
  ∧ (∀ (c : CoreId) (f : FmtR) (k : Core) (s u v : State) (x : List Byte), Issues c false s → k = atIssue c false s → f.s = 0 →
    k.idx.toNat < k.cnt.toNat → (k.reg f.ra.toNat).toNat % 4 = 0 →
    (k.reg f.rd.toNat).toNat % 4 = 0 →
    coreLoad (coreNum c) (k.reg f.ra.toNat + 4 * k.idx).toNat 4 (fetched c false s) = (.ok x, u) →
    coreStore (coreNum c) (k.reg f.rd.toNat + 4 * k.idx).toNat
      (leBytes 4 (BitVec.ofNat 32 (leNat x)).toNat) u = (.ok [], v) → v.core (coreNum c) = { k with
          loc := (v.core (coreNum c)).loc } →
    ∃ t, exec (.bcopy c f) s = .next t
      ∧ OnlyCore c { k with
          loc := (v.core (coreNum c)).loc
          idx := k.idx + 1
          pc := if k.idx.toNat + 1 < k.cnt.toNat then k.pc
            else k.pc + 4 } v t)
  ∧ (∀ (c : CoreId) (f : FmtT) (k : Core) (s u v w : State) (x : List Byte) (y : Word), Issues c false s → k = atIssue c false s → legalT f = true →
    k.idx.toNat < k.cnt.toNat → (k.reg f.ra.toNat).toNat % 4 = 0 →
    (k.reg f.rd.toNat).toNat % 4 = 0 →
    coreLoad (coreNum c) (k.reg f.ra.toNat + 4 * k.idx).toNat 4 (fetched c false s) = (.ok x, u) →
    lookup (coreNum c) f (BitVec.ofNat 32 (leNat x)) u = (.ok y, v) →
    coreStore (coreNum c) (k.reg f.rd.toNat + 4 * k.idx).toNat (leBytes 4 y.toNat) v = (.ok [], w) →
    w.core (coreNum c) = { k with loc := (w.core (coreNum c)).loc } →
    ∃ t, exec (.tvi c f) s = .next t
      ∧ OnlyCore c { k with
          loc := (w.core (coreNum c)).loc
          idx := k.idx + 1
          pc := if k.idx.toNat + 1 < k.cnt.toNat then k.pc
            else k.pc + 4 } w t)
  ∧ (∀ (c : CoreId) (f : FmtR) (k : Core) (s u v : State) (x : List Byte), Issues c false s → k = atIssue c false s → f.s = 0 →
    k.idx.toNat < k.cnt.toNat → (k.reg f.ra.toNat).toNat % 4 = 0 →
    (k.reg f.rd.toNat).toNat % 4 = 0 →
    coreLoad (coreNum c) (k.reg f.ra.toNat + 4 * k.idx).toNat 4 (fetched c false s) = (.ok x, u) →
    coreStore (coreNum c) (k.reg f.rd.toNat + 4 * k.idx).toNat
      (leBytes 4 (BitVec.ofNat 32 (leNat x)).toNat) u = (.refused, v) →
    exec (.bcopy c f) s = .next (faultHere (coreNum c) exGate v))
  ∧ (∀ (c : CoreId) (f : FmtR) (g : FmtT) (k : Core) (s : State), Issues c false s → k = atIssue c false s → legalT g = true → f.s = 0 →
    k.idx.toNat < k.cnt.toNat →
    ((k.reg f.ra.toNat).toNat % 4 ≠ 0 ∨ (k.reg f.rd.toNat).toNat % 4 ≠ 0 →
      exec (.bcopy c f) s = .next (faultHere (coreNum c) exAlign (fetched c false s)))
    ∧ ((k.reg g.ra.toNat).toNat % 4 ≠ 0 ∨ (k.reg g.rd.toNat).toNat % 4 ≠ 0 ∨ (k.reg g.rb.toNat).toNat % 4 ≠ 0 →
      exec (.tvi c g) s = .next (faultHere (coreNum c) exAlign (fetched c false s))))
  ∧ (∀ (c : CoreId) (f : FmtR) (g : FmtT) (k : Core) (s : State), Issues c false s → k = atIssue c false s → legalT g = true → f.s = 0 →
    k.cnt.toNat ≤ k.idx.toNat →
    (∃ t, exec (.bcopy c f) s = .next t ∧ OnlyCore c { k with pc := k.pc + 4 } (fetched c false s) t)
    ∧ (∃ t, exec (.tvi c g) s = .next t ∧ OnlyCore c { k with pc := k.pc + 4 } (fetched c false s) t))
  ∧ (∀ (c : CoreId) (f : FmtR) (k : Core) (s : State) (sp want : Bool) (stop : Nat), Issues c false s → k = atIssue c false s →
    fieldsOk (s.core (coreNum c)).cnt (.bscan c f) = true → sp = f.s.getLsbD 0 → want = f.s.getLsbD 1 → BitsReady c sp s →
    stop = min (k.idx.toNat + 64) k.cnt.toNat →
    (∀ j, k.idx.toNat ≤ j → j < stop → bitAt (fetched c false s) (coreNum c) sp j = want →
      (∀ q, k.idx.toNat ≤ q → q < j → bitAt (fetched c false s) (coreNum c) sp q ≠ want) →
      ∃ t st, exec (.bscan c f) s = .next t ∧ flagZ st = false
        ∧ st &&& ~~~(4 : Word) = k.st &&& ~~~(4 : Word)
        ∧ OnlyCore c (Core.setReg { k with
          idx := BitVec.ofNat 32 j
          st := st
          pc := k.pc + 4 } f.rd.toNat (BitVec.ofNat 32 j)) (fetched c false s) t)
    ∧ (k.idx.toNat < stop →
      (∀ q, k.idx.toNat ≤ q → q < stop → bitAt (fetched c false s) (coreNum c) sp q ≠ want) →
      (stop < k.cnt.toNat → ∃ t, exec (.bscan c f) s = .next t
        ∧ OnlyCore c { k with idx := BitVec.ofNat 32 stop } (fetched c false s) t)
      ∧ (stop = k.cnt.toNat → ∃ t st, exec (.bscan c f) s = .next t ∧ flagZ st = true
        ∧ st &&& ~~~(4 : Word) = k.st &&& ~~~(4 : Word)
        ∧ OnlyCore c (Core.setReg { k with
          idx := k.cnt
          st := st
          pc := k.pc + 4 } f.rd.toNat 0xFFFFFFFF) (fetched c false s) t)))

/-- The bit instructions (R272, R274): each writes its one bit (BFST its run of bits) and leaves every other bit of both
spaces; those that test set Z where the bit was 0; BLD and BFLD write RD only. One of a truss bit waits for the core's earlier accesses
(R273). -/
def Obligations.BitInstructions : Prop :=
  (∀ p ∈ bitRows, ∀ (c : CoreId) (f : FmtX1) (k : Core) (s : State) (i : Nat), Issues c false s → k = atIssue c false s → fieldsOk 0 (p.1 c f) = true →
    BitsReady c (f.sp == 1) s →
    i = (if f.ind = 1 then (f.bn.toNat + (k.reg f.ra.toNat).toNat) % (if f.sp = 1 then 256 else 4096)
      else f.bn.toNat) →
    ∃ t st, exec (p.1 c f) s = .next t
      ∧ (if p.2.1 then flagZ st = !(bitAt (fetched c false s) (coreNum c) (f.sp == 1) i)
          ∧ st &&& ~~~(4 : Word) = k.st &&& ~~~(4 : Word) else st = k.st)
      ∧ OnlyBit c (f.sp == 1) i (p.2.2 (bitAt (fetched c false s) (coreNum c) (f.sp == 1) i)) { k with
          st := st
          pc := k.pc + 4 } (fetched c false s) t)
  ∧ (∀ p ∈ bitPairRows, ∀ (c : CoreId) (f : FmtX3) (k : Core) (s : State), Issues c false s → k = atIssue c false s → fieldsOk 0 (p.1 c f) = true →
    BitsReady c (f.spd == 1 || f.sps == 1) s →
    ∃ t, exec (p.1 c f) s = .next t
      ∧ OnlyBit c (f.spd == 1) f.bd.toNat (p.2 (bitAt (fetched c false s) (coreNum c) (f.spd == 1) f.bd.toNat)
          (bitAt (fetched c false s) (coreNum c) (f.sps == 1) f.bs.toNat)) { k with
          pc := k.pc + 4 } (fetched c false s) t)
  ∧ (∀ (c : CoreId) (f : FmtX2) (k : Core) (s : State), Issues c false s → k = atIssue c false s → fieldsOk 0 (.bst c f) = true →
    BitsReady c (f.sp == 1) s →
    ∃ t, exec (.bst c f) s = .next t
      ∧ OnlyBit c (f.sp == 1) f.bn.toNat ((k.reg f.rd.toNat).getLsbD f.p.toNat) { k with
          pc := k.pc + 4 } (fetched c false s) t)
  ∧ (∀ (c : CoreId) (f : FmtX2) (k : Core) (s : State), Issues c false s → k = atIssue c false s → fieldsOk 0 (.bld c f) = true →
    BitsReady c (f.sp == 1) s →
    ∃ t r, exec (.bld c f) s = .next t
      ∧ (∀ j, j < 32 → r.getLsbD j = if j = f.p.toNat then bitAt (fetched c false s) (coreNum c) (f.sp == 1) f.bn.toNat
          else (k.reg f.rd.toNat).getLsbD j)
      ∧ OnlyCore c (Core.setReg { k with pc := k.pc + 4 } f.rd.toNat r) (fetched c false s) t)
  ∧ (∀ (c : CoreId) (f : FmtX2) (k : Core) (s : State), Issues c false s → k = atIssue c false s → fieldsOk 0 (.bfld c f) = true →
    BitsReady c (f.sp == 1) s →
    ∃ t r, exec (.bfld c f) s = .next t
      ∧ (∀ j, j < 32 → r.getLsbD j
          = (decide (j ≤ f.p.toNat) && bitAt (fetched c false s) (coreNum c) (f.sp == 1) (f.bn.toNat + j)))
      ∧ OnlyCore c (Core.setReg { k with pc := k.pc + 4 } f.rd.toNat r) (fetched c false s) t)
  ∧ (∀ (c : CoreId) (f : FmtX2) (k : Core) (s : State), Issues c false s → k = atIssue c false s → fieldsOk 0 (.bfst c f) = true →
    BitsReady c (f.sp == 1) s →
    ∃ t, exec (.bfst c f) s = .next t
      ∧ (∀ j, j ≤ f.p.toNat → bitAt t (coreNum c) (f.sp == 1) (f.bn.toNat + j) = (k.reg f.rd.toNat).getLsbD j)
      ∧ (∀ q j, ¬(q = (f.sp == 1) ∧ f.bn.toNat ≤ j ∧ j ≤ f.bn.toNat + f.p.toNat) →
          bitAt t (coreNum c) q j = bitAt (fetched c false s) (coreNum c) q j)
      ∧ (t.core (coreNum c)).g = k.g ∧ (t.core (coreNum c)).st = k.st
      ∧ (t.core (coreNum c)).pc = k.pc + 4 ∧ (∀ m, (t.truss m).sram = ((fetched c false s).truss m).sram)
      ∧ SameOutside [.cores, .trusses] (fetched c false s) t)
  ∧ (∀ (c : CoreId) (f : FmtX4) (k : Core) (s : State), Issues c false s → k = atIssue c false s → fieldsOk 0 (.bb c f) = true →
    BitsReady c (f.sp == 1) s →
    ∃ t, exec (.bb c f) s = .next t
      ∧ OnlyCore c { k with
          pc := if bitAt (fetched c false s) (coreNum c) (f.sp == 1) f.bn.toNat = (f.pol == 1)
            then k.pc + 4 * f.disp.signExtend 32 else k.pc + 4 } (fetched c false s) t)
  ∧ (∀ (c : CoreId) (s : State), Issues c false s → accessesDone (fetched c false s) (coreNum c) = false →
    (∀ p ∈ bitRows, ∀ f : FmtX1, fieldsOk 0 (p.1 c f) = true → f.sp = 1 → exec (p.1 c f) s = .next (fetched c false s))
    ∧ (∀ p ∈ bitPairRows, ∀ f : FmtX3, fieldsOk 0 (p.1 c f) = true → f.spd = 1 ∨ f.sps = 1 →
      exec (p.1 c f) s = .next (fetched c false s))
    ∧ (∀ p ∈ [Instr.bst, Instr.bld, Instr.bfld, Instr.bfst], ∀ f : FmtX2, fieldsOk 0 (p c f) = true → f.sp = 1 →
      exec (p c f) s = .next (fetched c false s)))

/-- Branches, special registers, FENCE, IFENCE, WAIT and NOP (R252, R254, R265, R286): where each goes, what each special
register reads and takes at which level, and that User level is refused what it may not do. -/
def Obligations.ControlInstructions : Prop :=
  (∀ (c : CoreId) (f : FmtB) (k : Core) (s : State) (h : f.cond.toNat < condRows.length), Issues c false s → k = atIssue c false s →
    ∃ t, exec (.bCond c f) s = .next t
      ∧ OnlyCore c { k with
          pc := if condRows[f.cond.toNat] (flagN k.st) (flagZ k.st)
              (flagC k.st) (flagV k.st)
            then k.pc + 4 * f.disp.signExtend 32 else k.pc + 4 } (fetched c false s) t)
  ∧ (∀ (c : CoreId) (f : FmtB) (k : Core) (s : State), Issues c false s → k = atIssue c false s → f.cond.toNat = 14 →
    ∃ t, exec (.bl c f) s = .next t
      ∧ OnlyCore c (Core.setReg { k with pc := k.pc + 4 * f.disp.signExtend 32 } 14 (k.pc + 4)) (fetched c false s) t)
  ∧ (∀ (c : CoreId) (f : FmtJ) (k : Core) (s : State), Issues c false s → k = atIssue c false s → f.z = 0 →
    ((k.reg f.ra.toNat).toNat % 4 = 0 → ∃ t, exec (.jr c f) s = .next t
      ∧ OnlyCore c (if f.l = 1 then Core.setReg { k with pc := k.reg f.ra.toNat } f.rd.toNat (k.pc + 4)
          else { k with pc := k.reg f.ra.toNat }) (fetched c false s) t)
    ∧ ((k.reg f.ra.toNat).toNat % 4 ≠ 0 →
      exec (.jr c f) s = .next (faultHere (coreNum c) exAlign (fetched c false s))))
  ∧ (∀ (c : CoreId) (f : FmtR) (k : Core) (s : State) (h : specialNo f < specialLevels.length), Issues c false s → k = atIssue c false s →
    k.pl ≤ 2 →
    (levelOk k.pl specialLevels[specialNo f].1 = true →
      (∀ v, specialValue k (specialNo f) = some v ∨ specialNo f = 11 ∧ v = coreId (fetched c false s) (coreNum c) →
        ∃ t, exec (.mfs c f) s = .next t
          ∧ OnlyCore c (Core.setReg { k with pc := k.pc + 4 } f.rd.toNat v) (fetched c false s) t)
      ∧ (specialNo f = 12 → ∃ t d, exec (.mfs c f) s = .next t ∧ d < 65536
          ∧ t.core (coreNum c) = (Core.setReg { k with
          cycHi := BitVec.ofNat 32 (k.clock.toNat / 2 ^ 32)
          pc := k.pc + 4 } f.rd.toNat (BitVec.ofNat 32 (k.clock.toNat + d)))
          ∧ SameOutside [.cores, .free] (fetched c false s) t))
    ∧ (levelOk k.pl specialLevels[specialNo f].1 = false →
      exec (.mfs c f) s = .next (faultHere (coreNum c) exPrivileged (fetched c false s)))
    ∧ (levelOk k.pl specialLevels[specialNo f].2 = false →
      exec (.mts c f) s = .next (faultHere (coreNum c) exPrivileged (fetched c false s))))
  ∧ (∀ (c : CoreId) (f : FmtR) (k : Core) (s : State) (v : Word) (h : specialNo f < specialLevels.length), Issues c false s → k = atIssue c false s →
    k.pl ≤ 2 → levelOk k.pl specialLevels[specialNo f].2 = true →
    v = k.reg f.ra.toNat →
    (∀ m, (specialNo f, m) ∈ maskedRows → ∃ t, exec (.mts c f) s = .next t
      ∧ specialValue (t.core (coreNum c)) (specialNo f) = some (v &&& m)
      ∧ (∀ j, j ≠ specialNo f → specialValue (t.core (coreNum c)) j = specialValue k j)
      ∧ (t.core (coreNum c)).g = k.g ∧ (t.core (coreNum c)).pc = k.pc + 4
      ∧ SameOutside [.cores] (fetched c false s) t)
    ∧ (∀ m : Word, specialNo f = 0 ∧ m = (if k.pl = 2 then 0xF else 0x40F) ∨ specialNo f = 2 ∧ m = 0xF0F →
      ∃ t w, exec (.mts c f) s = .next t ∧ w &&& m = v &&& m
        ∧ some (w &&& ~~~m) = (specialValue k (specialNo f)).map (· &&& ~~~m)
        ∧ OnlyCore c { k with
            st := if specialNo f = 0 then w else k.st
            xst := if specialNo f = 0 then k.xst else w
            pc := k.pc + 4 } (fetched c false s) t)
    ∧ (specialNo f = 5 → ∃ t, exec (.mts c f) s = .next t
      ∧ OnlyCore c { k with
          gtlim := if v.toNat % 32768 ≤ 16384 then BitVec.ofNat 32 (v.toNat % 32768) else k.gtlim
          pc := k.pc + 4 } (fetched c false s) t)
    ∧ (specialNo f = 6 → v.toNat % 64 ≤ k.frames.length → ∃ t fr, exec (.mts c f) s = .next t
      ∧ fr.length = v.toNat % 64 ∧ fr <:+ k.frames
      ∧ OnlyCore c { k with
          frames := fr
          pc := k.pc + 4 } (fetched c false s) t)
    ∧ (specialNo f = 6 → k.frames.length < v.toNat % 64 →
      exec (.mts c f) s = .next (faultHere (coreNum c) exPrivileged (fetched c false s))))
  ∧ (∀ (c : CoreId) (f : FmtR) (k : Core) (s : State), Issues c false s → k = atIssue c false s →
    (∃ t, exec (.nopInstruction c f) s = .next t ∧ OnlyCore c { k with pc := k.pc + 4 } (fetched c false s) t)
    ∧ (accessesDone (fetched c false s) (coreNum c) = true →
      ∃ t, exec (.fence c f) s = .next t ∧ OnlyCore c { k with pc := k.pc + 4 } (fetched c false s) t)
    ∧ (accessesDone (fetched c false s) (coreNum c) = false → exec (.fence c f) s = .next (fetched c false s)))
  ∧ (∀ (c : CoreId) (f : FmtR) (k : Core) (s : State), Issues c false s → k = atIssue c false s →
    (k.pl ≠ 2 → ∃ t, exec (.ifence c f) s = .next t
      ∧ OnlyCore c { k with
          icache := []
          pc := k.pc + 4 } (fetched c false s) t)
    ∧ (k.pl = 2 → exec (.ifence c f) s = .next (faultHere (coreNum c) exPrivileged (fetched c false s))))
  ∧ (∀ (c : CoreId) (f : FmtR) (k : Core) (s : State), Issues c false s → k = atIssue c false s → k.forging = false →
    ∃ t, exec (.wait c f) s = .next t
      ∧ OnlyCore c { k with
          phase := if pendingInterrupts (fetched c false s) (coreNum c) = [] then .waiting else k.phase
          pc := k.pc + 4 } (fetched c false s) t)

/-! ### Privilege and exceptions (09_privilege_exceptions.md) -/

/-- Taking an exception or interrupt (R282, R288 to R293, R302 to R306): a usable entry pushes a frame with the level and, where
the level changes, g15 and SLIM; XPC and XST are written, the level becomes TPL, GIE is cleared and the PC is the handler; a
31st held frame makes it SSTACK, a 32nd or an unusable entry a forgery; a pair of Pavane cores that differs has no effect but
LOCKSTEP, and a read of the vector that must wait holds the core until it can be made. The first pending input in the order
SYSTEM, WMA, TICK is taken and its latch cleared; without one due nothing is taken. A detected imprecise exception is taken at
the next boundary, with XPC at the instruction not yet issued. A TICK zeroes bits 15:0 of the clock count and latches. -/
def Obligations.ExceptionEntry : Prop :=
  (∀ (c : CoreId) (cause : Nat) (xpc : Word) (k : Core) (s u : State) (b : List Byte), NoPair c s → k = s.core (coreNum c) →
    k.frames.length ≤ 31 → u.core (coreNum c) = k → vectorWaits (coreNum c) (enteredCause k cause) s = false →
    readEntry (coreNum c) (k.vbase.toNat + (4 * enteredCause k cause + vectorLevel (enteredCause k cause) k.pl) * 16) s = (some b, u) →
    (entryUsable b (vectorLevel (enteredCause k cause) k.pl) →
      ∃ k', OnlyCore c k' u (takeException (coreNum c) cause xpc s) ∧ Entered k k' b xpc false)
    ∧ (¬entryUsable b (vectorLevel (enteredCause k cause) k.pl) →
      takeException (coreNum c) cause xpc s = privForge (coreNum c) 2 xpc u))
  ∧ (∀ (c : CoreId) (cause : Nat) (xpc : Word) (k : Core) (s u : State), NoPair c s → k = s.core (coreNum c) → k.frames.length ≤ 31 →
    vectorWaits (coreNum c) (enteredCause k cause) s = false →
    readEntry (coreNum c) (k.vbase.toNat + (4 * enteredCause k cause + vectorLevel (enteredCause k cause) k.pl) * 16) s = (none, u) →
    takeException (coreNum c) cause xpc s = privForge (coreNum c) 2 xpc u)
  ∧ (∀ (c : CoreId) (cause : Nat) (xpc : Word) (k : Core) (s : State), NoPair c s → k = s.core (coreNum c) → k.frames.length ≤ 31 →
    vectorWaits (coreNum c) (enteredCause k cause) s = true →
    OnlyCore c { k with
        parked := some (cause, xpc)
        phase := .running } s (takeException (coreNum c) cause xpc s))
  ∧ (∀ (c : CoreId) (cause : Nat) (xpc : Word) (s : State), NoPair c s → 32 ≤ (s.core (coreNum c)).frames.length →
    takeException (coreNum c) cause xpc s = privForge (coreNum c) 3 xpc s)
  ∧ (∀ (c : CoreId) (cause : Nat) (xpc : Word) (s : State), ¬NoPair c s → ∃ differs u,
    pairDiffers (coreNum c) s = (differs, u) ∧ SameOutside [.free] s u
      ∧ (differs = true → takeException (coreNum c) cause xpc s = pairMismatch (coreNum c) u))
  ∧ (∀ (c : CoreId) (k : Core) (s u : State) (i : Nat) (b : List Byte), k = s.core (coreNum c) → mayInterrupt s (coreNum c) = true →
    i = (if c = .warden ∧ systemPending s = true then 16 else if k.intWma = true then 17 else 18) → k.frames.length < 31 →
    NoPair c s → vectorWaits (coreNum c) i (dropWaiter (coreNum c) s) = false →
    u.core (coreNum c) = k → readEntry (coreNum c) (k.vbase.toNat + (4 * i + k.pl) * 16) (dropWaiter (coreNum c) s) = (some b, u) →
    entryUsable b k.pl →
    ∃ t, exec (.interruptTaken c) s = .next t ∧ Entered k (t.core (coreNum c)) b k.pc false
      ∧ (t.core (coreNum c)).intWma = (k.intWma && decide (i ≠ 17)) ∧ (t.core (coreNum c)).intTick = (k.intTick && decide (i ≠ 18))
      ∧ (∀ m, m ≠ coreNum c → t.core m = u.core m) ∧ SameOutside [.cores] u t)
  ∧ (∀ (c : CoreId) (s : State), mayInterrupt s (coreNum c) = false →
    exec (.interruptTaken c) s = .next (unpark (coreNum c) s) ∧ ((s.core (coreNum c)).parked = none → exec (.interruptTaken c) s = .next s))
  ∧ (∀ (c : CoreId) (k : Core) (s : State), k = s.core (coreNum c) → coreClocked s (coreNum c) = true → k.phase ≠ .stopped →
    (∀ cause xpc, k.parked = some (cause, xpc) → cause ≠ 10 →
      exec (.impreciseException c) s = .next (unpark (coreNum c) s)
      ∧ (vectorWaits (coreNum c) cause s = true → unpark (coreNum c) s = s)
      ∧ (vectorWaits (coreNum c) cause s = false → ∀ e u,
        takeEntry (coreNum c) cause xpc (s.updCore (coreNum c) fun x => { x with parked := none }) = (e, u) →
        unpark (coreNum c) s = if e = .own then clearLatch (coreNum c) cause u else u))
    ∧ (∀ cause e u, k.parked = none → k.imprec = some cause → atBoundary s (coreNum c) = true →
      takeEntry (coreNum c) cause k.pc (dropWaiter (coreNum c) s) = (e, u) →
      exec (.impreciseException c) s
        = .next (if e = .differs then u else u.updCore (coreNum c) fun x => { x with imprec := none }))
    ∧ (k.parked = none → k.imprec.isSome = true → atBoundary s (coreNum c) = false → exec (.impreciseException c) s = .next s)
    ∧ (∀ l ls, k.parked = none → k.imprec = none → k.late = l :: ls → exec (.impreciseException c) s
      = exec (.impreciseException c) (s.updCore (coreNum c) fun x => { x with
          imprec := some 8
          late := ls }))
    ∧ (k.parked = none → k.imprec = none → k.late = [] → ∃ t, exec (.impreciseException c) s = .next t ∧ OnlyCore c k s t))
  ∧ (∀ (c : CoreId) (k : Core) (s : State), k = s.core (coreNum c) → coreClocked s (coreNum c) = true → k.phase ≠ .stopped →
    ∃ t cl, exec (.tick c) s = .next t ∧ cl.toNat % 65536 = 0
      ∧ (k.clock.toNat + 65536 < 2 ^ 64 → k.clock.toNat < cl.toNat ∧ cl.toNat ≤ k.clock.toNat + 65536)
      ∧ OnlyCore c { k with
          clock := cl
          intTick := true } s t)

/-- RETX, GATE and privilege forgery (R284, R290, R294 to R300): a RETX whose XST holds the top frame's witness, at the
same or a lower level, pops the frame and restores g15, SLIM, the status and the PC; any other is a forgery and leaves the
frame; at User level both are refused. GATE through an entry that passes every check transfers with XPC behind it and keeps
GIE where the entry says so; a failed check raises CALLGATE; a read of its table that must wait lets it not go on. A forgery sets the truss's report bit; QUARANTINE stops its
cores and sets its quarantine bit. -/
def Obligations.ReturnsGatesForgeries : Prop :=
  (∀ (c : CoreId) (f : FmtR) (k : Core) (s : State), Issues c false s → k = atIssue c false s → k.pl ≠ 2 →
    k.pl ≤ k.xst.toNat / 256 % 4 → (∀ g gs, k.frames = g :: gs → k.xst.toNat / 256 % 4 = g.witness) →
    ∃ t k', exec (.retx c f) s = .next t ∧ OnlyCore c k' (fetched c false s) t ∧ k'.pc = k.xpc ∧ k'.frames = k.frames.tail
      ∧ (k.frames.head?.bind (·.saved) = none → k'.g = k.g ∧ k'.slim = k.slim)
      ∧ (∀ g l, k.frames.head?.bind (·.saved) = some (g, l) → k'.reg 15 = g ∧ k'.slim = l ∧ (∀ r, r ≠ 15 → k'.reg r = k.reg r))
      ∧ (c ≠ .warden → k'.st &&& 0x70F = k.xst &&& 0x70F ∧ k'.st &&& 0xFFFFF8F0 = k.st &&& 0xFFFFF8F0)
      ∧ (c = .warden → k'.st &&& 0x40F = k.xst &&& 0x40F ∧ k'.st &&& 0xFFFFFBF0 = k.st &&& 0xFFFFFBF0)
      ∧ k'.a = k.a ∧ k'.xpc = k.xpc ∧ k'.xst = k.xst ∧ k'.loc = k.loc ∧ k'.bits = k.bits)
  ∧ (∀ (c : CoreId) (f : FmtR) (k : Core) (s : State), Issues c false s → k = atIssue c false s → k.pl ≠ 2 →
    k.xst.toNat / 256 % 4 < k.pl ∨ (∃ g gs, k.frames = g :: gs ∧ k.xst.toNat / 256 % 4 ≠ g.witness) →
    exec (.retx c f) s = .next (privForge (coreNum c) 1 k.pc (fetched c false s)))
  ∧ (∀ (c : CoreId) (f : FmtR) (s : State), Issues c false s → (atIssue c false s).pl = 2 →
    exec (.retx c f) s = .next (faultHere (coreNum c) exPrivileged (fetched c false s)))
  ∧ (∀ (c : CoreId) (f : FmtG) (k : Core) (s u : State) (b : List Byte), Issues c false s → k = atIssue c false s → f.z = 0 →
    f.index.toNat < k.gtlim.toNat % 32768 → k.frames.length < 31 → u.core (coreNum c) = k →
    entryWaits (coreNum c) (k.gtbase.toNat + 16 * f.index.toNat) (fetched c false s) = false →
    readEntry (coreNum c) (k.gtbase.toNat + 16 * f.index.toNat) (fetched c false s) = (some b, u) →
    (leAt b 4 4).testBit 31 = true → leAt b 4 4 / 32 % 8 = 0 → leAt b 4 4 / 65536 % 32768 = 0 → leAt b 0 4 % 4 = 0 →
    k.pl ≤ leAt b 4 4 / 4 % 4 → leAt b 4 4 % 4 ≤ k.pl →
    (∀ j, j < 4 → leAt b 4 4 / 2 ^ (8 + 2 * j) % 4 = 0 ∨ (k.reg (j + 4)).toNat = 0
      ∨ ((k.reg j).toNat + (k.reg (j + 4)).toNat ≤ 2 ^ 32
        ∧ (leAt b 4 4 / 2 ^ (8 + 2 * j) % 2 = 1 →
            (coreAdmits u (coreNum c) k.pl (k.reg j).toNat (k.reg (j + 4)).toNat kRead).1 = .pass)
        ∧ (2 ≤ leAt b 4 4 / 2 ^ (8 + 2 * j) % 4 →
            (coreAdmits u (coreNum c) k.pl (k.reg j).toNat (k.reg (j + 4)).toNat kWrite).1 = .pass))) →
    ∃ t k', exec (.gate c f) s = .next t ∧ OnlyCore c k' u t ∧ Entered k k' b (k.pc + 4) ((leAt b 4 4).testBit 4))
  ∧ (∀ (c : CoreId) (f : FmtG) (k : Core) (s : State), Issues c false s → k = atIssue c false s → f.z = 0 →
    (k.gtlim.toNat % 32768 ≤ f.index.toNat → exec (.gate c f) s = .next (faultHere (coreNum c) exCallgate (fetched c false s)))
    ∧ (f.index.toNat < k.gtlim.toNat % 32768 →
      entryWaits (coreNum c) (k.gtbase.toNat + 16 * f.index.toNat) (fetched c false s) = true →
      exec (.gate c f) s = .next (fetched c false s)))
  ∧ (∀ (c : CoreId) (f : FmtG) (k : Core) (s u : State) (b : List Byte), Issues c false s → k = atIssue c false s → f.z = 0 →
    f.index.toNat < k.gtlim.toNat % 32768 → u.core (coreNum c) = k →
    entryWaits (coreNum c) (k.gtbase.toNat + 16 * f.index.toNat) (fetched c false s) = false →
    readEntry (coreNum c) (k.gtbase.toNat + 16 * f.index.toNat) (fetched c false s) = (some b, u) →
    (leAt b 4 4).testBit 31 = false ∨ leAt b 0 4 % 4 ≠ 0 ∨ leAt b 4 4 / 4 % 4 < k.pl ∨ k.pl < leAt b 4 4 % 4
      ∨ (∃ j, j < 4 ∧ leAt b 4 4 / 2 ^ (8 + 2 * j) % 4 ≠ 0 ∧ (k.reg (j + 4)).toNat ≠ 0
        ∧ 2 ^ 32 < (k.reg j).toNat + (k.reg (j + 4)).toNat) →
    exec (.gate c f) s = .next (faultHere (coreNum c) exCallgate u))
  ∧ (∀ (t' : Fin 32) (j : Fin 4) (kind : Nat) (xpc : Word) (s : State),
    (privForge (coreNum (.truss t' j)) kind xpc s).sys.forge.getLsbD t'.val = true)
  ∧ (∀ (kind : Nat) (xpc : Word) (k : Core) (s u : State) (b : List Byte), k = s.core 128 → k.frames.length < 32 →
    u.core 128 = k → vectorWaits 128 10 (dropWaiter 128 (raise srcPrivForge [BitVec.ofNat 8 kind, 0x3F, 0] s)) = false →
    readEntry 128 (k.vbase.toNat + 640)
      (dropWaiter 128 (raise srcPrivForge [BitVec.ofNat 8 kind, 0x3F, 0] s)) = (some b, u) → entryUsable b 0 →
    ∃ k', OnlyCore .warden k' u (privForge 128 kind xpc s) ∧ Entered k k' b xpc false ∧ k'.forging = true)
  ∧ (∀ (c : CoreId) (t' : Fin 32) (j : Fin 4) (s : State), c = .truss t' j → s.sys.forge.getLsbD t'.val = true →
    s.sys.quar.getLsbD t'.val = false →
    ∃ t, exec (.quarantine c) s = .next t ∧ t.sys.quar = s.sys.quar ||| BitVec.ofNat 32 (2 ^ t'.val)
      ∧ (∀ m, m / 4 = t'.val → (t.core m).phase = .stopped) ∧ (∀ m, m / 4 ≠ t'.val → t.core m = s.core m)
      ∧ SameOutside [.cores, .rfb, .sys, .tel, .img, .eav] s t)
  ∧ (∀ (s : State), (s.core 128).forging = true → ∃ t, exec (.quarantine .warden) s = .next t
    ∧ OnlyCore .warden { s.core 128 with
        phase := .stopped
        forging := false } s t)
  ∧ (∀ (c : CoreId) (f : FmtR) (s : State), Issues c false s → (atIssue c false s).forging = true →
    exec (.wait c f) s = .next (endForge (coreNum c) (fetched c false s)))

/-! ### The Reed fabric (10_reed_fabric.md) -/

/-- Building a packet (R311, R312, R316, R319, R320): OPEN starts it with its type, destination and function, and records
NOT_PERMITTED for a destination that is not the producer's; PUTW and PUTB append words and take cells, or record RANGE or
EXHAUSTED; COMMIT makes it visible whole at its queue or sink with the source word that the fabric writes, or returns its
cells and the first error, once the core's WMA accesses are complete; ABORT discards it. -/
def Obligations.ReedProducer : Prop :=
  (∀ (c : CoreId) (o : ReedOp) (arg : Word) (k : Core) (x : Nat) (s u : State), ReedIssues 1 c o arg k x s u →
    ((prodOf u x).isOpen = false → ∃ t, exec (.reedOpen c o) s = .next t
      ∧ prodOf t x = {
          isOpen := true
          typ := o.imm.toNat
          dest := arg.toNat % 2048
          sink := arg.toNat.testBit 11
          fn := if arg.toNat.testBit 22 then some (arg.toNat / 65536 % 64) else none
          words := []
          err := if mayCommit u (coreNum c) (arg.toNat.testBit 11) (arg.toNat % 2048) then none else some 8
          discarded := false }
      ∧ OnlyProducer x u t ∧ t.rfb.used = u.rfb.used ∧ WentOn c k u t)
    ∧ ((prodOf u x).isOpen = true → ∃ t, exec (.reedOpen c o) s = .next t
      ∧ prodOf t x = { prodOf u x with err := if (prodOf u x).err = none ∧ (prodOf u x).discarded = false then some 2 else (prodOf u x).err }
      ∧ OnlyProducer x u t ∧ t.rfb.used = u.rfb.used ∧ WentOn c k u t))
  ∧ (∀ (c : CoreId) (o : ReedOp) (arg : Word) (k : Core) (x : Nat) (p : ProdCtx) (s u : State), ReedIssues 2 c o arg k x s u →
    p = prodOf u x →
    (TakesWords p → p.words.length < 1024 → moreCells p 1 ≤ cellsFree u (ctxGable u x) → ∃ t, exec (.putw c o) s = .next t
      ∧ prodOf t x = { p with words := p.words ++ [arg] } ∧ OnlyProducer x u t
      ∧ cellsUsed t (ctxGable u x) = cellsUsed u (ctxGable u x) + moreCells p 1 ∧ WentOn c k u t)
    ∧ (TakesWords p → p.words.length = 1024 → ∃ t, exec (.putw c o) s = .next t
      ∧ prodOf t x = { p with err := some 4 } ∧ OnlyProducer x u t ∧ t.rfb.used = u.rfb.used ∧ WentOn c k u t)
    ∧ (TakesWords p → p.words.length < 1024 → cellsFree u (ctxGable u x) < moreCells p 1 → ∃ t, exec (.putw c o) s = .next t
      ∧ prodOf t x = { p with err := some 5 } ∧ OnlyProducer x u t ∧ t.rfb.used = u.rfb.used ∧ WentOn c k u t)
    ∧ (¬TakesWords p → ∃ t, exec (.putw c o) s = .next t
      ∧ prodOf t x = p ∧ OnlyProducer x u t ∧ t.rfb.used = u.rfb.used ∧ WentOn c k u t))
  ∧ (∀ (c : CoreId) (o : ReedOp) (arg : Word) (k : Core) (x : Nat) (p : ProdCtx) (bs : List Byte) (s u : State),
    ReedIssues 3 c o arg k x s u → p = prodOf u x → arg.toNat % 4 = 0 → putSource (coreNum c) arg.toNat = true →
    (coreLoad (coreNum c) arg.toNat o.imm.toNat u = (.ok bs, u) → TakesWords p → p.words.length + (wordsOf bs).length ≤ 1024 →
      moreCells p (wordsOf bs).length ≤ cellsFree u (ctxGable u x) → ∃ t, exec (.putb c o) s = .next t
      ∧ prodOf t x = { p with words := p.words ++ wordsOf bs } ∧ OnlyProducer x u t
      ∧ cellsUsed t (ctxGable u x) = cellsUsed u (ctxGable u x) + moreCells p (wordsOf bs).length ∧ WentOn c k u t)
    ∧ (∀ v, coreLoad (coreNum c) arg.toNat o.imm.toNat u = (.refused, v) →
      exec (.putb c o) s = .next (faultHere (coreNum c) exGate v)))
  ∧ (∀ (c : CoreId) (o : ReedOp) (arg : Word) (k : Core) (x : Nat) (p : ProdCtx) (s u : State), ReedIssues 4 c o arg k x s u →
    p = prodOf u x →
    (accessesDone u (coreNum c) = false → exec (.reedCommit c o) s = .next u)
    ∧ (accessesDone u (coreNum c) = true → TakesWords p → p.words ≠ [] → p.sink = false → (queueOwner u p.dest).isSome = true → ∃ t pk, exec (.reedCommit c o) s = .next t
      ∧ queueOf t p.dest = queueOf u p.dest ++ [pk] ∧ (∀ q, q ≠ p.dest → queueOf t q = queueOf u q)
      ∧ pk.typ = p.typ ∧ pk.words = p.words ∧ pk.fn = p.fn ∧ pk.src = sourceWord u (coreNum c) k.pl p.fn
      ∧ pk.prod = gableOfCore u (coreNum c) ∧ prodOf t x = {} ∧ (∀ y, y ≠ x → prodOf t y = prodOf u y) ∧ t.rfb.used = u.rfb.used
      ∧ WentOn c (k.setReg o.rd.toNat 0) u t)
    ∧ (accessesDone u (coreNum c) = true → TakesWords p → p.words ≠ [] → p.sink = true → p.dest = 0 → p.typ = 2 ∨ p.typ = 3 → ∃ t pk, exec (.reedCommit c o) s = .next t
      ∧ t.rfb.sink0 = u.rfb.sink0 ++ [pk] ∧ pk.typ = p.typ ∧ pk.words = p.words ∧ t.rfb.queues = u.rfb.queues
      ∧ prodOf t x = {} ∧ WentOn c (k.setReg o.rd.toNat 0) u t)
    ∧ (accessesDone u (coreNum c) = true → TakesWords p → p.words ≠ [] → p.sink = true → p.dest = 1 →
      (0x10 ≤ p.typ ∧ p.typ ≤ 0x12) ∨ (c = .warden ∧ 0x18 ≤ p.typ ∧ p.typ ≤ 0x1F) → u.rfb.sink1 = [] →
      ∃ t, exec (.reedCommit c o) s = .next t
      ∧ t.rfb.sink1 = [] ∧ t.rfb.queues = u.rfb.queues ∧ t.rfb.sink0 = u.rfb.sink0 ∧ prodOf t x = {}
      ∧ cellsUsed t (ctxGable u x) = cellsUsed u (ctxGable u x) - cellsOf p.words.length
      ∧ (t.core (coreNum c)).reg o.rd.toNat = 0 ∧ (t.core (coreNum c)).pc = k.pc + 8)
    ∧ (accessesDone u (coreNum c) = true → ∀ st : Nat, (p.isOpen = false ∧ st = 2) ∨ (p.isOpen = true ∧ p.err = some st ∧ st ≠ 0 ∧ st < 16)
        ∨ (p.isOpen = true ∧ p.err = none ∧ p.discarded = true ∧ st = 6)
        ∨ (TakesWords p ∧ p.words = [] ∧ st = 4)
        ∨ (TakesWords p ∧ p.words ≠ [] ∧ p.sink = true ∧ p.dest = 0 ∧ p.typ ≠ 2 ∧ p.typ ≠ 3 ∧ st = 8)
        ∨ (TakesWords p ∧ p.words ≠ [] ∧ p.sink = false ∧ queueOwner u p.dest = none ∧ st = 6) →
      ∃ t, exec (.reedCommit c o) s = .next t ∧ prodOf t x = {} ∧ OnlyProducer x u t
      ∧ cellsUsed t (ctxGable u x) = cellsUsed u (ctxGable u x) - cellsOf p.words.length
      ∧ (st = 8 → t.rfb.cause.getLsbD 1 = true) ∧ (st = 5 → t.rfb.cause.getLsbD 0 = true)
      ∧ WentOn c (k.setReg o.rd.toNat (BitVec.ofNat 32 (st * 65536))) u t))
  ∧ (∀ (c : CoreId) (o : ReedOp) (arg : Word) (k : Core) (x : Nat) (s u : State), ReedIssues 5 c o arg k x s u →
    ∃ t, exec (.reedAbort c o) s = .next t ∧ prodOf t x = {} ∧ OnlyProducer x u t
      ∧ cellsUsed t (ctxGable u x) = cellsUsed u (ctxGable u x) - cellsOf (prodOf u x).words.length ∧ WentOn c k u t)

/-- Taking a packet, and COPI as such (R278, R279, R310, R313 to R315): TAKE returns the descriptor of the first
packet behind those of the cores that wait, refuses with zero, or stalls behind those cores; GETW and GETB read on, with zeros beyond the packet; RELEASE
frees it; INFO and COUNT report; a stalled core receives its packet, or its WMA instruction is accepted, with RD in the same
step. A COPI is the instruction that its unit and word name; units 2 and 3, and unit 0 on the warden, are illegal, and User
level is refused. -/
def Obligations.ReedConsumer : Prop :=
  (∀ (c : CoreId) (o : ReedOp) (arg : Word) (k : Core) (x q : Nat) (s u : State), ReedIssues 8 c o arg k x s u → q = arg.toNat % 2048 →
    (∀ p front back, mayTake u (coreNum c) q = true → (consOf u x).pkt = none → queueOf u q = front ++ p :: back →
      front.length = (waitersOf u q).length →
      ∃ t, exec (.take c o) s = .next t ∧ consOf t x = { pkt := some p } ∧ (∀ y, y ≠ x → consOf t y = consOf u y)
        ∧ queueOf t q = front ++ back ∧ waitersOf t q = waitersOf u q ∧ (∀ r, r ≠ q → queueOf t r = queueOf u r) ∧ t.rfb.used = u.rfb.used ∧ t.rfb.prod = u.rfb.prod
        ∧ WentOn c (k.setReg o.rd.toNat (BitVec.ofNat 32 (p.typ % 65536 * 65536) ||| BitVec.ofNat 32 p.words.length)) u t)
    ∧ (mayTake u (coreNum c) q = false ∨ (consOf u x).pkt ≠ none →
      ∃ t, exec (.take c o) s = .next t ∧ t.rfb = { u.rfb with cause := u.rfb.cause ||| 2 } ∧ WentOn c (k.setReg o.rd.toNat 0) u t)
    ∧ (mayTake u (coreNum c) q = true → (consOf u x).pkt = none → (queueOf u q).length ≤ (waitersOf u q).length →
      ∃ t, exec (.take c o) s = .next t ∧ waitersOf t q = waitersOf u q ++ [coreNum c] ∧ t.rfb.queues = u.rfb.queues
        ∧ OnlyCore c { k with phase := .stalledTake q o.rd.toNat } u { t with rfb := u.rfb }))
  ∧ (∀ (c : CoreId) (o : ReedOp) (arg : Word) (k : Core) (x : Nat) (s u : State), ReedIssues 9 c o arg k x s u →
    ∃ t, exec (.getw c o) s = .next t ∧ t.rfb.queues = u.rfb.queues ∧ t.rfb.prod = u.rfb.prod
      ∧ consOf t x = (if (consOf u x).pkt = none then consOf u x else { consOf u x with pos := (consOf u x).pos + 1 })
      ∧ WentOn c (k.setReg o.rd.toNat (match (consOf u x).pkt with
          | some p => p.words.getD (consOf u x).pos 0
          | none => 0)) u t)
  ∧ (∀ (c : CoreId) (o : ReedOp) (arg : Word) (k : Core) (x : Nat) (p : Packet) (s u : State), ReedIssues 0x0A c o arg k x s u →
    (consOf u x).pkt = some p → arg.toNat % 4 = 0 →
    (∀ v, coreStore (coreNum c) arg.toNat
        (bytesOf ((List.range (o.imm.toNat / 4)).map fun i => p.words.getD ((consOf u x).pos + i) 0)) u = (.ok [], v) → v.rfb = u.rfb →
      (v.core (coreNum c)).pl = k.pl →
      ∃ t, exec (.getb c o) s = .next t ∧ consOf t x = { consOf u x with pos := (consOf u x).pos + o.imm.toNat / 4 }
        ∧ t.rfb.queues = u.rfb.queues ∧ WentOn c (v.core (coreNum c)) v t)
    ∧ (∀ v, coreStore (coreNum c) arg.toNat
        (bytesOf ((List.range (o.imm.toNat / 4)).map fun i => p.words.getD ((consOf u x).pos + i) 0)) u = (.refused, v) →
      exec (.getb c o) s = .next (faultHere (coreNum c) exGate v))
    ∧ (∀ v, coreStore (coreNum c) arg.toNat
        (bytesOf ((List.range (o.imm.toNat / 4)).map fun i => p.words.getD ((consOf u x).pos + i) 0)) u = (.stall, v) →
      exec (.getb c o) s = .next v))
  ∧ (∀ (c : CoreId) (o : ReedOp) (arg : Word) (k : Core) (x : Nat) (s u : State), ReedIssues 0x0B c o arg k x s u →
    (∀ p, (consOf u x).pkt = some p → ∃ t, exec (.release c o) s = .next t ∧ consOf t x = {}
      ∧ cellsUsed t p.prod = cellsUsed u p.prod - cellsOf p.words.length ∧ t.rfb.queues = u.rfb.queues
      ∧ WentOn c (k.setReg o.rd.toNat 0) u t)
    ∧ ((consOf u x).pkt = none → ∃ t, exec (.release c o) s = .next t ∧ consOf t x = {} ∧ t.rfb.used = u.rfb.used
      ∧ WentOn c (k.setReg o.rd.toNat (if (consOf u x).discarded then 0x60000 else 0x20000)) u t))
  ∧ (∀ (c : CoreId) (o : ReedOp) (arg : Word) (k : Core) (x : Nat) (s u : State), ReedIssues 0x0C c o arg k x s u →
    ∃ t, exec (.info c o) s = .next t ∧ t.rfb = u.rfb
      ∧ WentOn c (k.setReg o.rd.toNat (match (consOf u x).pkt with
          | some p => p.src
          | none => 0)) u t)
  ∧ (∀ (c : CoreId) (o : ReedOp) (arg : Word) (k : Core) (x q : Nat) (s u : State), ReedIssues 0x0D c o arg k x s u →
    q = arg.toNat % 2048 →
    (mayTake u (coreNum c) q = false → ∃ t, exec (.count c o) s = .next t ∧ t.rfb = u.rfb
      ∧ WentOn c (k.setReg o.rd.toNat 0xFFFFFFFF) u t)
    ∧ (mayTake u (coreNum c) q = true → (queueOf u q).length < 65536 → ∃ t v, exec (.count c o) s = .next t ∧ t.rfb = u.rfb
      ∧ v.toNat % 65536 = (queueOf u q).length
      ∧ v.toNat / 65536 = ((queueOf u q).map fun p => (p.words.length + 15) / 16).sum % 65536
      ∧ WentOn c (k.setReg o.rd.toNat v) u t))
  ∧ (∀ e ∈ [Instr.takeResume, Instr.copiStallEnd], ∀ (c : CoreId) (k : Core) (q r x : Nat) (p : Packet) (ps : List Packet) (s : State),
    coreClocked s (coreNum c) = true → k = s.core (coreNum c) → k.phase = .stalledTake q r → r < 16 → x = ctxOf (coreNum c) k.pl →
    (waitersOf s q).head? = some (coreNum c) → queueOf s q = p :: ps →
    ∃ t, exec (e c) s = .next t ∧ consOf t x = { pkt := some p } ∧ queueOf t q = ps
      ∧ (∀ y, coreNum c ∉ waitersOf t y)
      ∧ WentOn c (k.setReg r (BitVec.ofNat 32 (p.typ % 65536 * 65536) ||| BitVec.ofNat 32 p.words.length)) s t)
  ∧ (∀ (c : CoreId) (k : Core) (op : Nat) (o : WmaOp) (v : Option Word) (s u : State), coreClocked s (coreNum c) = true →
    k = s.core (coreNum c) → k.phase = .stalledCopi op o →
    (wmaIssue (trussOf (coreNum c)) (coreInTruss (coreNum c)) k.pl op o s = (some v, u) → u.core (coreNum c) = k →
      ∃ t, exec (.copiStallEnd c) s = .next t
        ∧ t.core (coreNum c) = { (match v with
            | some w => k.setReg o.rd.toNat w
            | none => k) with
          pc := k.pc + 8
          phase := .running } ∧ SameOutside [.cores] u t)
    ∧ (wmaIssue (trussOf (coreNum c)) (coreInTruss (coreNum c)) k.pl op o s = (none, u) → exec (.copiStallEnd c) s = .next s))
  ∧ (∀ p ∈ reedRows, ∀ (c : CoreId) (f : FmtC) (s : State), f.z = 0 → f.unit.toNat = 1 → f.cmd.toNat / 2 ^ 27 = p.2 →
    ∃ t, exec (.copi c f) s = .next t
      ∧ exec (p.1 c ⟨f.rd, f.ra, BitVec.ofNat 11 (f.cmd.toNat / 65536), BitVec.ofNat 16 f.cmd.toNat⟩) s = .next t)
  ∧ (∀ p ∈ wmaRows, ∀ (c : CoreId) (f : FmtC) (s : State), f.z = 0 → f.unit.toNat = 0 → f.cmd.toNat / 2 ^ 27 = p.2 →
    ∃ t, exec (.copi c f) s = .next t
      ∧ exec (p.1 c (wmaOfWord f.rd f.cmd ((s.core (coreNum c)).reg f.ra.toNat))) s = .next t)
  ∧ (∀ (c : CoreId) (f : FmtC) (s : State), Issues c true s →
    (2 ≤ f.unit.toNat ∨ f.z ≠ 0 ∨ (c = .warden ∧ f.unit.toNat = 0) → exec (.copi c f) s = .next (faultHere (coreNum c) exIllegal (fetched c true s)))
    ∧ (∀ p ∈ reedRows, ∀ o : ReedOp, legalReed p.2 o ((s.core (coreNum c)).reg o.ra.toNat) = true → (atIssue c true s).pl = 2 →
        exec (p.1 c o) s = .next (faultHere (coreNum c) exPrivileged (fetched c true s))))

/-! ### Target gates (11_target_gates.md) -/

/-- The gate's decision, its records and the debug port (R330 to R334, R338 to R340, R343, R344): the first valid entry that
holds the first byte decides alone; without one User level is refused, and the other levels by the default rows; what is
another gable's is refused whatever an entry says. A refusal appends its record, or is dropped with FAULT_LOST where 16 are
held, and counts in any case. An entry is latched with its LIMIT cut at the target's size, and valid where its BASE lies within
it and its truss is the gable's own. FAULT_POP removes the head record. DEBUG_ACCESS exists only in DEV, reads and writes what the
gates admit, and shows 0xDEAD_BEEF of a locked region. -/
def Obligations.TargetGates : Prop :=
  (∀ (s : State) (x : GateEntry), (latchGate s x).limit = min x.limit (targetSize s x.target - 1)
    ∧ (latchGate s x).base = x.base ∧ (latchGate s x).perm = x.perm
    ∧ ((latchGate s x).valid = true ↔ x.base < targetSize s x.target
      ∧ (0x40 ≤ x.target ∨ (x.gable ≠ 0 ∧ ownerOf s (x.target % 0x20) = x.gable))))
  ∧ (∀ (s : State) (t : Tag) (tgt o n k : Nat) (x : GateEntry) (as bs : List GateEntry), fixedRefusal s t tgt o n k = none →
    entriesOf s tgt = as ++ x :: bs → holds t o x → (∀ y ∈ as, ¬holds t o y) →
    gateDecide s t tgt o n k = (if x.limit < o + n - 1 then .refuse 2 (some x.entry)
      else if x.perm.testBit k then .pass else .refuse 1 (some x.entry)))
  ∧ (∀ (s : State) (t : Tag) (tgt o n k : Nat), fixedRefusal s t tgt o n k = none → (∀ y ∈ entriesOf s tgt, ¬holds t o y) →
    t.pl = 2 → gateDecide s t tgt o n k = .refuse 0 none)
  ∧ (∀ (s : State) (t : Tag) (tgt o n k : Nat), 1 ≤ t.gable → t.gable ≤ 63 →
    (tgt < 0x40 ∧ ownerOf s (tgt % 0x20) ≠ t.gable) ∨ (0x50 ≤ tgt ∧ tgt ≠ 0x60) → gateDecide s t tgt o n k = .refuse 3 none)
  ∧ (∀ (s : State) (t : Tag) (tgt o n k : Nat), t.gable = 0 → 1 ≤ t.pl → tgt < 0x20 → o < 0x2000 → 0 < n →
    gateDecide s t tgt o n k = .refuse 4 none)
  ∧ (∀ (s : State) (t : Tag) (tgt o n k : Nat), tgt < 0x20 → t.gable = ownerOf s tgt → t.gable ≠ 0 → t.pl = 0 → t.cls = 0 ∨ t.cls = 2 →
    (∀ y ∈ entriesOf s tgt, ¬holds t o y) → 0x2000 ≤ o → o + n ≤ 0x40000 → 0 < n → k < 3 → gateDecide s t tgt o n k = .pass)
  ∧ (∀ (t : Tag) (tgt o n k r : Nat) (e : Option Nat) (s : State), r ≠ 6 →
    (s.gte.fifo.length < 16 → ∃ f, (recordRefusal t tgt o n k r e s).gte.fifo = s.gte.fifo ++ [f]
      ∧ f = ⟨tagWord t, mkWord [(24, s.gte.seq), (20, k), (16, r), (12, b2n e.isSome), (8, e.getD 0), (0, tgt)],
        BitVec.ofNat 32 o, BitVec.ofNat 32 n⟩)
    ∧ (16 ≤ s.gte.fifo.length → (recordRefusal t tgt o n k r e s).gte.fifo = s.gte.fifo
      ∧ (recordRefusal t tgt o n k r e s).gte.cause.getLsbD 1 = true)
    ∧ (recordRefusal t tgt o n k r e s).gte.seq = (s.gte.seq + 1) % 256
    ∧ SMap.get 0 (recordRefusal t tgt o n k r e s).gte.gcnt t.gable = satInc 0xFFFFFFFF (SMap.get 0 s.gte.gcnt t.gable)
    ∧ (recordRefusal t tgt o n k r e s).gte.cause.getLsbD 0 = true ∧ SameOutside [.gte] s (recordRefusal t tgt o n k r e s))
  ∧ (∀ (who : Who) (v : Word) (s : State), RegTakes who 0x200030 kWrite s →
    ∃ t, exec (.faultPop who v) s = .next t ∧ t.gte = { s.gte with fifo := s.gte.fifo.tail } ∧ SameOutside [.gte] s t)
  ∧ (∀ (c : CoreId) (w : Bool) (a : Word) (len : Nat) (v : Dword) (s : State),
    lifecycle s ≠ lcDev ∨ powered s = false ∨ ¬(len = 1 ∨ len = 2 ∨ len = 4 ∨ len = 8) ∨ a.toNat % len ≠ 0 →
    exec (.debugAccess c w a len v) s = .next s)
  ∧ (∀ (c : CoreId) (a : Word) (len tgt off : Nat) (v : Dword) (s : State), lifecycle s = lcDev → powered s = true →
    (len = 1 ∨ len = 2 ∨ len = 4 ∨ len = 8) → a.toNat % len = 0 →
    (∀ w, tagAdmits s (debugTag s (coreNum c)) (coreNum c) a.toNat len (if w then kWrite else kRead) = (.pass, tgt, off) →
      sealedWaits s tgt = true ∨ (w = false ∧ (tgt = tgtFlash ∨ tgt = tgtFlash0) ∧ readWaits s = true) →
      exec (.debugAccess c w a len v) s = .next s)
    ∧ (tagAdmits s (debugTag s (coreNum c)) (coreNum c) a.toNat len kWrite = (.pass, tgt, off) →
      sealedWaits s tgt = false →
      ∃ t, exec (.debugAccess c true a len v) s = .next t ∧ t = targetWrite (coreNum c) tgt off (leBytes len v.toNat) s)
    ∧ (∀ bs u, tagAdmits s (debugTag s (coreNum c)) (coreNum c) a.toNat len kRead = (.pass, tgt, off) →
      sealedWaits s tgt = false → ¬((tgt = tgtFlash ∨ tgt = tgtFlash0) ∧ readWaits s = true) →
      targetRead (coreNum c) tgt off len s = (some bs, u) →
      ∃ t, exec (.debugAccess c false a len v) s = .next t
        ∧ t = { u with out := .jtagData (BitVec.ofNat 64 (leNat (bs.take len))) :: u.out })
    ∧ (∀ r e, tagAdmits s (debugTag s (coreNum c)) (coreNum c) a.toNat len kRead = (.refuse r e, tgt, off) →
      ∃ t, exec (.debugAccess c false a len v) s = .next t
        ∧ t.out.head? = some (.jtagData (if r = 6 then BitVec.ofNat 64 (0xDEADBEEFDEADBEEF % 2 ^ (8 * len)) else 0))
        ∧ t.cores = s.cores ∧ t.trusses = s.trusses)
    ∧ (∀ r e, tagAdmits s (debugTag s (coreNum c)) (coreNum c) a.toNat len kWrite = (.refuse r e, tgt, off) →
      ∃ t, exec (.debugAccess c true a len v) s = .next t ∧ SameOutside [.gte, .eav] s t
        ∧ (r = 6 → t.gte.dbgCnt = satInc 0xFFFFFFFF s.gte.dbgCnt ∧ t.gte.cause.getLsbD 2 = true)))

/-! ### The flash store (12_flash_store.md) -/

/-- READ takes effect at once and ends when its line has been read: the corrected data stand in FLC_DATA0 to FLC_DATA15, the
read status word in FLC_RSTAT. A READ of a line that a PROG is programming (the journal port's: a warden's PROG keeps BUSY
set) waits until that PROG ends, and it returns the new contents, whatever is written to FLC_ADDR meanwhile (R353). In a
line that holds a word which a failed PROG lost, that word and the read status word are unspecified and the others read as
before (R362). -/
def Obligations.FlashReadCommand : Prop :=
  (∀ (arr : LineRead) (s : State), FlcTakes s → s.flc.addr % 64 = 0 → jportIn s (s.flc.addr / 64) = false →
    lineLost s (s.flc.addr / 64) = false →
    ∃ t, exec (.flashRead .warden arr) s = .next t ∧ FlcEnded 1 stOk t
      ∧ (∀ k, k < 16 → flcData t k = BitVec.ofNat 32 (leAt (lineValue s (s.flc.addr / 64) arr false).1 (4 * k) 4))
      ∧ t.flc.rstat = (lineValue s (s.flc.addr / 64) arr false).2 ∧ t.flc.rstatAny = t.flc.rstat
      ∧ t.flc.erase = s.flc.erase ∧ t.flc.jrun = s.flc.jrun ∧ SameOutside [.flc, .pairs] s t)
  ∧ (∀ (arr : LineRead) (s : State), FlcTakes s → s.flc.addr % 64 = 0 → jportIn s (s.flc.addr / 64) = false →
    lineLost s (s.flc.addr / 64) = true →
    ∃ t, exec (.flashRead .warden arr) s = .next t ∧ FlcEnded 1 stOk t
      ∧ (∀ i k, i < 8 → k < 2 → ((flashCell s (s.flc.addr / 64 * 8 + i)).map (·.lost)).getD false = false →
        flcData t (2 * i + k) = BitVec.ofNat 32 (leAt (lineValue s (s.flc.addr / 64) arr false).1 (8 * i + 4 * k) 4))
      ∧ t.flc.rstatAny = t.flc.rstat ∧ t.flc.erase = s.flc.erase ∧ SameOutside [.flc, .pairs, .free] s t)
  ∧ (∀ (arr : LineRead) (out : FlashOutcome) (a b p : Nat) (w : Dword) (s : State), FlcTakes s → s.flc.addr % 64 = 0 →
    s.flc.jrun = some (a, w) → a / 64 = s.flc.addr / 64 → InLine s a [w] → lineLost (putFlashWord (a / 8) w s) (a / 64) = false →
    out.pulses = some p → 1 ≤ p → p ≤ 8 →
    ∃ t u, exec (.flashRead .warden arr) s = .next t ∧ flcBusy t = true ∧ t.flc.cause = s.flc.cause ∧ t.flc.data = s.flc.data
      ∧ t.flc.rstat = s.flc.rstat ∧ SameOutside [.flc, .pairs] s t
      ∧ exec (.progComplete out) { t with flc := { t.flc with addr := b } } = .next u ∧ Programmed (a / 8) [w] s u
      ∧ FlcEnded 1 stOk u
      ∧ (∀ k, k < 16 → flcData u k
          = BitVec.ofNat 32 (leAt (lineValue (putFlashWord (a / 8) w s) (s.flc.addr / 64) arr false).1 (4 * k) 4))
      ∧ u.flc.rstat = (lineValue (putFlashWord (a / 8) w s) (s.flc.addr / 64) arr false).2)

/-- The flash commands and the array's operations (R348 to R352, R354 to R358, R360 to R363, R365). A command that fails a
check of R352 ends with that check's status and changes nothing else. A word with one bit in error reads corrected, one with
more reads raw and uncorrectable, but where all 72 bits read 1. PROG holds BUSY until its words verify, fail over to a
spare, or make the sector worn; ERASE likewise leaves its sector erased, and the sector that it gives up keeps its words on
the die. What the journal port runs ahead of is queued with BUSY set. SUSPEND and RESUME end at once. RETIRE moves a
sector and copies its words: corrected, or raw where they are uncorrectable. The journal port issues its next word and drops
it when it is programmed. An automatically suspended erase resumes. A cache fill takes its line from the buffers or the
array, and a prefetch read adds the next missing line; a fill of the array waits for an erase that may not be suspended. -/
def Obligations.FlashOperations : Prop :=
  (∀ (arr : LineRead) (count : BitVec 4) (out : FlashOutcome) (s : State), PairTakes .warden 0x800100 s →
    ∀ p ∈ flashRows arr count out, flcChecks s p.2 (p.2 % 16) (p.2 / 16 % 16) ≠ 0 →
    ∃ t, exec p.1 s = .next t ∧ t.flc = { s.flc with
        ctl := p.2
        status := flcChecks s p.2 (p.2 % 16) (p.2 / 16 % 16)
        lastOp := p.2 % 16
        cause := s.flc.cause ||| 1#32 } ∧ SameOutside [.flc, .pairs] s t)
  ∧ (∀ (arr : LineRead) (s : State) (line : Nat), readSuspended s (line * 64) = false →
    (∀ i, i < 8 → popCount (bitsBad s (line * 8 + i) (arr.errs.getD i 0)) ≤ 1 →
      leAt (lineValue s line arr false).1 (8 * i) 8 = (cellData s (line * 8 + i)).toNat)
    ∧ (∀ i, i < 8 → 2 ≤ popCount (bitsBad s (line * 8 + i) (arr.errs.getD i 0)) →
      leAt (lineValue s line arr false).1 (8 * i) 8
        = (cellData s (line * 8 + i) ^^^ (bitsBad s (line * 8 + i) (arr.errs.getD i 0)).setWidth 64).toNat)
    ∧ ((∀ i, i < 8 → popCount (bitsBad s (line * 8 + i) (arr.errs.getD i 0)) ≤ 1) →
      fld (lineValue s line arr false).2 16 16 = stOk
      ∧ fld (lineValue s line arr false).2 0 4
        = ((List.range 8).map fun i => popCount (bitsBad s (line * 8 + i) (arr.errs.getD i 0))).sum)
    ∧ ((∃ i, i < 8 ∧ 2 ≤ popCount (bitsBad s (line * 8 + i) (arr.errs.getD i 0))
        ∧ readsOnes (cellData s (line * 8 + i)) (bitsBad s (line * 8 + i) (arr.errs.getD i 0)) = false) →
      fld (lineValue s line arr false).2 16 16 = stIntegrity ∧ bitOf (lineValue s line arr false).2.toNat 14 = true)
    ∧ (bitOf (lineValue s line arr false).2.toNat 13 = true ↔ ∀ i, i < 8 →
      (readWord (flashCell s (line * 8 + i)) (arr.errs.getD i 0)).erased = true))
  ∧ (∀ (arr : LineRead) (s : State) (line : Nat), s.flc.erase = .suspended ∨ s.flc.erase = .auto →
    line / 64 = s.flc.eraseSect →
    lineValue s line arr false = (List.replicate 64 0xFF,
      mkWord [(16, stSuspended), (12, b2n (SMap.get none s.flash.spareOf (line / 64)).isSome), (0, 0xF)]))
  ∧ (∀ (count : BitVec 4) (s : State), FlcTakes s → s.flc.addr % 8 = 0 → s.flc.addr % 64 + 8 * (count.toNat + 1) ≤ 64 →
    ¬(s.flc.erase = .suspended ∧ s.flc.addr / 4096 = s.flc.eraseSect) → isWorn s (s.flc.addr / 4096) = false →
    (∀ k, k ≤ count.toNat → wordErased s (s.flc.addr / 8 + k) = true) →
    ∃ t, exec (.prog .warden count) s = .next t
      ∧ t.flc.run = .prog s.flc.addr (progWords s (count.toNat + 1)) (!portWants s)
      ∧ flcBusy t = true ∧ t.flc.retired = false ∧ t.flc.cause = s.flc.cause
      ∧ (∀ l ∈ t.flc.prefetch, l / 64 ≠ s.flc.addr / 4096) ∧ SameOutside [.flc, .pairs] s t)
  ∧ (∀ (out : FlashOutcome) (a p : Nat) (ws : List Dword) (s : State), s.flc.jrun = none → s.flc.run = .prog a ws true →
    s.flc.erase = .none ∨ s.flc.erase = .suspended → InLine s a ws → out.pulses = some p → 1 ≤ p → p ≤ 8 →
    ∃ t, exec (.progComplete out) s = .next t ∧ FlcEnded 2 stOk t ∧ t.flc.pulses = p ∧ Programmed (a / 8) ws s t
      ∧ fld t.flc.rstat 0 4 = backBits s a ws out.cbc
      ∧ bitOf t.flc.rstat.toNat 15 = decide (s.flc.readThresh ≤ backBits s a ws out.cbc)
      ∧ fld t.flc.rstat 16 16 = fld (lineValue (putFlashWords (a / 8) ws s) (a / 64) ⟨[]⟩ true).2 16 16
      ∧ (s.flc.readThresh ≤ backBits s a ws out.cbc → t.flc.cause.getLsbD 2 = true)
      ∧ (s.flc.pulseThresh ≤ p → t.flc.cause.getLsbD 3 = true ∧ t.flc.warn = mkWord [(14, 1), (0, a / 4096)]
        ∧ SMap.get 0 t.flc.warnings (a / 4096) = SMap.get 0 s.flc.warnings (a / 4096) + 1)
      ∧ (p < s.flc.pulseThresh → s.flc.readThresh ≤ backBits s a ws out.cbc → t.flc.warn = mkWord [(14, 0), (0, a / 4096)])
      ∧ t.flc.retired = s.flc.retired ∧ t.flash = { s.flash with cells := t.flash.cells } ∧ SameOutside [.flc, .flash, .tel] s t)
  ∧ (∀ (out : FlashOutcome) (a : Nat) (ws : List Dword) (s : State), s.flc.jrun = none → s.flc.run = .prog a ws true →
    s.flc.erase = .none ∨ s.flc.erase = .suspended → InLine s a ws → out.pulses = none → out.badSpares = 0 →
    (∀ i, SpareReady s (a / 4096) i → SMap.wf none s.flash.cells = true →
      ∃ t, exec (.progComplete out) s = .next t ∧ FlcEnded 2 stOk t ∧ t.flc.pulses = 8 ∧ Remapped (a / 4096) i 0 s t
        ∧ CopiedTo (a / 4096) i (a / 8) ws s t ∧ t.flc.warn = s.flc.warn ∧ SameOutside [.flc, .flash, .tel, .free] s t)
    ∧ (spareFor s (a / 4096) = none →
      ∃ t, exec (.progComplete out) s = .next t ∧ FlcEnded 2 stExhausted t ∧ t.flc.cause.getLsbD 5 = true
        ∧ isWorn t (a / 4096) = true ∧ Spoiled (a / 8) ws.length true s t ∧ t.flash.spareOf = s.flash.spareOf
        ∧ SameOutside [.flc, .flash, .free, .sym] s t))
  ∧ (∀ (s : State), FlcTakes s → s.flc.erase = .none → s.flc.addr % 4096 = 0 → isWorn s (s.flc.addr / 4096) = false →
    ∃ t, exec (.erase .warden) s = .next t ∧ flcBusy t = true ∧ t.flc.cause = s.flc.cause
      ∧ (portWants s = false → t.flc.erase = .running ∧ t.flc.eraseSect = s.flc.addr / 4096 ∧ t.flc.run = .none)
      ∧ (portWants s = true → t.flc.erase = .none ∧ t.flc.run = .erase (s.flc.addr / 4096))
      ∧ (∀ l ∈ t.flc.prefetch, l / 64 ≠ s.flc.addr / 4096) ∧ SameOutside [.flc, .pairs] s t)
  ∧ (∀ (out : FlashOutcome) (s : State), s.flc.erase = .running → s.flc.run = .none → s.flc.jrun = none →
    (∀ p, out.pulses = some p → 1 ≤ p → p ≤ 12 →
      ∃ t, exec (.eraseComplete out) s = .next t ∧ FlcEnded 3 stOk t ∧ t.flc.erase = .none ∧ t.flc.pulses = p
        ∧ ErasedSector s.flc.eraseSect (physSect s s.flc.eraseSect) s t ∧ SMap.get 0 t.flc.warnings s.flc.eraseSect = 0
        ∧ t.flc.retired = s.flc.retired ∧ SameOutside [.flc, .flash] s t)
    ∧ (∀ i, out.pulses = none → out.badSpares = 0 → SpareReady s s.flc.eraseSect i →
      ∃ t, exec (.eraseComplete out) s = .next t ∧ FlcEnded 3 stOk t ∧ t.flc.pulses = 12 ∧ Remapped s.flc.eraseSect i 1 s t
        ∧ ErasedSector s.flc.eraseSect (16386 + i) s t ∧ SameOutside [.flc, .flash, .tel] s t)
    ∧ (out.pulses = none → out.badSpares = 0 → spareFor s s.flc.eraseSect = none →
      ∃ t, exec (.eraseComplete out) s = .next t ∧ FlcEnded 3 stExhausted t ∧ isWorn t s.flc.eraseSect = true
        ∧ t.flc.cause.getLsbD 5 = true ∧ Spoiled (s.flc.eraseSect * 512) 512 false s t
        ∧ SameOutside [.flc, .flash, .free, .sym] s t))
  ∧ (∀ (s : State), PairTakes .warden 0x800100 s → s.flc.erase = .running ∨ s.flc.erase = .auto → s.flc.run = .none →
    ∃ t, exec (.flashSuspend .warden) s = .next t ∧ FlcEnded 4 stOk t ∧ t.flc.erase = .suspended
      ∧ t.flc.eraseSect = s.flc.eraseSect ∧ SameOutside [.flc, .pairs] s t)
  ∧ (∀ (s : State), FlcTakes s → s.flc.erase = .suspended →
    ∃ t, exec (.flashResume .warden) s = .next t ∧ t.flc.erase = .running ∧ flcBusy t = true ∧ t.flc.status = stOk
      ∧ t.flc.lastOp = 5 ∧ t.flc.cause.getLsbD 0 = true ∧ t.flc.eraseSect = s.flc.eraseSect ∧ SameOutside [.flc, .pairs] s t)
  ∧ (∀ (out : FlashOutcome) (i : Nat) (s : State), FlcTakes s → s.flc.addr % 4096 = 0 →
    ¬(s.flc.erase = .suspended ∧ s.flc.addr / 4096 = s.flc.eraseSect) → isWorn s (s.flc.addr / 4096) = false →
    (portWants s = false → out.badSpares = 0 → SpareReady s (s.flc.addr / 4096) i → SMap.wf none s.flash.cells = true →
      ∃ t, exec (.retire .warden out) s = .next t ∧ FlcEnded 6 stOk t ∧ Remapped (s.flc.addr / 4096) i 2 s t
        ∧ CopiedTo (s.flc.addr / 4096) i 0 [] s t ∧ SameOutside [.flc, .flash, .tel, .pairs, .free] s t)
    ∧ (portWants s = true →
      ∃ t, exec (.retire .warden out) s = .next t ∧ flcBusy t = true ∧ t.flc.cause = s.flc.cause
        ∧ t.flc.run = .retire (s.flc.addr / 4096) out.badSpares ∧ SameOutside [.flc, .pairs] s t))
  ∧ (∀ (s : State), s.flc.erase = .auto → s.flc.run = .none → portWants s = false →
    exec .autoResume s = .next { s with flc := { s.flc with erase := .running } })
  ∧ (∀ (a : Nat) (w : Dword) (ps : List (Nat × Dword)) (s : State), powered s = true → portMay s = true →
    s.flc.jport = (a, w) :: ps → s.flc.jrun = none → readWaits s = false → jportCheck (autoSuspend s) a = stOk →
    ∃ t, exec .journalPortProg s = .next t ∧ t.flc.jrun = some (a, w) ∧ t.flc.jport = s.flc.jport ∧ t.flc.run = s.flc.run
      ∧ (s.flc.erase = .running → t.flc.erase = .auto) ∧ (s.flc.erase ≠ .running → t.flc.erase = s.flc.erase)
      ∧ SameOutside [.flc] s t)
  ∧ (∀ (out : FlashOutcome) (a p : Nat) (w : Dword) (s : State), s.flc.jrun = some (a, w) → (∀ l arr, s.flc.run ≠ .read l arr) →
    s.sym.ctr.rewrite = .none → InLine s a [w] → out.pulses = some p → 1 ≤ p → p ≤ 8 →
    ∃ t, exec (.progComplete out) s = .next t ∧ Programmed (a / 8) [w] s t ∧ t.flc.jrun = none
      ∧ t.flc.jport = s.flc.jport.drop 1 ∧ t.flc.status = s.flc.status
      ∧ (s.flc.run = .none → t.flc.run = .none)
      ∧ (∀ b vs, s.flc.run = .prog b vs false → t.flc.run = .prog b vs ((s.flc.jport.drop 1).isEmpty || s.sym.ctr.stalled))
      ∧ ((s.flc.run = .none ∨ ∃ b vs q, s.flc.run = .prog b vs q) → SameOutside [.flc, .flash, .tel] s t))
  ∧ (∀ (addr off : Nat) (arr : LineRead) (s : State), wardenUp s = true → 0x20000000 ≤ addr → addr < 0x24000000 →
    SMap.get false (s.core wardenNum).icache (addr / 64) = false →
    coreGate wardenNum (s.core wardenNum).pl (64 * (addr / 64)) 64 kExec s = (some (tgtFlash0, off), s) →
    (xipHit s (off / 64) = true →
      ∃ t, exec (.cacheFill addr arr) s = .next t ∧ SMap.get false (t.core wardenNum).icache (addr / 64) = true
        ∧ t.flc.lastFill = some (off / 64) ∧ t.flc.rstatAny = s.flc.rstatAny ∧ t.flc.erase = s.flc.erase
        ∧ (∀ l ∈ t.flc.prefetch, off / 64 < l ∧ l ≤ off / 64 + 8) ∧ SameOutside [.flc, .cores, .free] s t)
    ∧ (xipHit s (off / 64) = false → readWaits s = true → exec (.cacheFill addr arr) s = .next s)
    ∧ (xipHit s (off / 64) = false → readWaits s = false → lineLost (autoSuspend s) (off / 64) = false →
      ∃ t, exec (.cacheFill addr arr) s = .next t
        ∧ (SMap.get false (t.core wardenNum).icache (addr / 64)
          = rstOk (lineValue (autoSuspend s) (off / 64) arr false).2)
        ∧ t.flc.rstatAny = (lineValue (autoSuspend s) (off / 64) arr false).2 ∧ t.flc.lastFill = some (off / 64)
        ∧ ((SMap.get [] t.flc.branch (off / 64 % 64)).contains (off / 64)
          = rstOk (lineValue (autoSuspend s) (off / 64) arr false).2)
        ∧ SameOutside [.flc, .cores, .free] s t))
  ∧ (∀ (l : Nat) (arr : LineRead) (s : State), powered s = true → s.flc.run = .none → s.flc.jrun = none → readWaits s = false →
    nextPrefetch s = some l → lineLost (autoSuspend s) l = false →
    ∃ t, exec (.prefetchRead arr) s = .next t
      ∧ t.flc.prefetch = s.flc.prefetch ++ (if rstOk (lineValue (autoSuspend s) l arr false).2 then [l] else [])
      ∧ t.flc.rstatAny = (lineValue (autoSuspend s) l arr false).2 ∧ SameOutside [.flc] s t)

/-! ### The Eave supervisor (13_eave_supervisor.md) -/

/-- The Eave supervisor (R368 to R371, R377, R379, R380, R382, R385, R387, R388, R454, R487). A detection of a monitored
source raises an event, once while a condition lasts; a reading inside the source's limits raises none. VGLITCH_CORE judges
VCORE against its requested level, and against the old level too while a change is under way: whether the time for that is over
is free (log 1316). An arbitration step records its events as one group, entry by entry in
order with one SEQ, and runs the group's level: ZEROIZE and TERMINAL zero the vault and latch pending work in every power
state, and with main power reset the device; the lower levels are held. An acknowledgment releases PURGE unless a source at
PURGE is active. Ring acknowledgments free the oldest entries. A scrubber's mismatch makes the pair read its reset value. The scrubber of the Eave die fails the retained table's words without main power. The
cell lands, the vault state and the loss of main power act as stated. -/
def Obligations.EaveSupervisor : Prop :=
  (∀ (src : Fin 22) (d : List Byte) (s : State), srcMonitored s src.val = false →
    exec (.sourceDetection src d) s = .next s ∧ exec (.sourceInactive src) s = .next s)
  ∧ (∀ (src : Fin 22) (d : List Byte) (s : State), srcMonitored s src.val = true → elementMonitored s src.val d = true →
    ¬ReadingIn src.val d →
    src.val ∈ [0, 1, 2, 3, 4, 5, 6, 7, 8, 9, 14, 15, 19] ∨ (src.val ∈ [11, 13] ∧ leAt d 0 1 ≠ 3) →
    exec (.sourceDetection src d) s = .next (if s.eav.active.getLsbD src.val then s
      else conditionEvent src.val (if src.val = 0 then lightDetail s d else d) s))
  ∧ (∀ (src : Fin 22) (d : List Byte) (s : State), srcMonitored s src.val = true → elementMonitored s src.val d = true →
    ¬ReadingIn src.val d → NotOfPair src.val d →
    src.val ∈ [12, 16, 17, 18, 20, 21] ∨ (src.val ∈ [10, 11, 13] ∧ leAt d 0 1 = 3) →
    exec (.sourceDetection src d) s = .next { s with eav := withEvent src.val d s.eav })
  ∧ (∀ (src : Fin 22) (d : List Byte) (s : State), ReadingIn src.val d ∨ elementMonitored s src.val d = false →
    exec (.sourceDetection src d) s = .next s)
  ∧ (∀ (d : List Byte) (s : State), srcMonitored s 10 = true → mainPower s = true → leAt d 0 1 ≠ 3 →
    s.eav.active.getLsbD 10 = false →
    (outsideVcore s.elec.vidReq s.elec.vidReq (detailMv d) = false → exec (.sourceDetection 10 d) s = .next s)
    ∧ (outsideVcore s.elec.vidReq s.elec.vidReq (detailMv d) = true →
      (∀ o, s.elec.vidOld = some o → outsideVcore o s.elec.vidReq (detailMv d) = true) →
      exec (.sourceDetection 10 d) s = .next (conditionEvent 10 d s))
    ∧ (∀ o, outsideVcore s.elec.vidReq s.elec.vidReq (detailMv d) = true → s.elec.vidOld = some o →
      outsideVcore o s.elec.vidReq (detailMv d) = false →
      ∃ t, exec (.sourceDetection 10 d) s = .next t ∧ SameOutside [.eav, .elec, .free] s t
        ∧ ((t.eav = s.eav ∧ t.elec = s.elec) ∨ (t.elec = { s.elec with vidOld := none }
          ∧ t.eav = (conditionEvent 10 d s).eav))))
  ∧ (∀ (d : List Byte) (s : State), srcMonitored s 18 = true → leAt d 0 1 = 3 → leAt d 4 4 ≠ 0xFFFFFFFF →
    (SMap.get {} s.pairs (leAt d 4 4)).work = true →
    ∃ t, exec (.sourceDetection 18 d) s = .next t ∧ pairRead t (leAt d 4 4) = 0
      ∧ t.eav.detected = s.eav.detected ++ [(srcShadow, padTo 16 ([3, 0, 0, 0] ++ leBytes 4 (leAt d 4 4)))]
      ∧ SameOutside [.eav, .pairs] s t)
  ∧ (∀ (src : Fin 22) (s : State), srcMonitored s src.val = true →
    ∃ t, exec (.sourceInactive src) s = .next t ∧ t.eav.active.getLsbD src.val = false
      ∧ (∀ n, n ≠ src.val → t.eav.active.getLsbD n = s.eav.active.getLsbD n) ∧ t.eav.detected = s.eav.detected
      ∧ t.eav.rootLock = activeAt t 4 ∧ SameOutside [.eav] s t)
  ∧ (∀ (env : BootEnv) (s : State), s.eav.detected = [] → s.eav.ackTaken = false →
    exec (.arbitrationStep env) s = .next s)
  ∧ (∀ (env : BootEnv) (es : List (Nat × List Byte)) (s : State), s.eav.detected = es → es ≠ [] → s.eav.ackTaken = false →
    groupLevel s es < 2 → s.eav.ringNext < 64 → s.eav.ringCount + es.length ≤ 64 →
    ∃ t, exec (.arbitrationStep env) s = .next t ∧ t.eav.detected = [] ∧ t.eav.seq = s.eav.seq + 1
      ∧ t.eav.lastLevel = groupLevel s es ∧ t.eav.ringCount = s.eav.ringCount + es.length
      ∧ (∀ i, i < es.length → SMap.get [] t.eav.ring ((s.eav.ringNext + i) % 64)
          = entryBytes s i (groupLevel s es) ((orderEvents es).getD i (0, [])))
      ∧ t.eav.ringLost = s.eav.ringLost ∧ t.eav.vault = s.eav.vault ∧ t.eav.pend = s.eav.pend
      ∧ (answers s = true → t.eav.holdThr = (s.eav.holdThr || es.any fun e => eventLevel s e == 1))
      ∧ (mainPower s = false → t.eav.holdThr = s.eav.holdThr ∧ SameOutside [.eav] s t)
      ∧ t.eav.holdSus = s.eav.holdSus ∧ t.eav.holdPurge = s.eav.holdPurge
      ∧ (s.btn.table = none → SameOutside [.eav, .tel] s t))
  ∧ (∀ (env : BootEnv) (e : Nat × List Byte) (s : State), s.eav.detected = [e] → s.eav.ackTaken = false → groupLevel s [e] = 0 →
    s.eav.ringCount = 64 →
    ∃ t, exec (.arbitrationStep env) s = .next t ∧ t.eav.ringCount = 64 ∧ t.eav.ringNext = s.eav.ringNext
      ∧ t.eav.ringLost = satInc 0xFFFF s.eav.ringLost ∧ t.eav.cause.getLsbD 2 = true
      ∧ SMap.get [] t.eav.ring ((s.eav.ringNext + 63) % 64) = entryBytes s 0 0 e)
  ∧ (∀ (env : BootEnv) (es : List (Nat × List Byte)) (s : State), s.eav.detected = es → s.eav.ackTaken = false →
    answers s = true → (groupLevel s es = 2 → ∃ t, exec (.arbitrationStep env) s = .next t ∧ t.eav.holdSus = true)
      ∧ (groupLevel s es = 3 → ∃ t, exec (.arbitrationStep env) s = .next t ∧ t.eav.holdPurge = true ∧ heldLevel t = 3))
  ∧ (∀ (env : BootEnv) (es : List (Nat × List Byte)) (s : State), s.eav.detected = es → s.eav.ackTaken = false →
    mainPower s = false →
    (2 ≤ groupLevel s es → groupLevel s es < 4 →
      ∃ t, exec (.arbitrationStep env) s = .next t ∧ heldLevel t = heldLevel s ∧ t.eav.seq = s.eav.seq + 1
        ∧ t.eav.vault = s.eav.vault ∧ t.eav.pend = s.eav.pend ∧ SameOutside [.eav] s t)
    ∧ (4 ≤ groupLevel s es →
      ∃ t, exec (.arbitrationStep env) s = .next t ∧ t.eav.vault = [] ∧ t.eav.vaultZero = true ∧ t.eav.seq = s.eav.seq + 1
        ∧ t.eav.pend = s.eav.pend ||| (if groupLevel s es = 5 then 7#4 else 1#4) ∧ t.flash = s.flash
        ∧ t.eav.fuses = s.eav.fuses ∧ SameOutside [.eav, .msu] s t))
  ∧ (∀ (env : BootEnv) (es : List (Nat × List Byte)) (s : State), s.eav.detected = es → s.eav.ackTaken = false →
    mainPower s = true → 4 ≤ groupLevel s es →
    ∃ u, u.eav.vault = [] ∧ u.eav.vaultZero = true ∧ u.eav.pend = s.eav.pend ||| (if groupLevel s es = 5 then 7#4 else 1#4)
      ∧ u.eav.seq = s.eav.seq + 1 ∧ u.flash = s.flash ∧ exec (.arbitrationStep env) s = .next (resetAndBoot 2 env u))
  ∧ (∀ (who : Who) (s : State), PairTakes who 0x100028 s → s.eav.detected = [] →
    (activeAt s 3 = false →
      ∃ t, exec (.ack who) s = .next t ∧ t.eav.holdPurge = false ∧ t.eav.ackRef = false ∧ t.eav.holdThr = s.eav.holdThr
        ∧ t.eav.holdSus = s.eav.holdSus
        ∧ t.eav.detected = [(0x45, padTo 16 [BitVec.ofNat 8 (heldLevel s), BitVec.ofNat 8 (heldLevel t)])]
        ∧ SameOutside [.eav, .pairs] s t)
    ∧ (activeAt s 3 = true →
      ∃ t, exec (.ack who) s = .next t ∧ t.eav.holdPurge = s.eav.holdPurge ∧ t.eav.ackRef = true ∧ t.eav.detected = []
        ∧ SameOutside [.eav, .pairs] s t))
  ∧ (∀ (who : Who) (s : State), PairTakes who 0x100028 s → s.eav.detected ≠ [] →
    ∃ t, exec (.ack who) s = .next t ∧ t.eav.ackTaken = true ∧ t.eav.holdPurge = s.eav.holdPurge
      ∧ t.eav.detected = s.eav.detected ∧ SameOutside [.eav, .pairs] s t)
  ∧ (∀ (n : BitVec 7) (s : State), PairTakes .warden 0x100048 s →
    ∃ t, exec (.ringAck .warden n) s = .next t ∧ t.eav.ring = s.eav.ring ∧ t.eav.ringNext = s.eav.ringNext
      ∧ t.eav.ringCount = (if 1 ≤ n.toNat ∧ n.toNat ≤ s.eav.ringCount then s.eav.ringCount - n.toNat else s.eav.ringCount)
      ∧ SameOutside [.eav, .pairs] s t)
  ∧ (∀ (s : State), ∃ t, exec .holdRelease s = .next t ∧ t.eav.holdThr = (s.eav.holdThr && activeWith s 1)
      ∧ t.eav.holdSus = (s.eav.holdSus && activeWith s 2) ∧ t.eav.holdPurge = s.eav.holdPurge
      ∧ (heldLevel t ≠ heldLevel s → t.eav.cause.getLsbD 3 = true) ∧ SameOutside [.eav] s t)
  ∧ (∀ (x : Nat) (s : State), mainPower s = true → (SMap.get {} s.pairs x).work = true →
    ∃ t, exec (.shadowScrub [x] []) s = .next t ∧ pairRead t x = 0
      ∧ t.eav.detected = s.eav.detected ++ [(srcShadow, padTo 16 ([2, 0, 0, 0] ++ leBytes 4 x))]
      ∧ SameOutside [.eav, .pairs] s t)
  ∧ (∀ (n : Fin 22) (s : State), mainPower s = true → s.img.locked = true → s.img.latched.alarm ≠ [] →
    ∃ t, exec (.shadowScrub [] [.level n.val]) s = .next t ∧ levelOf t n.val = 5
      ∧ t.eav.detected = s.eav.detected ++ [(srcShadow, padTo 16 ([2, 0, 0, 0] ++ leBytes 4 0xFFFFFFFF))]
      ∧ SameOutside [.eav, .img] s t)
  ∧ (∀ (n : Fin 22) (tb : List AlarmEntry) (s : State), mainPower s = false → s.eav.retained = some tb → tb.length = 22 →
    ∃ t, exec (.shadowScrub [] [.retained n.val]) s = .next t ∧ levelOf t n.val = 5
      ∧ (∀ k, k ≠ n.val → levelOf t k = levelOf s k)
      ∧ t.eav.detected = s.eav.detected ++ [(srcShadow, padTo 16 ([2, 0, 0, 0] ++ leBytes 4 0xFFFFFFFF))]
      ∧ SameOutside [.eav] s t)
  ∧ (∀ (land : Fin 2) (mv : BitVec 12) (s : State),
    ∃ t, exec (.vbatSwap land mv) s = .next t ∧ (if land.val = 0 then t.eav.vbat0 else t.eav.vbat1) = mv.toNat
      ∧ (if 1700 < mv.toNat ∧ s.eav.vbatLow.getLsbD land.val = true then
          t.eav.detected = s.eav.detected ++ [(0x47, padTo 16 [BitVec.ofNat 8 land.val])] ∧ t.eav.cause.getLsbD 4 = true
            ∧ t.eav.vbatLow.getLsbD land.val = false
        else t.eav.detected = s.eav.detected
          ∧ t.eav.vbatLow.getLsbD land.val = (s.eav.vbatLow.getLsbD land.val || decide (mv.toNat < 1000)))
      ∧ SameOutside [.eav] s t)
  ∧ (∀ (s : State), s.sys.power ≠ .vault →
    ∃ t, exec .vaultEntry s = .next t ∧ t.sys.power = .vault ∧ t.eav.detected = s.eav.detected ++ [(0x41, padTo 16 [])]
      ∧ t.eav.ring = s.eav.ring ∧ t.eav.seq = s.eav.seq ∧ t.eav.pend = s.eav.pend ∧ t.eav.fuses = s.eav.fuses
      ∧ t.hqi = {} ∧ t.ks = {} ∧ t.cores = [] ∧ t.img.staging = [] ∧ t.ret = s.ret)
  ∧ (∀ (s : State), s.sys.power = .vault →
    exec (.vaultExit true) s = .next { s with
      elec := { s.elec with vaonOk := true }
      sys := { s.sys with power := .standby }
      eav := withEvent 0x42 [] s.eav }
    ∧ ∃ t, exec (.vaultExit false) s = .next t ∧ t.eav.vault = [] ∧ t.eav.aon = 0 ∧ t.eav.seq = 1 ∧ t.eav.pend = 1#4
      ∧ t.eav.ringCount = 1 ∧ (SMap.get [] t.eav.ring 0).take 6 = [0, 0, 0, 0, 0, 0x48] ∧ t.eav.retained = none
      ∧ t.eav.fuses = s.eav.fuses ∧ t.sys.power = .standby ∧ t.flash = s.flash)
  ∧ (∀ (s : State), mainPower s = true →
    ∃ t, exec .mainPowerLoss s = .next t ∧ t.sys.power = (if s.elec.vaonOk then .standby else .vault) ∧ t.hqi = {} ∧ t.ks = {}
      ∧ t.cores = [] ∧ t.trusses = [] ∧ t.img.staging = [] ∧ t.eav.ring = s.eav.ring ∧ t.eav.seq = s.eav.seq
      ∧ t.eav.fuses = s.eav.fuses
      ∧ (s.flc.run = .none → s.flc.jrun = none → s.flc.erase = .none → t.flash = s.flash)
      ∧ (∀ a, a < 32 → SMap.get 0 t.eav.vault a = 0)
      ∧ (activeAt t 4 = false → ∀ a, 32 ≤ a → SMap.get 0 t.eav.vault a = SMap.get 0 s.eav.vault a))

/-! ### Slate port and ceremonies (14_slate_port_ceremonies.md) -/

/-- The slots, the two card protocols and the ceremony engine (R398, R399, R401, R405 to R407, R409, R413, R415, R417 to R420,
R425 to R428). Insertion powers a slot and sends IDENT; removal stops its STEP and cuts its supply. Responses, data blocks,
tokens, the busy release and the limits of R406 move a STEP on. A reply that verifies counts its custodian once, and the
approval that completes the quorum carries the ceremony out. A share write counts only when STATUS shows the WSEQ expected;
otherwise it is unconfirmed. OPEN checks and opens a ceremony with a new number and digest; STEP, ABORT, CLOSE and the two
expiries act as stated. -/
def Obligations.SlatePortAndCeremonies : Prop :=
  (∀ (n : Fin 2) (s : State), powered s = true → (slotOf s n.val).present = false →
    ∃ t, exec (.slotPresent n) s = .next t ∧ (slotOf t n.val).present = true ∧ t.slt.cause.getLsbD (2 + 2 * n.val) = true
      ∧ (if s.sys.power = .active ∧ wardenUp s = true ∧ retiredLc s = false then
          (slotOf t n.val).powered = true ∧ (slotOf t n.val).stage = .ident
            ∧ t.out = .linkCommand n.val (slateFrame 1 1 0) :: s.out
        else (slotOf t n.val).powered = false ∧ t.out = s.out) ∧ SameOutside [.slt, .out] s t)
  ∧ (∀ (n : Fin 2) (s : State), powered s = true → (slotOf s n.val).present = true → (slotOf s n.val).step = false →
    ∃ t, exec (.slotAbsent n) s = .next t ∧ (slotOf t n.val).present = false ∧ (slotOf t n.val).powered = false
      ∧ (slotOf t n.val).session = none ∧ t.slt.cause.getLsbD (3 + 2 * n.val) = true ∧ t.slt.cer = s.slt.cer
      ∧ SameOutside [.slt] s t)
  ∧ (∀ (n : Fin 2) (c : Ceremony) (s : State), powered s = true → (slotOf s n.val).present = true → StepRuns n.val c s →
    ∃ t d, exec (.slotAbsent n) s = .next t ∧ StepEnded n.val stAborted t ∧ (slotOf t n.val).present = false
      ∧ t.slt.cause.getLsbD (3 + 2 * n.val) = true ∧ t.slt.cer = some d ∧ d.counted = c.counted ∧ d.wrote = c.wrote
      ∧ (midWrite (slotOf s n.val) = true → t.slt.cause.getLsbD 6 = true ∧ (slotOf t n.val).unconf = true)
      ∧ SameOutside (.slt :: flashParts) s t)
  ∧ (∀ (n : Fin 2) (rate : Nat) (s : State), SlotServed n.val s → (slotOf s n.val).proto ≠ 2 → (slotOf s n.val).stage = .ident →
    (slotOf s n.val).seq < 256 → rate < 16 →
    ∃ t, exec (.slateResponse n ⟨slateReply 1 (slotOf s n.val).seq 0 rate⟩) s = .next t ∧ (slotOf t n.val).proto = 1
      ∧ (slotOf t n.val).maxRate = rateCap rate ∧ (slotOf t n.val).stage = .identBlock ∧ SameOutside [.slt] s t)
  ∧ (∀ (n : Fin 2) (f : List Byte) (s : State), SlotServed n.val s → (slotOf s n.val).proto ≠ 2 →
    (slotOf s n.val).stage = .ident → (slotOf s n.val).retries < 3 → (slotOf s n.val).rate = 0 → f.length = 7 →
    crc8 (f.take 6) ≠ f.getD 6 0 →
    ∃ t, exec (.slateResponse n ⟨f⟩) s = .next t ∧ (slotOf t n.val).crcErr = satInc 0xFFFF (slotOf s n.val).crcErr
      ∧ (slotOf t n.val).stage = .ident ∧ (slotOf t n.val).seq = ((slotOf s n.val).seq + 1) % 256
      ∧ t.out = .linkCommand n.val (slateFrame 1 (((slotOf s n.val).seq + 1) % 256) 0) :: s.out ∧ SameOutside [.slt, .out] s t)
  ∧ (∀ (n : Fin 2) (b w : Nat) (c : Ceremony) (s : State), StepRuns n.val c s → (slotOf s n.val).stage = .postStatus b →
    (slotOf s n.val).seq < 256 → w < 65536 → s.slt.phase = .postQuorum → c.typ = 7 → c.wrote.length + 1 < c.param / 256 →
    ∃ t d, exec (.slateResponse n ⟨slateReply 4 (slotOf s n.val).seq 0 w⟩) s = .next t ∧ t.slt.cer = some d
      ∧ (slotOf t n.val).wseq = w ∧ d.counted = c.counted
      ∧ (if w = (slotOf s n.val).expect then StepEnded n.val stOk t ∧ d.post = c.post + 1
          ∧ d.wrote = c.wrote ++ [((slotOf s n.val).custId, (slotOf s n.val).writeX)] ∧ (slotOf t n.val).unconf = false
        else StepEnded n.val stAborted t ∧ d.post = c.post ∧ d.wrote = c.wrote ∧ (slotOf t n.val).unconf = true
          ∧ t.slt.cause.getLsbD 6 = true)
      ∧ SameOutside (.slt :: .out :: flashParts) s t)
  ∧ (∀ (n : Fin 2) (blk : SlateBlock) (s : State), SlotServed n.val s → (slotOf s n.val).proto = 1 →
    (slotOf s n.val).stage = .identBlock → (slotOf s n.val).step = false → blockGood (slotOf s n.val).rate 512 blk = true →
    blk.bytes.take 6 = [0x53, 0x4C, 0x49, 0x44, 1, 0] →
    ∃ t, exec (.dataBlockReceived n blk) s = .next t
      ∧ (slotOf t n.val).custId = (sha384 (slice blk.bytes 0x18 96)).take 16 ∧ (slotOf t n.val).wseq = leAt blk.bytes 6 2
      ∧ (slotOf t n.val).powered = false ∧ SameOutside [.slt, .out] s t)
  ∧ (∀ (n : Fin 2) (blk : SlateBlock) (c : Ceremony) (s : State), StepRuns n.val c s → (slotOf s n.val).stage = .replyBlock →
    blockGood (slotOf s n.val).rate 512 blk = true → s.slt.phase = .approving → c.typ ≠ 1 →
    (c.counted.contains (slotOf s n.val).custId = true →
      ∃ t d, exec (.dataBlockReceived n blk) s = .next t ∧ StepEnded n.val stStateRefused t ∧ t.slt.cer = some d
        ∧ d.counted = c.counted ∧ SameOutside (.slt :: .out :: flashParts) s t)
    ∧ (c.counted.contains (slotOf s n.val).custId = false →
      (countsAll s c.typ || rosterCounts s c (slotOf s n.val).custId) = false →
      ∃ t d, exec (.dataBlockReceived n blk) s = .next t ∧ StepEnded n.val stNotPermitted t ∧ t.slt.cer = some d
        ∧ d.counted = c.counted ∧ SameOutside (.slt :: .out :: flashParts) s t)
    ∧ (c.counted.contains (slotOf s n.val).custId = false →
      (countsAll s c.typ || rosterCounts s c (slotOf s n.val).custId) = true →
      (c.counted.length + 1 < c.required →
        ∃ t d, exec (.dataBlockReceived n blk) s = .next t ∧ t.slt.cer = some d ∧ t.slt.phase = .approving
          ∧ (if replyVerifies (slotOf s n.val) blk.bytes then
              StepEnded n.val stOk t ∧ d.counted = c.counted ++ [(slotOf s n.val).custId]
            else StepEnded n.val stVerifyFailed t ∧ d.counted = c.counted)
          ∧ SameOutside (.slt :: .out :: flashParts) s t)
      ∧ (c.counted.length + 1 = c.required → c.typ = 4 → s.img.phase = .staged →
        ∃ t, exec (.dataBlockReceived n blk) s = .next t
          ∧ (if replyVerifies (slotOf s n.val) blk.bytes then
              StepEnded n.val stOk t ∧ t.img = { s.img with phase := .approved } ∧ t.slt.cer = none ∧ t.slt.phase = .idle
            else StepEnded n.val stVerifyFailed t ∧ t.img = s.img)
          ∧ SameOutside (.slt :: .out :: .img :: flashParts) s t)))
  ∧ (∀ (n : Fin 2) (s : State), SlotServed n.val s →
    (∀ b, (slotOf s n.val).stage = .writeToken b →
      exec (.crcToken n 0b010) s = .next (setSlot n.val { slotOf s n.val with stage := .busy b } s))
    ∧ (∀ b, (slotOf s n.val).stage = .writeToken b → (slotOf s n.val).proto = 1 → (slotOf s n.val).repeated = false →
      ∃ t, exec (.crcToken n 0b101) s = .next t ∧ (slotOf t n.val).stage = .writeCmd b ∧ (slotOf t n.val).repeated = true
        ∧ t.out = .linkCommand n.val (slateFrame 9 (((slotOf s n.val).seq + 1) % 256) b) :: s.out
        ∧ SameOutside [.slt, .out] s t)
    ∧ (∀ b, (slotOf s n.val).stage = .busy b → (slotOf s n.val).proto = 1 → (slotOf s n.val).rate < 2 →
      ∃ t, exec (.busyRelease n) s = .next t ∧ (slotOf t n.val).stage = .postStatus b
        ∧ t.out = .linkCommand n.val (slateFrame 4 (((slotOf s n.val).seq + 1) % 256) 0) :: s.out
        ∧ SameOutside [.slt, .out] s t)
    ∧ ((slotOf s n.val).stage = .poll → (slotOf s n.val).proto = 1 → (slotOf s n.val).rate < 2 →
      ∃ t, exec (.replyPoll n) s = .next t ∧ (slotOf t n.val).stage = .poll
        ∧ t.out = .linkCommand n.val (slateFrame 0xB (((slotOf s n.val).seq + 1) % 256) 0) :: s.out
        ∧ SameOutside [.slt, .out] s t)
    ∧ ((slotOf s n.val).stage = .ident → (slotOf s n.val).proto = 0 →
      2800 ≤ Config.vioMillivolts ∨ Config.vioMillivolts ≤ 1980 →
      ∃ t, exec (.slateTimeout n .noResponse) s = .next t ∧ (slotOf t n.val).stage = .atr false ∧ (slotOf t n.val).proto = 2
        ∧ (slotOf t n.val).timeouts = satInc 0xFFFF (slotOf s n.val).timeouts ∧ SameOutside [.slt] s t))
  ∧ (∀ (n : Fin 2) (b : Nat) (c : Ceremony) (s : State), StepRuns n.val c s → (slotOf s n.val).stage = .busy b →
    ∃ t d, exec (.slateTimeout n .busy) s = .next t ∧ StepEnded n.val stAborted t ∧ (slotOf t n.val).unconf = true
      ∧ t.slt.cause.getLsbD 6 = true ∧ t.slt.cer = some d ∧ d.wrote = c.wrote ∧ d.post = c.post
      ∧ SameOutside (.slt :: .out :: flashParts) s t)
  ∧ (∀ (n : Fin 2) (s : State), SlotServed n.val s → (slotOf s n.val).step = false →
    (∀ w bwi ifsc, (slotOf s n.val).stage = .atr w → bwi ≤ 9 →
      ∃ t, exec (.atr n (.ok true true bwi ifsc)) s = .next t ∧ (slotOf t n.val).stage = .ifs
        ∧ (slotOf t n.val).ifsc = min 254 ifsc ∧ t.out = .cardBlock n.val [0, 0xC1, 1, 0xFE, 0x3E] :: s.out
        ∧ SameOutside [.slt, .out] s t)
    ∧ ((slotOf s n.val).stage = .atr false → exec (.atr n .mute) s = .next (setSlot n.val { slotOf s n.val with stage := .atr true } s))
    ∧ (∀ r, (slotOf s n.val).stage = .atr true → r = .mute ∨ r = .parity ∨ (∃ l b i, r = .ok false l b i) →
      ∃ t, exec (.atr n r) s = .next t ∧ (slotOf t n.val).proto = 3 ∧ (slotOf t n.val).powered = false
        ∧ SameOutside [.slt, .out] s t)
    ∧ (∀ m : Byte, (slotOf s n.val).stage = .ifs → (slotOf s n.val).proto = 2 →
      exec (.t1BlockReceived n (.sWtx m)) s = .next { s with out := .cardBlock n.val [0, 0xE3, 1, m, 0xE2 ^^^ m] :: s.out })
    ∧ (∀ m : Byte, (slotOf s n.val).stage = .ifs → (slotOf s n.val).proto = 2 → 5 ≤ (slotOf s n.val).ifsc → (slotOf s n.val).ns = 0 →
      ∃ t, exec (.t1BlockReceived n (.sIfsResponse m)) s = .next t ∧ (slotOf t n.val).stage = .ident
        ∧ t.out = .cardBlock n.val [0, 0, 5, 0x80, 1, 0, 0, 128, 0x04] :: s.out ∧ SameOutside [.slt, .out] s t))
  ∧ (∀ (who : Who) (s : State), CerTakes who s →
    (openStatus s s.slt.ctype s.slt.target s.slt.param s.slt.subj false false = stOk →
      ∃ t c, exec (.ceremonyOpen who) s = .next t ∧ CerEnded stOk t ∧ t.slt.cer = some c ∧ t.slt.phase = .approving
        ∧ t.slt.cerNo = (s.slt.cerNo + 1) % 2 ^ 32 ∧ c.typ = s.slt.ctype ∧ c.target = s.slt.target
        ∧ c.param = s.slt.param.toNat ∧ c.subject = s.slt.subj ∧ c.counted = []
        ∧ c.required = (needOf s s.slt.ctype s.slt.param).1
        ∧ c.digest = sha384 ([0x43, 0x45, 0x52, 0x4D] ++ leBytes 4 t.slt.cerNo ++ [BitVec.ofNat 8 s.slt.ctype,
            BitVec.ofNat 8 s.slt.target, 0, 0] ++ leBytes 4 s.slt.param.toNat ++ serialBytes s ++ padTo 48 s.slt.subj)
        ∧ SameOutside (.slt :: .pairs :: flashParts) s t)
    ∧ (∀ st, openStatus s s.slt.ctype s.slt.target s.slt.param s.slt.subj false false = st → st ≠ stOk →
      ∃ t, exec (.ceremonyOpen who) s = .next t ∧ CerEnded st t ∧ t.slt.cer = s.slt.cer ∧ t.slt.cerNo = s.slt.cerNo
        ∧ t.slt.phase = s.slt.phase ∧ SameOutside [.slt, .pairs] s t))
  ∧ (∀ (who : Who) (c : Ceremony) (s : State), CerTakes who s → s.slt.cer = some c →
    ((slotOf s s.slt.slotSel).present = true → (slotOf s s.slt.slotSel).proto ≠ 3 → (slotOf s s.slt.slotSel).powered = false →
      ∃ t, exec (.ceremonyStep who) s = .next t ∧ t.slt.busy = true ∧ t.slt.cer = some { c with stepSlot := some s.slt.slotSel }
        ∧ (slotOf t s.slt.slotSel).step = true ∧ (slotOf t s.slt.slotSel).powered = true
        ∧ (slotOf t s.slt.slotSel).stage = .ident ∧ t.slt.cause = s.slt.cause ∧ SameOutside [.slt, .out, .pairs] s t)
    ∧ ((slotOf s s.slt.slotSel).present = false →
      ∃ t, exec (.ceremonyStep who) s = .next t ∧ CerEnded stStateRefused t ∧ t.slt.cause.getLsbD 1 = true
        ∧ t.slt.cer = s.slt.cer ∧ SameOutside [.slt, .pairs] s t))
  ∧ (∀ (who : Who) (s : State), CerTakes who s → s.slt.cer = none →
    ∃ t, exec (.ceremonyStep who) s = .next t ∧ CerEnded stStateRefused t ∧ t.slt.cause.getLsbD 1 = true ∧ t.slt.cer = none
      ∧ SameOutside [.slt, .pairs] s t)
  ∧ (∀ (who : Who) (s : State), PairTakes who 0x901000 s → wardenUp s = true → retiredLc s = false → s.btn.table = none →
    (∀ c, s.slt.cer = some c → (∀ n, c.stepSlot = some n → (slotOf s n).step = true) →
      ∃ t, exec (.ceremonyAbort who) s = .next t ∧ CerEnded stOk t ∧ t.slt.cer = none ∧ t.slt.phase = .idle
        ∧ (∀ n, c.stepSlot = some n → StepEnded n stOk t ∧ (midWrite (slotOf s n) = true → t.slt.cause.getLsbD 6 = true))
        ∧ SameOutside (.slt :: .pairs :: flashParts) s t)
    ∧ (s.slt.cer = none →
      ∃ t, exec (.ceremonyAbort who) s = .next t ∧ CerEnded stStateRefused t ∧ t.slt.cer = none ∧ SameOutside [.slt, .pairs] s t))
  ∧ (∀ (who : Who) (s : State), CerTakes who s →
    (s.slt.phase = .exportOpen → (∀ c, s.slt.cer = some c → c.stepSlot = none) →
      ∃ t, exec (.ceremonyClose who) s = .next t ∧ CerEnded stOk t ∧ t.slt.cer = none ∧ t.slt.phase = .idle
        ∧ t.slt.exportG = none ∧ SameOutside [.slt, .pairs] s t)
    ∧ (s.slt.phase ≠ .exportOpen →
      ∃ t, exec (.ceremonyClose who) s = .next t ∧ CerEnded stStateRefused t ∧ t.slt.cer = s.slt.cer
        ∧ t.slt.phase = s.slt.phase ∧ SameOutside [.slt, .pairs] s t))
  ∧ (∀ (c : Ceremony) (s : State), wardenUp s = true → s.btn.table = none → s.slt.cer = some c → c.stepSlot = none →
    (s.slt.phase ≠ .exportOpen →
      ∃ t, exec .ceremonyExpiry s = .next t ∧ t.slt.cer = none ∧ t.slt.phase = .idle ∧ t.slt.cause.getLsbD 8 = true
        ∧ t.slt.roster = s.slt.roster ∧ t.slt.quorum = s.slt.quorum ∧ SameOutside (.slt :: flashParts) s t)
    ∧ (s.slt.phase = .exportOpen →
      exec .exportWindowExpiry s = .next { s with slt := { s.slt with
        cer := none
        phase := .idle
        exportG := none } }))

/-! ### Batten link and cascade (15_batten_cascade.md) -/

/-- Ports, the cascade table, roles, replication, leases and forwarded work (R430 to R438, R440 to R449). A port whose lanes
train sends its signed HELLO; the peer's HELLO makes it UP, CANDIDATE or REFUSED. A good flit advances the sequence and frees
the replay buffer, any other asks for a replay, and 16 tag failures within 1 ms take the port down. A member takes a table of a
higher EPOCH only; a removed one loses its KSRK. Without a ridge the successor asks for votes and becomes the ridge of the next
EPOCH with more than half of them, and others become ISOLATED. Changes are applied in sequence. A grant is
sent once a reservation covers its block, and leases are taken at most two per counter. A FORWARD that this member cannot serve is answered with NOT_PERMITTED or SUSPENDED. The bytes of control
packets, of the HELLO and of packets within flits are the model's own (logs 1503 and 1504). -/
def Obligations.CascadeAndBatten : Prop :=
  (∀ (n : Fin 2) (lanes : BitVec 4) (s : State), portsServe s = true → wardenUp s = true → (btnPort s n.val).phase = .down →
    (btnPort s n.val).needGap = false →
    (lanesUsed lanes.toNat = 0 → exec (.portTrain n lanes) s = .next s)
    ∧ (lanesUsed lanes.toNat ≠ 0 →
      match drbgDraw 36 56 false s with
      | (none, u) => exec (.portTrain n lanes) s = .next u
      | (some b, u) =>
        match identitySign (sha384 (helloBody u (nonceOf bp384 b))) u with
        | (none, v) => exec (.portTrain n lanes) s = .next v
        | (some sig, v) => ∃ t, exec (.portTrain n lanes) s = .next t ∧ (btnPort t n.val).phase = .handshake
            ∧ (btnPort t n.val).lanes = lanesUsed lanes.toNat ∧ (btnPort t n.val).ephem = nonceOf bp384 b
            ∧ t.out = .hello n.val (helloBody u (nonceOf bp384 b) ++ sig) :: v.out ∧ SameOutside [.btn, .out] v t))
  ∧ (∀ (n : Fin 2) (h : Hello) (s : State), (btnPort s n.val).phase = .handshake → portsServe s = true →
    ∃ t, exec (.hello n h) s = .next t ∧ SameOutside [.btn, .out] s t
      ∧ (if helloCommon s h && leBytes 16 h.ksrkId.toNat == ksrkId s && (inOurTable s h && h.inTheirTable) then
          (btnPort t n.val).phase = .up ∧ (btnPort t n.val).peer = some h.member ∧ t.btn.cause.getLsbD (2 * n.val) = true
        else if helloCommon s h && !(inOurTable s h && h.inTheirTable)
            && ((mayJoin s && !h.soloEmpty) || (h.soloEmpty && s.btn.table.isSome)) then
          (btnPort t n.val).phase = .candidate ∧ t.btn.cause.getLsbD (2 * n.val) = true ∧ t.btn.reach = s.btn.reach
        else (btnPort t n.val).phase = .refused ∧ (btnPort t n.val).needGap = true ∧ t.btn.reach = s.btn.reach
          ∧ (¬(h.chainOk && h.sigOk) → t.btn.cause.getLsbD 7 = true)))
  ∧ (∀ (n : Fin 2) (s : State), portsServe s = true →
    ((btnPort s n.val).phase = .refused ∨ (btnPort s n.val).phase = .up) →
    ∃ t, exec (.sidebandAbsence n) s = .next t ∧ (btnPort t n.val).phase = .down ∧ (btnPort t n.val).needGap = false
      ∧ ((btnPort s n.val).phase = .up → t.btn.cause.getLsbD (2 * n.val + 1) = true) ∧ SameOutside [.btn] s t)
  ∧ (∀ (n : Fin 2) (f : Flit) (s : State), carries (btnPort s n.val) = true → f.tagOk = true → f.kind ≠ 3 →
    f.fseq.toNat = ((btnPort s n.val).rxSeq + 1) % 65536 → (btnPort s n.val).waiting = [] →
    ∃ t, exec (.flitReceived n f) s = .next t ∧ (btnPort t n.val).rxSeq = f.fseq.toNat
      ∧ (btnPort t n.val).rxCtr = (btnPort s n.val).rxCtr + 1
      ∧ (btnPort t n.val).credits = min 64 ((btnPort s n.val).credits + f.credits.toNat)
      ∧ (btnPort t n.val).replay
        = (btnPort s n.val).replay.filter (fun x => decide (32768 ≤ (f.ack.toNat + 65536 - x.1) % 65536))
      ∧ (btnPort t n.val).phase = (btnPort s n.val).phase ∧ SameOutside [.btn] s t)
  ∧ (∀ (n : Fin 2) (f : Flit) (s : State), carries (btnPort s n.val) = true →
    (f.tagOk = false ∧ (btnPort s n.val).tagTimes.length < 15
      ∨ f.tagOk = true ∧ f.fseq.toNat ≠ ((btnPort s n.val).rxSeq + 1) % 65536) →
    ∃ t, exec (.flitReceived n f) s = .next t ∧ (btnPort t n.val).rxSeq = (btnPort s n.val).rxSeq
      ∧ (btnPort t n.val).tagFail = (if f.tagOk then (btnPort s n.val).tagFail else satInc 0xFFFF (btnPort s n.val).tagFail)
      ∧ t.out = .flit n.val (flitBytes (btnPort s n.val).txKey (sendDir s (btnPort s n.val)) (btnPort s n.val).txCtr 3
          (min 64 (btnPort s n.val).freed) (((btnPort s n.val).txSeq + 1) % 65536) (btnPort s n.val).rxSeq
          (leBytes 2 (btnPort s n.val).rxSeq)) :: s.out
      ∧ (btnPort t n.val).phase = (btnPort s n.val).phase ∧ SameOutside [.btn, .out] s t)
  ∧ (∀ (n : Fin 2) (f : Flit) (s : State), (btnPort s n.val).phase = .up → f.tagOk = false →
    15 ≤ (btnPort s n.val).tagTimes.length → s.eav.aon ≤ (btnPort s n.val).tagTimes.getD 14 0 + 32 →
    ∃ t, exec (.flitReceived n f) s = .next t ∧ (btnPort t n.val).phase = .down ∧ t.btn.cause.getLsbD 7 = true
      ∧ t.btn.cause.getLsbD (2 * n.val + 1) = true ∧ SameOutside [.btn] s t)
  ∧ (∀ (n : Fin 2) (s : State), carries (btnPort s n.val) = true → (btnPort s n.val).waiting = [] →
    ∃ t, exec (.idleFlit n) s = .next t
      ∧ t.out = .flit n.val (flitBytes (btnPort s n.val).txKey (sendDir s (btnPort s n.val)) (btnPort s n.val).txCtr 2
          (min 64 (btnPort s n.val).freed) (((btnPort s n.val).txSeq + 1) % 65536) (btnPort s n.val).rxSeq []) :: s.out
      ∧ (btnPort t n.val).txCtr = (btnPort s n.val).txCtr + 1 ∧ (btnPort t n.val).credits = (btnPort s n.val).credits
      ∧ SameOutside [.btn, .out] s t)
  ∧ (∀ (n : Fin 2) (s : State), (btnPort s n.val).phase = .up →
    ∃ t, exec (.portTimeout n) s = .next t ∧ (btnPort t n.val).phase = .down ∧ t.btn.cause.getLsbD (2 * n.val + 1) = true
      ∧ ((btnPort s (1 - n.val)).phase ≠ .up → ∀ m, m ≠ s.btn.member → reachable t m = false) ∧ SameOutside [.btn] s t)
  ∧ (∀ (n : Fin 2) (tx : Bool) (s : State), carries (btnPort s n.val) = true →
    ∃ t, exec (.rekey n tx) s = .next t ∧ SameOutside [.btn] s t
      ∧ (btnPort t n.val).txCtr = (btnPort s n.val).txCtr ∧ (btnPort t n.val).rxCtr = (btnPort s n.val).rxCtr
      ∧ (btnPort t n.val).txKey = (if tx = true ∧ (btnPort s n.val).txRekeys < (btnPort s n.val).txCtr / 2 ^ 32 then
          kdfHmac (btnPort s n.val).txKey (ascii "LA-BTRK") [] 32 else (btnPort s n.val).txKey)
      ∧ (btnPort t n.val).rxKey = (if tx = false ∧ (btnPort s n.val).rxRekeys < (btnPort s n.val).rxCtr / 2 ^ 32 then
          kdfHmac (btnPort s n.val).rxKey (ascii "LA-BTRK") [] 32 else (btnPort s n.val).rxKey))
  ∧ (∀ (tab old : CascadeTable) (s : State), wardenUp s = true → s.btn.table = some old →
    (tab.epoch.toNat ≤ old.epoch.toNat → exec (.cascadeTableUpdate tab false) s = .next s)
    ∧ (∀ m, old.epoch.toNat < tab.epoch.toNat → memberIn s tab = some m →
      ∃ t, exec (.cascadeTableUpdate tab false) s = .next t ∧ t.btn.table = some tab ∧ t.btn.member = m
        ∧ t.btn.role = (if tab.ridge = m then .ridge else if s.btn.role = .isolated then .isolated else .rafter)
        ∧ t.eav = s.eav ∧ t.ks = s.ks ∧ t.hqi = s.hqi ∧ t.slt = s.slt)
    ∧ (∃ t, exec (.cascadeTableUpdate tab true) s = .next t ∧ t.btn.table = none ∧ t.btn.role = .solo
        ∧ ksrk t = List.replicate 32 0 ∧ t.eav.pend = s.eav.pend ||| 1 ∧ t.btn.cause.getLsbD 4 = true))
  ∧ (∀ (root : List Byte) (roster : List (List Byte)) (quorum : List (Nat × Nat × Nat)) (tab : CascadeTable) (s : State),
    wardenUp s = true → ((btnPort s 0).phase = .candidate ∨ (btnPort s 1).phase = .candidate) → mayJoin s = true →
    s.btn.candidate = false → root.length = 32 →
    ∃ t, exec (.joinTransfer root roster quorum tab) s = .next t ∧ ksrk t = root ∧ t.ks.phase = .isOpen ∧ t.ks.seq = 0
      ∧ t.btn.candidate = true ∧ t.slt.roster.length = roster.length ∧ t.btn.table = none ∧ t.eav.pend = s.eav.pend)
  ∧ (∀ (tab : CascadeTable) (s : State), wardenUp s = true → s.btn.table = some tab → ridgeRoute s = false →
    ∃ t, exec .ridgeLossTimeout s = .next t
      ∧ (if tab.succ = s.btn.member then t.btn.electing = true ∧ t.btn.votes = [s.btn.member] ∧ t.btn.role = s.btn.role
          ∧ t.btn.table = s.btn.table
        else t.btn.role = .isolated ∧ t.btn.table = s.btn.table ∧ t.out = s.out
          ∧ (s.btn.role ≠ .isolated → t.btn.cause.getLsbD 8 = true ∧ t.btn.holdOut = decide (tab.hold = 0)
            ∧ t.btn.holdEnd = s.eav.aon + 32768 * tab.hold))
      ∧ SameOutside [.btn, .out] s t)
  ∧ (∀ (voters : List Nat) (tab : CascadeTable) (s : State), wardenUp s = true → s.btn.table = some tab →
    ridgeRoute s = false → tab.succ = s.btn.member → s.btn.electing = true → s.btn.role ≠ .isolated →
    (∀ vs, vs = (s.btn.member :: voters.filter fun m => m != s.btn.member && decide (m < tab.n) && reachable s m).eraseDups →
      ∃ t, exec (.voteRequest voters) s = .next t
        ∧ (if tab.n / 2 + 1 ≤ vs.length then t.btn.role = .ridge ∧ t.btn.cause.getLsbD 4 = true ∧ ∃ u, t.btn.table = some u
            ∧ u.epoch = tab.epoch + 1 ∧ u.ridge = s.btn.member ∧ u.n = tab.n ∧ u.members = tab.members
            ∧ u.succ = nextSucc s s.btn.member
          else t.btn.role = .isolated ∧ t.btn.table = some tab ∧ t.btn.cause.getLsbD 8 = true)))
  ∧ (∀ (voters : List Nat) (tab : CascadeTable) (s : State), wardenUp s = true → s.btn.table = some tab →
    tab.succ ≠ s.btn.member →
    exec (.voteRequest voters) s
      = .next (if ridgeRoute s then s else sendControl tab.succ ctlVote (leBytes 8 tab.epoch.toNat) s))
  ∧ (∀ (tab : CascadeTable) (s : State), wardenUp s = true → s.btn.table = some tab → s.btn.role = .ridge →
    tab.ridge = s.btn.member → tab.succ ≠ noSucc → reachable s tab.succ = false →
    ∃ t, exec .successorLossTimeout s = .next t ∧ t.btn.role = .ridge
      ∧ (if (nextSucc s s.btn.member ≠ noSucc ∨ tab.n ≤ 2) ∧ (tab.n + 1) / 2 ≤ (reachables s).length + 1 then
          ∃ u, t.btn.table = some u ∧ u.epoch = tab.epoch + 1 ∧ u.succ = nextSucc s s.btn.member ∧ u.ridge = s.btn.member
        else t.btn.table = some tab ∧ t.btn.electing = true ∧ SameOutside [.btn] s t))
  ∧ (∀ (s : State), s.btn.role = .isolated →
    exec .holdExpiry s = .next { s with btn := { s.btn with holdOut := true } })
  ∧ (∀ (tab : CascadeTable) (k : Nat) (c : Cmd) (s : State), wardenUp s = true → s.btn.table = some tab →
    ridgeRoute s = false → s.sym.ports = [] → s.hqi.cmds = [c] → c.finished = false → c.waits = some k →
    ctrNextValue s k = none → exec .ridgeWaitTimeout s = .next (endCmd c.ref stLinkLost 0 [] s))
  ∧ (∀ (ch : KsChange) (tab : CascadeTable) (s : State), wardenUp s = true → s.ks.phase = .isOpen → s.btn.table = some tab →
    s.btn.role = .rafter → ridgeRoute s = true →
    (ch.seq ≤ s.ks.seq → exec (.replicationChange ch) s = .next s)
    ∧ (s.ks.seq + 1 < ch.seq →
      exec (.replicationChange ch) s = .next (sendControl tab.ridge ctlMissing (leBytes 8 s.ks.seq) s))
    ∧ (ch.seq = s.ks.seq + 1 → ch.resident = false →
      ∃ t u, commitChange false (changeRec ch) (makeRoom s) = (true, u) ∧ exec (.replicationChange ch) s = .next t
        ∧ SamePart .ks u t ∧ SamePart .flash u t ∧ SamePart .msu u t ∧ SamePart .eav u t ∧ t.ks.seq = ch.seq ∧ SamePart .btn s t))
  ∧ (∀ (ch : KsChange) (tab : CascadeTable) (s : State), wardenUp s = true → s.ks.phase = .isOpen → s.btn.table = some tab →
    s.btn.role = .ridge → s.btn.electing = false → ch.member ≠ s.btn.member → reachable s ch.member = true →
    ch.store = false → ch.resident = false → bufHasPlace s = true → logHasRoom s = true →
    SealedGood s → dState (dirEntry s false ch.index) = 1 → dGable (dirEntry s false ch.index) = ch.gable →
    (dGen (dirEntry s false ch.index) ≠ ch.gen.toNat →
      exec (.replicationChange ch) s = .next (sendControl ch.member ctlMissing (leBytes 8 s.ks.seq) s))
    ∧ (dGen (dirEntry s false ch.index) = ch.gen.toNat →
    ∃ t u, commitChange false (deleteRec s ch.gable false ch.index) s = (true, u) ∧ exec (.replicationChange ch) s = .next t
      ∧ SamePart .ks u t ∧ SamePart .flash u t ∧ SamePart .msu u t ∧ SamePart .eav u t ∧ t.ks.seq = s.ks.seq + 1))
  ∧ (∀ (seq : Nat) (tab : CascadeTable) (s : State), wardenUp s = true → s.ks.phase = .isOpen → s.btn.table = some tab →
    s.btn.role ≠ .ridge → ridgeRoute s = true →
    ∃ t, exec (.resync s.btn.member [] seq) s = .next t ∧ t.ks.seq = max s.ks.seq seq
      ∧ t.btn.role = (if s.btn.role = .isolated then .rafter else s.btn.role)
      ∧ (s.ks.seq < seq → t.btn.cause.getLsbD 6 = true) ∧ t.msu = s.msu ∧ t.flash = s.flash
      ∧ SameOutside [.btn, .ks, .hqi] s t)
  ∧ (∀ (c first count : Nat) (tab : CascadeTable) (s : State), wardenUp s = true → s.btn.table = some tab → c < 65536 →
    s.btn.role ≠ .ridge → ridgeRoute s = true → first < 2 ^ 64 → 0 < count → first + count - 1 ≤ ctrTop →
    (SMap.get [] s.btn.leases c).length < 2 → (∀ l ∈ SMap.get [] s.btn.leases c, l.first + l.count ≤ first) → ctrV s c < first →
    ∃ t, exec (.leaseGrant c s.btn.member (BitVec.ofNat 64 first) count) s = .next t
      ∧ SMap.get [] t.btn.leases c = SMap.get [] s.btn.leases c ++ [⟨first, count, first⟩]
      ∧ (∀ x, x ≠ c → SMap.get [] t.btn.leases x = SMap.get [] s.btn.leases x) ∧ SameOutside [.btn] s t)
  ∧ (∀ (c m : Nat) (first : Dword) (count : Nat) (tab : CascadeTable) (s : State), wardenUp s = true →
    s.btn.table = some tab → c < 65536 → s.btn.role = .ridge → s.btn.electing = false → m ≠ s.btn.member →
    reachable s m = true → ctrV s c < ctrTop → (∀ g ∈ s.btn.grants, g.1 ≠ c) →
    ∀ k, k = min (2 ^ tab.leaseLog2) (ctrTop - ctrV s c) →
    (ctrV s c + k ≤ ctrB s c →
      ∃ t u, exec (.leaseGrant c m first count) s = .next t ∧ t = sendGrant c m (ctrV s c + 1) k u ∧ ctrV t c = ctrV s c + k
        ∧ ctrB t c = ctrB s c ∧ t.btn.grants = s.btn.grants ∧ SamePart .eav s t ∧ SamePart .ks s t)
    ∧ (ctrB s c < ctrV s c + k → SMap.get none s.sym.ctr.flight c = none →
      (appendJournal 1 (min (max (ctrB s c) (ctrV s c + k) + 256) ctrTop) c s).1 = true →
      ∃ t, exec (.leaseGrant c m first count) s = .next t ∧ t.out = s.out ∧ ctrV t c = ctrV s c + k
        ∧ t.btn = { s.btn with grants := s.btn.grants ++ [(c, m, ctrV s c + 1, k)] }
        ∧ SMap.get none t.sym.ctr.flight c = some (min (max (ctrB s c) (ctrV s c + k) + 256) ctrTop)
        ∧ SamePart .eav s t ∧ SamePart .ks s t)
    ∧ (ctrB s c < ctrV s c + k → SMap.get none s.sym.ctr.flight c ≠ none → exec (.leaseGrant c m first count) s = .next s))
  ∧ (∀ (off : Int) (ridgeSync : Bool) (tab : CascadeTable) (s : State), wardenUp s = true → s.btn.table = some tab →
    s.btn.role = .rafter → routeTo s tab.ridge ≠ none → s.sys.timePhase = .synchronised → 0 ≤ off →
    ∃ t, exec (.timeSync off ridgeSync) s = .next t ∧ t.sys.time = s.sys.time + off.toNat
      ∧ t.sys.ridgeSync = ridgeSync
      ∧ (if ridgeSync then t.sys.timePhase = .synchronised ∧ SameOutside [.sys, .ret] s t
        else SameOutside [.sys] s t ∧ (s.sys.setRecent = true → t.sys.timePhase = .synchronised)
          ∧ (s.sys.setRecent = false → t.sys.timePhase = .holdover ∧ t.sys.cause.getLsbD 9 = true)))
  ∧ (∀ (m : Nat) (loads : List (Nat × Nat)) (tab : CascadeTable) (s : State), powered s = true → s.btn.table = some tab →
    m < tab.n → m ≠ s.btn.member →
    ∃ t, exec (.loadReport m loads) s = .next t ∧ SMap.get [] t.btn.loads m = loads
      ∧ (∀ x, x ≠ m → SMap.get [] t.btn.loads x = SMap.get [] s.btn.loads x) ∧ SameOutside [.btn] s t)
  ∧ (∀ (src g : Nat) (ws : List Word) (tab : CascadeTable) (s : State), powered s = true → s.btn.table = some tab →
    src ≠ s.btn.member →
    (fld (ws.getD 0 0) 0 4 ≠ s.btn.member →
      exec (.forward src g ws) s = .next (relayPacket src 0x10 g (fld (ws.getD 0 0) 0 4) ws (heardFrom src s)))
    ∧ (fld (ws.getD 0 0) 0 4 = s.btn.member → (formed s g = false ∨ bitOf tab.fwdMask.toNat g = false) →
      exec (.forward src g ws) s = .next (sendReturn src g (ws.getD 1 0) (ws.getD 2 0)
        (completionBytes (bytesOf ((ws.drop 3).take 16)) stNotPermitted 0 []) [] (heardFrom src s)))
    ∧ (fld (ws.getD 0 0) 0 4 = s.btn.member → formed s g = true → bitOf tab.fwdMask.toNat g = true → 20 ≤ ws.length →
      ws.length ≤ 1024 →
      ∃ t, exec (.forward src g ws) s = .next t
        ∧ (if cellsFree s g < cellsOf ws.length then
            t = sendReturn src g (ws.getD 1 0) (ws.getD 2 0)
              (completionBytes (bytesOf ((ws.drop 3).take 16)) stSuspended 0 []) [] (heardFrom src s)
          else ∃ c p, t.hqi.cmds = s.hqi.cmds ++ [c] ∧ c.ref = servedRef src g (ws.getD 1 0) ∧ c.committed = true
            ∧ c.entry = bytesOf ((ws.drop 3).take 16) ∧ SMap.get 0 t.rfb.used g = SMap.get 0 s.rfb.used g + cellsOf ws.length
            ∧ queueOf t (ringQueue s (ctxNum g 0)) = queueOf s (ringQueue s (ctxNum g 0)) ++ [p]
            ∧ p.typ = 0x10 ∧ p.words = ws ∧ p.src = unitSource g 3 none ∧ SameOutside [.hqi, .rfb, .btn] s t)))
  ∧ (∀ (src g : Nat) (ws : List Word) (c : Cmd) (tab : CascadeTable) (s : State), powered s = true → s.btn.table = some tab →
    src ≠ s.btn.member → fld (ws.getD 0 0) 0 4 = s.btn.member →
    (s.hqi.cmds.find? fun x => x.ref.fn == g && !x.finished && x.fwd == some (src, (ws.getD 1 0).toNat)) = some c →
    exec (.returnWork src g ws) s = .next
      (if leAt (bytesOf ((ws.drop 3).take 16)) 0 2 = stSuspended then
        updCmd c.ref (fun x => { x with fwd := none, here := true }) (heardFrom src s)
      else endCmd c.ref (leAt (bytesOf ((ws.drop 3).take 16)) 0 2) (leAt (bytesOf ((ws.drop 3).take 16)) 8 8)
        (slice (bytesOf ((ws.drop 3).take 16)) 16 48)
        (if leAt (bytesOf ((ws.drop 3).take 16)) 0 2 = stOk then
          commitHostWrites c.ref (eDst c.entry) (slice (bytesOf (ws.drop 20)) 0 (ws.getD 19 0).toNat) (heardFrom src s)
        else heardFrom src s)))
  ∧ (∀ (src g : Nat) (fwdId : Word) (c : Cmd) (tab : CascadeTable) (s : State), powered s = true → s.btn.table = some tab →
    findCmd s (servedRef src g fwdId) = some c → c.finished = false →
    ∃ t, exec (.cancel src g fwdId) s = .next t ∧ findCmd t (servedRef src g fwdId) = none ∧ SamePart .eav s t
      ∧ SamePart .ks s t ∧ (c.worker = none → c.core = none → SamePart .sym s t))
  ∧ (∀ (r : CmdRef) (c : Cmd) (m id : Nat) (s : State), findCmd s r = some c → c.fwd = some (m, id) → c.finished = false →
    exec (.forwardTimeout r) s = .next (if reachable s m then s else endCmd r stLinkLost 0 [] s))
  ∧ (∀ (m : Nat) (ev : List Byte) (tab : CascadeTable) (s : State), powered s = true → s.btn.table = some tab →
    s.btn.role = .ridge → m < tab.n → m ≠ s.btn.member → ev.length = 32 →
    ∃ t, exec (.eventFwd m ev) s = .next t ∧ t.btn.evtSrc = m ∧ t.btn.evt = ev ∧ t.btn.cause.getLsbD 9 = true
      ∧ SameOutside [.btn] s t)

/-! ### System control and package (16_system_control.md, 17_electrical_package.md) -/

/-- Resets and boots, power commands, firmware slots, recovery, VCORE, JTAG, the fuse test access and the slots' supply
(R390, R453, R456, R457, R460, R461, R467, R484, R486, R489, R494, R498). The rows that start a boot carry what the boot ROM
finds: the calibration row, self-test, entropy tests, the regulator, the Eave die's marker and the reads that fail (R459,
log 1612). -/
def Obligations.PowerAndBoot : Prop :=
  (∀ (env : BootEnv) (s : State), s.sys.power = .standby → s.elec.vaonOk = true → s.elec.jtag ≠ .pinControl →
    ∃ t, exec (.powerUp env) s = .next t ∧ BootEnds 0 env t ∧ t.elec.mainOk = true
      ∧ (∀ i, i < 1024 → fuseFld s i 1 = 1 → fuseFld t i 1 = 1))
  ∧ (∀ (env : BootEnv) (s : State), s.elec.vaonOk = false ∨ s.elec.jtag = .pinControl → exec (.powerUp env) s = .next s)
  ∧ (∀ (who : Who) (env : BootEnv) (s : State), PairTakes who 0x44 s →
    ∃ t, exec (.sysRstCtl who env) s = .next t ∧ BootEnds 1 env t)
  ∧ (∀ (env : BootEnv) (s : State), powered s = true →
    ∃ t, exec (.watchdogExpiry env) s = .next t ∧ BootEnds 3 env t ∧ t.sys.cause.getLsbD 10 = true)
  ∧ (∀ (env : BootEnv) (s : State), s.sys.power = .stuck →
    ∃ t, exec (.startupTestRetry env) s = .next t ∧ BootEnds s.sys.rstReason env t)
  ∧ (∀ (env : BootEnv) (s : State), mainPower s = true → s.elec.jtag ≠ .pinControl →
    ∃ t, exec (.jtagInstruction .pinControl env) s = .next t ∧ t.sys.power = .inReset ∧ t.sys.rstReason = 0
      ∧ t.elec.jtag = .pinControl ∧ t.hqi = {} ∧ t.ks = {} ∧ t.cores = [] ∧ t.eav.ring = s.eav.ring
      ∧ t.eav.seq = s.eav.seq ∧ t.eav.fuses = s.eav.fuses ∧ t.ret = s.ret)
  ∧ (∀ (op : JtagInstr) (env : BootEnv) (s : State), mainPower s = true → op ≠ .pinControl →
    ∃ t, exec (.jtagInstruction op env) s = .next t ∧ t.elec.jtag = op
      ∧ (if s.elec.jtag = .pinControl then BootEnds 0 env t else SameOutside [.elec, .out, .free] s t
          ∧ (op ≠ .idcode → t.out = s.out ∧ t.free = s.free)))
  ∧ (∀ (who : Who) (s : State), PairTakes who 0x100 s → s.sys.pwrRun = .none → s.sys.power = .active →
    (∃ t, exec (.idle who) s = .next t ∧ t.sys.pwrRun = .toIdle ∧ t.sys.power = .active ∧ SameOutside sysParts s t)
    ∧ ∃ t, exec (.active who) s = .next t ∧ PwrTurned stStateRefused s t)
  ∧ (∀ (who : Who) (s : State), PairTakes who 0x100 s → s.sys.pwrRun = .none → s.sys.power = .idle →
    (∃ t, exec (.active who) s = .next t ∧ t.sys.pwrRun = .toActive ∧ t.sys.power = .idle ∧ t.elec.vidUse = .toActive
      ∧ t.out = .vidSet (BitVec.ofNat 8 t.elec.vidReq) :: s.out ∧ t.elec.vidReq ≤ 0x64
      ∧ (s.sys.calDef = true → t.elec.vidReq = 0x64) ∧ SameOutside [.sys, .pairs, .elec, .out, .free] s t)
    ∧ ∃ t, exec (.idle who) s = .next t ∧ PwrTurned stStateRefused s t)
  ∧ (∀ (who : Who) (s : State), PairTakes who 0x100 s → s.sys.pwrRun = .none → s.slt.cer = none →
    (s.sys.power = .active ∨ s.sys.power = .idle) →
    ∃ t, exec (.standbyPrep who) s = .next t ∧ t.sys.pwrRun = .toPrep ∧ t.sys.power = s.sys.power ∧ SameOutside sysParts s t)
  ∧ (∀ (who : Who) (s : State), PairTakes who 0x100 s → s.sys.pwrRun ≠ .none →
    ∀ c ∈ ([.idle, .active, .standbyPrep] : List (Who → Instr)),
      ∃ t, exec (c who) s = .next t ∧ PwrTurned stStateRefused s t)
  ∧ (∀ (s : State), s.sys.pwrRun = .toIdle →
    ((∃ f, 0 < f ∧ f < 64 ∧ fnInfl s f ≠ 0) → exec .powerDrainComplete s = .next s)
    ∧ ((∀ f, 0 < f → f < 64 → fnInfl s f = 0) →
      ∃ t, exec .powerDrainComplete s = .next t ∧ t.sys.clocksOff = true ∧ t.sys.power = s.sys.power ∧ t.elec.vidUse = .toIdle
        ∧ t.elec.vidReq = 0 ∧ t.out = .vidSet 0 :: s.out ∧ SameOutside [.sys, .elec, .out] s t))
  ∧ (∀ (s : State), s.sys.pwrRun = .toPrep → (∀ f, f < 64 → fnInfl s f = 0) → s.img.phase ≠ .committing →
    progRunning s = false →
    ∃ t, exec .powerDrainComplete s = .next t ∧ t.sys.power = .prep ∧ t.sys.readyOff = true ∧ t.sys.pwrRun = .none
      ∧ t.sys.pwrStatus = stOk ∧ t.sys.cause.getLsbD 0 = true ∧ t.flc.erase = .none ∧ t.ret.baseAon = s.eav.aon
      ∧ t.ret.baseTime = s.sys.time ∧ t.cores = s.cores
      ∧ (t.tel.snapSeq = s.tel.snapSeq + 1 ∨ t.tel.cause.getLsbD 0 = true))
  ∧ (∀ (vaonToo : Bool) (s : State), s.sys.power = .prep → s.sys.readyOff = true →
    ∃ t, exec (.powerDown vaonToo) s = .next t
      ∧ t.sys.power = (if vaonToo = true ∨ s.elec.vaonOk = false then .vault else .standby)
      ∧ t.hqi = {} ∧ t.ks = {} ∧ t.cores = [] ∧ t.eav.ring = s.eav.ring ∧ t.eav.seq = s.eav.seq ∧ t.ret = s.ret
      ∧ t.eav.fuses = s.eav.fuses ∧ (s.flc.run = .none → s.flc.jrun = none → s.flc.erase = .none → t.flash = s.flash))
  ∧ (∀ (slot : BitVec 1) (r : (Who → Instr) × Nat) (s : State), r ∈ ([(Instr.kick, 8), (Instr.bootConfirm, 4), (fun w => Instr.setPref w slot, 2 + slot.toNat)] : List ((Who → Instr) × Nat)) →
    PairTakes .warden 0x144 s →
    s.ret.rbReq < 128 →
    ∃ t, exec (r.1 .warden) s = .next t ∧ t.ret.rbReq = s.ret.rbReq
      ∧ t.ret.tries = (if r.2 = 4 then 0 else s.ret.tries)
      ∧ t.ret.pref = (if r.2 = 2 + slot.toNat then slot.toNat else s.ret.pref)
      ∧ t.ret.seed = s.ret.seed ∧ SameOutside [.sys, .ret, .pairs] s t)
  ∧ (∀ (svn : BitVec 7) (s : State), PairTakes .warden 0x144 s →
    ∃ t, exec (.rbReq .warden svn) s = .next t ∧ t.ret.rbReq = svn.toNat ∧ t.ret.tries = s.ret.tries
      ∧ t.ret.pref = s.ret.pref ∧ rollback t = rollback s ∧ SameOutside [.sys, .ret, .pairs] s t)
  ∧ (∀ (who : Who) (slot : BitVec 1) (svn : BitVec 7) (s : State), who ≠ .warden → isVf who = false →
    mgmtGate who 0x144 kWrite s = (true, s) → mgmtGate who 0x148 kWrite s = (true, s) →
    exec (.kick who) s = .next s ∧ exec (.bootConfirm who) s = .next s ∧ exec (.setPref who slot) s = .next s
      ∧ exec (.rbReq who svn) s = .next s)
  ∧ (∀ (who : Who) (s : State), PairTakes who 0x15C s →
    (s.sys.power ≠ .recovery →
      ∃ t, exec (.recoveryLoad who) s = .next t ∧ t.sys.recovStat = stStateRefused ∧ t.sys.cause.getLsbD 1 = true
        ∧ SameOutside sysParts s t)
    ∧ (s.sys.power = .recovery → s.sys.recovBusy = false → s.sys.recovAddr.toNat % 8 = 0 → 264 ≤ s.sys.recovLen.toNat →
      s.sys.recovLen.toNat ≤ 0x800000 → s.hqi.unsent = [] →
      ∃ t, exec (.recoveryLoad who) s = .next t ∧ t.sys.recovBusy = true
        ∧ Requested .recovery 0 s.sys.recovAddr.toNat s.sys.recovLen.toNat s t
        ∧ t.hqi.reads = s.hqi.reads ++ [.recovery] ∧ SameOutside [.sys, .pairs, .out, .hqi] s t)
    ∧ (s.sys.power = .recovery → s.sys.recovBusy = false → s.sys.recovAddr.toNat % 8 ≠ 0 →
      ∃ t, exec (.recoveryLoad who) s = .next t ∧ t.sys.recovStat = stRange ∧ t.sys.recovBusy = false
        ∧ t.sys.cause.getLsbD 1 = true ∧ SameOutside [.sys, .pairs, .hqi] s t))
  ∧ (∀ (s : State), s.elec.vidTry = 1 → s.elec.vidAlert = false →
    (VidAt .toIdle s → ∃ t, exec (.vidSet true) s = .next t ∧ t.sys.power = .idle ∧ t.elec.vid = s.elec.vidReq
      ∧ t.sys.pwrRun = .none ∧ t.sys.pwrStatus = stOk ∧ t.sys.cause.getLsbD 0 = true ∧ SameOutside [.sys, .elec] s t)
    ∧ (VidAt .toActive s → ∃ t, exec (.vidSet true) s = .next t ∧ t.sys.power = .active ∧ t.sys.clocksOff = false
      ∧ t.elec.vid = s.elec.vidReq ∧ t.sys.pwrRun = (if s.sys.pwrRun = .toPrep then .toPrep else .none)
      ∧ (s.sys.pwrRun = .toActive → t.sys.pwrStatus = stOk ∧ t.sys.cause.getLsbD 0 = true) ∧ SameOutside [.sys, .elec] s t)
    ∧ (VidAt .recompute s → exec (.vidSet true) s = .next { s with elec := { s.elec with
        vid := s.elec.vidReq
        vidUse := .none
        vidTry := 0 } })
    ∧ (vidWaits s = true → exec (.vidSet false) s = .next { s with elec := { s.elec with vidAlert := true } }))
  ∧ (∀ (ack : Bool) (use : VidUse) (s : State), VidAt use s → s.elec.vidAlert = true →
    ∃ t, exec (.vidRetry ack) s = .next t ∧ t.out = .vidSet (BitVec.ofNat 8 s.elec.vidReq) :: s.out
      ∧ (ack = true → t.elec.vid = s.elec.vidReq ∧ t.elec.vidUse = .none)
      ∧ (ack = false → s.elec.vidTry < 3 → t.elec.vidTry = s.elec.vidTry + 1 ∧ t.elec.vidUse = use ∧ t.sys = s.sys)
      ∧ (ack = false → 3 ≤ s.elec.vidTry → t.elec.vid = s.elec.vid ∧ t.elec.vidUse = .none
        ∧ (use = .toIdle → t.sys.power = .idle ∧ t.sys.pwrStatus = stOk)
        ∧ (use = .toActive → t.sys.power = s.sys.power ∧ t.sys.clocksOff = s.sys.clocksOff
          ∧ (s.sys.pwrRun ≠ .toPrep → t.sys.pwrStatus = stIntegrity ∧ t.sys.pwrRun = .none)
          ∧ (s.sys.pwrRun = .toPrep → t.sys = s.sys)))
      ∧ SameOutside [.sys, .elec, .out] s t)
  ∧ (∀ (temp : Int) (s : State), wardenUp s = true → s.sys.power = .active → s.elec.vidUse = .none → s.sys.clocksOff = false →
    ∃ t, exec (.vcoreRecompute temp) s = .next t ∧ t.elec.temp = temp ∧ t.elec.vid = s.elec.vid
      ∧ (t.elec.vidUse = .none ∧ t.out = s.out
        ∨ t.elec.vidUse = .recompute ∧ t.elec.vidReq ≤ 0x64 ∧ t.elec.vidReq ≠ s.elec.vid
          ∧ t.out = .vidSet (BitVec.ofNat 8 t.elec.vidReq) :: s.out)
      ∧ (s.sys.calDef = true → s.elec.vid ≠ 0x64 → t.elec.vidReq = 0x64) ∧ SameOutside [.elec, .out, .free] s t)
  ∧ (∀ (s : State), mainPower s = true → fuseFld s 136 4 = 0 →
    (∀ (v : BitVec 128), ∃ t, exec (.fuseTestAccess (.serial v)) s = .next t ∧ SameOutside [.eav] s t
      ∧ (∀ i, i < 1024 → fuseFld t i 1 = (if i < 128 ∧ v.getLsbD i = true then 1 else fuseFld s i 1)))
    ∧ (∀ (v : Byte), ∃ t, exec (.fuseTestAccess (.trussEn v)) s = .next t ∧ SameOutside [.eav] s t
      ∧ (∀ i, i < 1024 → fuseFld t i 1 = (if 128 ≤ i ∧ i < 136 ∧ v.getLsbD (i - 128) = true then 1 else fuseFld s i 1)))
    ∧ (∃ t, exec (.fuseTestAccess .shipped) s = .next t ∧ SameOutside [.eav] s t ∧ fuseFld t 136 4 = 1
      ∧ (∀ i, i < 1024 → i ≠ 136 → fuseFld t i 1 = fuseFld s i 1)))
  ∧ (∀ (f : FuseTest) (s : State), fuseFld s 136 4 ≠ 0 → exec (.fuseTestAccess f) s = .next s)
  ∧ (∀ (n : Fin 2) (s : State), wardenUp s = true → (slotOf s n.val).powered = true →
    ∃ t, exec (.slotOvercurrent n) s = .next t ∧ (slotOf t n.val).powered = false ∧ (slotOf t n.val).session = none
      ∧ (slotOf t n.val).present = (slotOf s n.val).present
      ∧ (exec (.slotAbsent n) s = .next (setSlot n.val { slotOf t n.val with present := false } (cause .slt (3 + 2 * n.val) t))
        ∨ (slotOf s n.val).present = false))

/-- Attestation, trusted time, the lifetime record and the management SPI (R463 to R465, R468 to R474, R477). -/
def Obligations.IdentityTimeAndRecord : Prop :=
  (∀ (who : Who) (s : State), PairTakes who 0x3A0 s → wardenUp s = true →
    ∃ u, quoteBody u = quoteBody s ∧ SameOutside sysParts s u
      ∧ match identitySign (sha384 (quoteBody s)) u with
        | (some g, v) => ∃ t, exec (.quote who) s = .next t ∧ t.sys.quote = quoteBody s ++ g ∧ t.sys.qStatus = stOk
            ∧ t.sys.cause.getLsbD 7 = true ∧ SameOutside [.sys] v t
        | (none, v) => ∃ t, exec (.quote who) s = .next t ∧ t.sys.quote = s.sys.quote ∧ t.sys.qStatus = stAborted
            ∧ t.sys.cause.getLsbD 7 = true ∧ SameOutside [.sys] v t)
  ∧ (∀ (s : State),
    (quoteBody s).take 8 = [0x51, 0x55, 0x4F, 0x54, 1, 0, BitVec.ofNat 8 (lifecycle s), BitVec.ofNat 8 (quoteFlags s)]
    ∧ slice (quoteBody s) 8 16 = serialBytes s ∧ slice (quoteBody s) 0x18 32 = quoteNonce s
    ∧ slice (quoteBody s) 0x38 4 = leBytes 4 (gradeWord s).toNat ∧ slice (quoteBody s) 0x40 48 = padTo 48 s.sys.fwDigest
    ∧ slice (quoteBody s) 0x70 8 = leBytes 8 s.img.gen ∧ slice (quoteBody s) 0xC8 8 = leBytes 8 s.sys.time
    ∧ slice (quoteBody s) 0xD0 8 = leBytes 8 s.eav.aon ∧ slice (quoteBody s) 0xE0 4 = leBytes 4 s.sys.quar.toNat
    ∧ (quoteBody s).length = 0xF0)
  ∧ (∀ (who : Who) (s : State), PairTakes who 0x5A0 s → wardenUp s = true →
    ∃ u, SameOutside sysParts s u ∧ match drbgDraw 36 32 false u with
      | (some b, v) => ∃ t, exec (.timeNonce who) s = .next t ∧ t.sys.tNonce = b ∧ t.sys.nonceAt = some v.eav.aon
          ∧ t.sys.tStatus = stOk ∧ t.sys.cause.getLsbD 8 = true ∧ t.sys.time = v.sys.time ∧ SameOutside [.sys] v t
      | (none, v) => ∃ t, exec (.timeNonce who) s = .next t ∧ t.sys.tStatus = stAborted ∧ t.sys.tNonce = v.sys.tNonce
          ∧ t.sys.cause.getLsbD 8 = true ∧ SameOutside [.sys] v t)
  ∧ (∀ (who : Who) (x : Nat) (s : State), PairTakes who 0x5A0 s → wardenUp s = true → x = tokenTime s (tokenBytes s) →
    ∃ t, exec (.timeSet who) s = .next t ∧ t.sys.tStatus = timeStatus s (tokenBytes s) ∧ t.sys.cause.getLsbD 8 = true
      ∧ SameOutside [.sys, .ret, .pairs] s t
      ∧ (if timeStatus s (tokenBytes s) = stOk then t.sys.nonceAt = none ∧ t.sys.timePhase = .synchronised
          ∧ t.sys.time = (if s.sys.timePhase = .unset then max x s.sym.ctr.floor else max x s.sys.time)
          ∧ t.sys.slew = (if s.sys.timePhase = .unset then decide (x < s.sym.ctr.floor) else decide (x < s.sys.time))
          ∧ t.ret.baseAon = s.eav.aon ∧ t.ret.baseTime = t.sys.time ∧ t.ret.seed = s.ret.seed ∧ t.sys.setRecent = true
        else t.sys.time = s.sys.time ∧ t.sys.timePhase = s.sys.timePhase ∧ t.sys.nonceAt = s.sys.nonceAt
          ∧ t.sys.slew = s.sys.slew ∧ t.ret = s.ret))
  ∧ (∀ (s : State), answers s = true → exec .timeBaseWrite s = .next { s with ret := { s.ret with
      baseAon := s.eav.aon
      baseTime := s.sys.time } })
  ∧ (∀ (s : State), answers s = true → s.sys.timePhase = .synchronised →
    ∃ t, exec .timeHoldover s = .next t ∧ t.sys.setRecent = false
      ∧ (s.sys.ridgeSync = false → t.sys.timePhase = .holdover ∧ t.sys.cause.getLsbD 9 = true)
      ∧ (s.sys.ridgeSync = true → t.sys.timePhase = .synchronised ∧ t.sys.cause = s.sys.cause)
      ∧ t.sys.time = s.sys.time ∧ SameOutside [.sys] s t)
  ∧ (∀ (s : State), exec .timeSlewEnd s = .next { s with sys := { s.sys with slew := false } })
  ∧ (∀ (outs : List FlashOutcome) (s : State), wardenUp s = true →
    ∃ t, exec (.snapshot outs) s = .next t ∧ SameOutside flashParts s t
      ∧ (t.tel.snapSeq = s.tel.snapSeq + 1 ∨ t.tel.snapSeq = s.tel.snapSeq)
      ∧ t.tel.counts = { s.tel.counts with
          flWarn := t.tel.counts.flWarn
          flRetire := t.tel.counts.flRetire }
      ∧ (SnapReady outs s →
        t.tel.snapSeq = s.tel.snapSeq + 1 ∧ t.tel.snapPos = (s.tel.snapPos + 1) % 1024 ∧ t.tel.cause = s.tel.cause
          ∧ (s.tel.snapPos % 8 ≠ 0 → Programmed (snapAddr s s.tel.snapPos / 8) (dwordsOf (snapBytes s (s.tel.snapSeq + 1))) s t))
      ∧ (isWorn s (snapAddr s s.tel.snapPos / 4096) = true → t.tel.cause.getLsbD 0 = true))
  ∧ (∀ (temp : Int) (e : Nat) (s : State), answers s = true →
    e = min (2 ^ 64 - 1) (s.tel.counts.eq85 + binWeights.getD (tempBin temp) 0) →
    ∃ t, exec (.lifetimeMinute temp) s = .next t ∧ t.tel.counts.onMin = satInc 0xFFFFFFFF s.tel.counts.onMin
      ∧ t.tel.counts.eq85 = e
      ∧ SMap.get 0 t.tel.counts.tempHist (tempBin temp) = satInc 0xFFFFFFFF (SMap.get 0 s.tel.counts.tempHist (tempBin temp))
      ∧ (∀ k, k ≠ tempBin temp → SMap.get 0 t.tel.counts.tempHist k = SMap.get 0 s.tel.counts.tempHist k)
      ∧ (s.tel.counts.eq85 < 4308664320 → 4308664320 ≤ e → t.tel.cause.getLsbD 2 = true)
      ∧ (s.tel.counts.eq85 < 5385830400 → 5385830400 ≤ e → t.tel.cause.getLsbD 3 = true)
      ∧ t.tel.snapSeq = s.tel.snapSeq ∧ SameOutside [.tel, .elec] s t)
  ∧ (∀ (s : State), wardenUp s = true → 0 < archSectors s →
    ∃ t, exec .eventArchive s = .next t ∧ t.eav.ringCount = 0 ∧ t.eav.ring = s.eav.ring ∧ t.eav.ringNext = s.eav.ringNext
      ∧ t.eav.seq = s.eav.seq ∧ SameOutside (.eav :: flashParts) s t)
  ∧ (∀ (addr : BitVec 24) (words : Nat) (s : State), answers s = true → addr.toNat % 4 ≠ 0 →
    exec (.spiRead addr words) s = .next (emit (.spiData (List.replicate words (0, 4))) s))
  ∧ (∀ (addr : BitVec 24) (s : State), addr.toNat % 4 = 0 → RegTakes .spi addr.toNat kRead s →
    ∃ t, exec (.spiRead addr 1) s = .next t ∧ t.out = .spiData [(readReg s addr.toNat, 0)] :: s.out
      ∧ SameOutside [.out, .eav, .sys] s t)
  ∧ (∀ (addr : BitVec 24) (s u : State), answers s = true → addr.toNat % 4 = 0 → addr.toNat < 0xC00000 →
    mgmtGate .spi addr.toNat kRead s = (false, u) → exec (.spiRead addr 1) s = .next (emit (.spiData [(0, 1)]) u))
  ∧ (∀ (addr : BitVec 24) (words : List Word) (s : State), answers s = true → addr.toNat % 4 ≠ 0 →
    exec (.spiWrite addr words) s = .next { s with sys := { s.sys with spiStatus := 4 } })
  ∧ (∀ (addr : BitVec 24) (v : Word) (s : State), addr.toNat % 4 = 0 → pfWindow addr.toNat = none →
    RegTakes .spi addr.toNat kWrite s →
    ∃ u, exec (.registerWrite .spi addr.toNat 4 ⟨v.setWidth 64, false⟩) s = .next u
      ∧ exec (.spiWrite addr [v]) s = .next { u with sys := { u.sys with spiStatus := 0 } })
  ∧ (∀ (addr : BitVec 24) (v : Word) (s : State), answers s = true → addr.toNat % 4 = 0 → (pfWindow addr.toNat).isSome = true →
    exec (.spiWrite addr [v]) s = .next { s with sys := { s.sys with spiStatus := 0 } })
  ∧ (∀ (s : State), answers s = true → exec .spiStatus s = .next (emit (.spiStatus s.sys.spiStatus) s))

/-! ### Reset and what no command undoes -/

/-- The values after reset that the spec's tables give (R72, R85, R249, R344, R390, R396, R428, R450, R479, R480): causes and
masks are clear, EAV_FUSE reads the fuse bank, every queue, ring, command and pair is empty, SYS_PWR_STAT, SYS_RECOV_STAT,
SYS_QUOTE_BUF and the time state stand at zero, the ports are down with no peer, the module is solo, and no command waits. -/
def Obligations.ResetState : Prop :=
  State.reset.pending = [] ∧ State.reset.pairs = [] ∧ State.reset.out = []
  ∧ (∀ b : Block, causeOf b State.reset = 0 ∧ maskOf b State.reset = 0)
  ∧ (∀ off ∈ ([0x0, 0x4, 0x10, 0x14, 0x40, 0x44, 0x100, 0x108, 0x10C, 0x15C, 0x164, 0x300, 0x3A0, 0x3A8, 0x5A0, 0x5A8, 0x400,
      0x580, 0x100018, 0x100028, 0x100038, 0x10003C, 0x100040, 0x20F000, 0x300110, 0x701000, 0x800100, 0x901000, 0xA00104,
      0xA0020C, 0xA00218, 0xA00300, 0xA00304] : List Nat), readReg State.reset off = 0)
  ∧ (∀ off ∈ ([0x48, 0x104, 0x3A4, 0x5A4, 0x10002C] : List Nat), readReg State.reset off = 0xFFFFFFFF)
  ∧ (∀ n ∈ ([0, 1] : List Nat), readReg State.reset (0xA00100 + 0x20 * n) = 0x00F00000)
  ∧ State.reset.hqi.cmds = [] ∧ State.reset.hqi.rings = [] ∧ State.reset.rfb.queues = [] ∧ State.reset.cores = []
  ∧ State.reset.img.staging = [] ∧ State.reset.btn.table = none ∧ State.reset.slt.cer = none
  ∧ Memory.wf 0 State.reset.msu.mem = true ∧ Memory.wf 0 State.reset.eav.vault = true

/-- What is blown or programmed once stays so (R390, R463): no step of the block clears a fuse or changes the identity seed,
whatever the command, in every state. -/
def Obligations.FusesAndSeedStay : Prop :=
  ∀ (s t : State), step s = .next t →
    (∀ i, i < 1024 → fuseFld s i 1 = 1 → fuseFld t i 1 = 1) ∧ (∀ x, s.ret.seed = some x → t.ret.seed = some x)
end

