-- ==== Sys2Proof/Laws/Store.lean ====
section
/-! SUPPORT. The laws of sparse stores: reading back, leaving the rest alone, and the canonical form. -/

namespace Sys2Proof.Machine

theorem SMap.get_erase {α : Type} (d : α) (m : SMap α) (k j : Nat) :
    SMap.get d (SMap.erase m k) j = if j = k then d else SMap.get d m j := by
  induction m with
  | nil => simp [SMap.erase, SMap.get]
  | cons p m ih =>
    obtain ⟨k', v⟩ := p
    by_cases h : k' = k
    · subst h; simp only [SMap.erase, if_true, ih, SMap.get]
      by_cases hj : j = k'
      · simp [hj]
      · have h' : ¬k' = j := fun h => hj h.symm
        simp only [hj, h', if_false]
    · simp only [SMap.erase, h, if_false, SMap.get, ih]
      by_cases hj : k' = j
      · subst hj; simp [h]
      · simp [hj]

theorem SMap.get_insert {α : Type} (d : α) (m : SMap α) (k j : Nat) (v : α)
    (hk : ∀ p ∈ m, p.1 ≠ k) : SMap.get d (SMap.insert k v m) j = if j = k then v else SMap.get d m j := by
  induction m with
  | nil => by_cases hj : k = j <;> simp [SMap.insert, SMap.get, hj, eq_comm]
  | cons p m ih =>
    obtain ⟨k', v'⟩ := p
    have h1 : k' ≠ k := hk (k', v') (by simp)
    have h2 : ∀ p ∈ m, p.1 ≠ k := fun p hp => hk p (List.mem_cons_of_mem _ hp)
    simp only [SMap.insert]
    split
    · by_cases hj : k = j <;> simp [SMap.get, hj, eq_comm]
    · simp only [SMap.get, ih h2]
      by_cases hj : k' = j
      · subst hj; simp [h1]
      · simp [hj]

theorem SMap.erase_keys {α : Type} (m : SMap α) (k : Nat) : ∀ p ∈ SMap.erase m k, p.1 ≠ k := by
  induction m with
  | nil => simp [SMap.erase]
  | cons p m ih =>
    obtain ⟨k', v⟩ := p
    by_cases h : k' = k
    · simpa [SMap.erase, h] using ih
    · intro q hq
      simp only [SMap.erase, h, if_false, List.mem_cons] at hq
      rcases hq with rfl | hq
      · exact h
      · exact ih q hq

/-- A store reads back what was written, and every other key reads as before. -/
theorem SMap.get_set {α : Type} [DecidableEq α] (d : α) (m : SMap α) (k j : Nat) (v : α) :
    SMap.get d (SMap.set d m k v) j = if j = k then v else SMap.get d m j := by
  unfold SMap.set
  split
  · next h => subst h; exact SMap.get_erase v m k j
  · rw [SMap.get_insert d _ k j v (SMap.erase_keys m k), SMap.get_erase]
    by_cases hj : j = k <;> simp [hj]

@[simp] theorem SMap.get_set_same {α : Type} [DecidableEq α] (d : α) (m : SMap α) (k : Nat) (v : α) :
    SMap.get d (SMap.set d m k v) k = v := by simp [SMap.get_set]

@[simp] theorem SMap.get_set_ne {α : Type} [DecidableEq α] (d : α) (m : SMap α) (k j : Nat) (v : α) (h : j ≠ k) :
    SMap.get d (SMap.set d m k v) j = SMap.get d m j := by simp [SMap.get_set, h]

theorem SMap.rising_mono {α : Type} (lo lo' : Nat) (m : SMap α) (h : lo' ≤ lo) (hr : SMap.rising (some lo) m = true) :
    SMap.rising (some lo') m = true := by
  cases m with
  | nil => rfl
  | cons p m =>
    obtain ⟨k, v⟩ := p
    simp only [SMap.rising, Bool.and_eq_true, decide_eq_true_eq] at hr ⊢
    exact ⟨by omega, hr.2⟩

theorem SMap.rising_none {α : Type} (lo : Nat) (m : SMap α) (hr : SMap.rising (some lo) m = true) :
    SMap.rising none m = true := by
  cases m with
  | nil => rfl
  | cons p m =>
    obtain ⟨k, v⟩ := p
    simp only [SMap.rising, Bool.and_eq_true, decide_eq_true_eq] at hr ⊢
    exact hr.2

theorem SMap.rising_erase {α : Type} (lo : Nat) (m : SMap α) (k : Nat) (hr : SMap.rising (some lo) m = true) :
    SMap.rising (some lo) (SMap.erase m k) = true := by
  induction m generalizing lo with
  | nil => rfl
  | cons p m ih =>
    obtain ⟨k', v⟩ := p
    simp only [SMap.rising, Bool.and_eq_true, decide_eq_true_eq] at hr
    by_cases h : k' = k
    · simp only [SMap.erase, h, if_true]
      exact ih lo (SMap.rising_mono k' lo m (by omega) hr.2)
    · simp only [SMap.erase, h, if_false, SMap.rising, Bool.and_eq_true, decide_eq_true_eq]
      exact ⟨hr.1, ih k' hr.2⟩

theorem SMap.rising_insert {α : Type} (lo : Nat) (m : SMap α) (k : Nat) (v : α) (hlo : lo < k)
    (hk : ∀ p ∈ m, p.1 ≠ k) (hr : SMap.rising (some lo) m = true) : SMap.rising (some lo) (SMap.insert k v m) = true := by
  induction m generalizing lo with
  | nil => simp [SMap.insert, SMap.rising, hlo]
  | cons p m ih =>
    obtain ⟨k', v'⟩ := p
    have h1 : k' ≠ k := hk (k', v') (by simp)
    have h2 : ∀ p ∈ m, p.1 ≠ k := fun p hp => hk p (List.mem_cons_of_mem _ hp)
    simp only [SMap.rising, Bool.and_eq_true, decide_eq_true_eq] at hr
    simp only [SMap.insert]
    split
    · next h => simp [SMap.rising, hlo, h, hr.2]
    · simp only [SMap.rising, Bool.and_eq_true, decide_eq_true_eq]
      exact ⟨hr.1, ih k' (by omega) h2 hr.2⟩

theorem SMap.rising_cons_of_none {α : Type} (m : SMap α) (h : SMap.rising none m = true) :
    m = [] ∨ ∃ k v n, m = (k, v) :: n ∧ SMap.rising (some k) n = true := by
  cases m with
  | nil => exact Or.inl rfl
  | cons p m => obtain ⟨k, v⟩ := p; exact Or.inr ⟨k, v, m, rfl, h⟩

theorem SMap.rising_none_insert {α : Type} (m : SMap α) (k : Nat) (v : α) (hk : ∀ p ∈ m, p.1 ≠ k)
    (hr : SMap.rising none m = true) : SMap.rising none (SMap.insert k v m) = true := by
  cases m with
  | nil => simp [SMap.insert, SMap.rising]
  | cons p m =>
    obtain ⟨k', v'⟩ := p
    have h1 : k' ≠ k := hk (k', v') (by simp)
    have h2 : ∀ p ∈ m, p.1 ≠ k := fun p hp => hk p (List.mem_cons_of_mem _ hp)
    simp only [SMap.rising] at hr
    simp only [SMap.insert]
    split
    · next h => simp [SMap.rising, h, hr]
    · simp only [SMap.rising]
      exact SMap.rising_insert k' m k v (by omega) h2 hr

theorem SMap.rising_none_erase {α : Type} (m : SMap α) (k : Nat) (hr : SMap.rising none m = true) :
    SMap.rising none (SMap.erase m k) = true := by
  cases m with
  | nil => rfl
  | cons p m =>
    obtain ⟨k', v⟩ := p
    simp only [SMap.rising] at hr
    by_cases h : k' = k
    · simp only [SMap.erase, h, if_true]
      exact SMap.rising_none k' _ (SMap.rising_erase k' m k hr)
    · simp only [SMap.erase, h, if_false, SMap.rising]
      exact SMap.rising_erase k' m k hr

theorem SMap.mem_erase {α : Type} (m : SMap α) (k : Nat) (p : Nat × α) (h : p ∈ SMap.erase m k) : p ∈ m := by
  induction m with
  | nil => simp [SMap.erase] at h
  | cons q m ih =>
    obtain ⟨k', v⟩ := q
    by_cases hk : k' = k
    · simp only [SMap.erase, hk, if_true] at h
      exact List.mem_cons_of_mem _ (ih h)
    · simp only [SMap.erase, hk, if_false, List.mem_cons] at h
      rcases h with rfl | h
      · simp
      · exact List.mem_cons_of_mem _ (ih h)

theorem SMap.mem_insert {α : Type} (m : SMap α) (k : Nat) (v : α) (p : Nat × α) (h : p ∈ SMap.insert k v m) :
    p = (k, v) ∨ p ∈ m := by
  induction m with
  | nil => simpa [SMap.insert] using h
  | cons q m ih =>
    obtain ⟨k', v'⟩ := q
    simp only [SMap.insert] at h
    split at h
    · simpa using h
    · simp only [List.mem_cons] at h ⊢
      rcases h with rfl | h
      · exact Or.inr (Or.inl rfl)
      · rcases ih h with h | h
        · exact Or.inl h
        · exact Or.inr (Or.inr h)

/-- Every write keeps the canonical form. -/
theorem SMap.wf_set {α : Type} [DecidableEq α] (d : α) (m : SMap α) (k : Nat) (v : α) (h : SMap.wf d m = true) :
    SMap.wf d (SMap.set d m k v) = true := by
  simp only [SMap.wf, Bool.and_eq_true, List.all_eq_true, decide_eq_true_eq] at h ⊢
  unfold SMap.set
  split
  · exact ⟨SMap.rising_none_erase m k h.1, fun p hp => h.2 p (SMap.mem_erase m k p hp)⟩
  · next hv =>
    refine ⟨SMap.rising_none_insert _ k v (SMap.erase_keys m k) (SMap.rising_none_erase m k h.1), fun p hp => ?_⟩
    rcases SMap.mem_insert _ k v p hp with rfl | hp
    · exact hv
    · exact h.2 p (SMap.mem_erase m k p hp)

/-- A change of one entry keeps the canonical form. -/
theorem SMap.wf_upd {α : Type} [DecidableEq α] (d : α) (m : SMap α) (k : Nat) (f : α → α) (h : SMap.wf d m = true) :
    SMap.wf d (SMap.upd d m k f) = true := SMap.wf_set d m k _ h

/-- Writing bytes keeps the memory's canonical form. -/
theorem Memory.wf_write (d : Byte) (m : Memory) (a : Nat) (bs : List Byte) (h : Memory.wf d m = true) :
    Memory.wf d (Memory.write d m a bs) = true := by
  induction bs generalizing m a with
  | nil => exact h
  | cons b bs ih => exact ih _ _ (SMap.wf_set d m a b h)

/-- A byte outside the written range reads as before; a byte inside it reads as written. -/
theorem Memory.get_write (d : Byte) (m : Memory) (a j : Nat) (bs : List Byte) :
    SMap.get d (Memory.write d m a bs) j = if a ≤ j ∧ j < a + bs.length then bs.getD (j - a) 0 else SMap.get d m j := by
  induction bs generalizing m a with
  | nil => exact (if_neg (by simp only [List.length_nil]; omega)).symm
  | cons b bs ih =>
    simp only [Memory.write, ih, SMap.get_set, List.length_cons]
    by_cases h1 : j = a
    · subst h1; simp only [if_true]
      rw [if_neg (by omega), if_pos (by simp)]; simp
    · by_cases h2 : a + 1 ≤ j ∧ j < a + 1 + bs.length
      · have : j - a = (j - (a + 1)) + 1 := by omega
        simp only [h2, and_self, if_true, this, List.getD_cons_succ]
        rw [if_pos (by omega)]
      · rw [if_neg h2, if_neg h1, if_neg (by omega)]

/-- A read has the length asked for. -/
@[simp] theorem Memory.length_read (d : Byte) (m : Memory) (a n : Nat) : (Memory.read d m a n).length = n := by
  induction n generalizing a with
  | zero => rfl
  | succ n ih => simp [Memory.read, ih]

end Sys2Proof.Machine
end

