-- ==== Sys2Proof/Laws/Camol.lean ====
section
/-! SUPPORT. What the shared operations of the Camol instructions do: issuing one, changing one core, and reading registers
after a write. -/

namespace Sys2Proof.Machine

/-- An instruction that issues has its effect where its fields are legal, and raises ILLEGAL where they are not. -/
theorem camol_issues (c : CoreId) (ext legal : Bool) (body : Nat → State → State) (s : State) (h : Issues c ext s) :
    camol c ext legal body s
      = if legal then body (coreNum c) (fetched c ext s) else faultHere (coreNum c) exIllegal (fetched c ext s) := by
  obtain ⟨h1, h2⟩ := h
  simp only [camol, h1, if_true, fetched]
  generalize issueAt (coreNum c) ext s = r at h2
  obtain ⟨m, u⟩ := r
  simp only at h2
  subst h2
  rfl

/-- An instruction whose core cannot issue only parks what the core holds of a stalled access. -/
theorem camol_idle (c : CoreId) (ext legal : Bool) (body : Nat → State → State) (s : State)
    (h : canIssue s (coreNum c) = false) : camol c ext legal body s = unpark (coreNum c) s := by
  simp [camol, h]

@[simp] theorem core_setCore (s : State) (n m : Nat) (k : Core) :
    (s.setCore n k).core m = if m = n then k else s.core m := by
  simp [State.setCore, State.core, SMap.get_set]

@[simp] theorem core_updCore (s : State) (n m : Nat) (f : Core → Core) :
    (s.updCore n f).core m = if m = n then f (s.core n) else s.core m := by
  simp [State.updCore]

@[simp] theorem reg_setReg (k : Core) (r q : Nat) (v : Word) : (k.setReg r v).reg q = if q = r then v else k.reg q := by
  simp [Core.setReg, Core.reg, SMap.get_set]

@[simp] theorem acc_setAcc (k : Core) (r q : Nat) (v : BitVec 40) : (k.setAcc r v).acc q = if q = r then v else k.acc q := by
  simp [Core.setAcc, Core.acc, SMap.get_set]

@[simp] theorem setReg_acc (k : Core) (r q : Nat) (v : Word) : (k.setReg r v).acc q = k.acc q := rfl

@[simp] theorem setAcc_reg (k : Core) (r q : Nat) (v : BitVec 40) : (k.setAcc r v).reg q = k.reg q := rfl

/-- Changing core `n` leaves every other core and every other part of the state. -/
theorem updCore_only (c : CoreId) (s : State) (f : Core → Core) :
    OnlyCore c (f (s.core (coreNum c))) s (s.updCore (coreNum c) f) := by
  refine ⟨by simp, fun m hm => by simp [hm], fun p hp => ?_⟩
  cases p <;> simp_all [SamePart, State.updCore, State.setCore]

/-- An instruction that finishes changes its own core, which goes on with the next instruction. -/
theorem finish_only (c : CoreId) (s : State) (f : Core → Core) :
    OnlyCore c ((f (s.core (coreNum c))).step 4) s (finish (coreNum c) f s) :=
  updCore_only c s fun k => (f k).step 4

end Sys2Proof.Machine
end

