-- ==== Sys2Proof/Laws/Digest.lean ====
section
/-! SUPPORT. Lengths of SHA-2 states and digests. -/

namespace Sys2Proof.Machine

/-- The 80 primes whose roots the constants come from. -/
theorem shaPrimes_length : shaPrimes.length = 80 := rfl

/-- An initial state has eight words. -/
theorem length_shaInit (alg : Nat) : (shaInit alg).length = 8 := by
  unfold shaInit
  split
  · simp [shaSqrt, shaPrimes_length]
  · split <;> simp [shaSqrt, shaPrimes_length]

/-- The rounds keep eight words. -/
theorem length_rounds {α : Type} (f : List Nat → α → List Nat) (h : ∀ v p, (f v p).length = 8) :
    ∀ (l : List α) (v : List Nat), v.length = 8 → (l.foldl f v).length = 8
  | [], _, hv => hv
  | x :: l, v, _ => length_rounds f h l (f v x) (h v x)

/-- A compression keeps eight words. -/
theorem length_shaCompress (alg : Nat) (st : List Dword) (b : List Byte) (h : st.length = 8) :
    (shaCompress alg st b).length = 8 := by
  unfold shaCompress
  simp only [List.length_map, List.length_zip]
  rw [length_rounds _ (by intros; rfl) _ _ (by simp [h]), h]
  rfl

/-- Compressing whole blocks keeps eight words. -/
theorem length_shaBlocks (alg : Nat) (d : List Byte) (st : List Dword) (h : st.length = 8) :
    (shaBlocks alg st d).length = 8 := by
  unfold shaBlocks
  generalize chunks (shaBlockLen alg) d = bs
  induction bs generalizing st with
  | nil => exact h
  | cons b bs ih => exact ih _ (length_shaCompress alg st b h)

/-- Little-endian bytes of a number. -/
theorem length_leBytes : ∀ (n v : Nat), (leBytes n v).length = n
  | 0, _ => rfl
  | n + 1, v => by simp [leBytes, length_leBytes n]

/-- A SHA-384 digest has 48 bytes. -/
theorem length_sha384 (m : List Byte) : (sha384 m).length = 48 := by
  have h := length_shaBlocks 1 (shaPad 1 m.length m) (shaInit 1) (length_shaInit 1)
  unfold sha384 sha shaOut
  generalize shaBlocks 1 (shaInit 1) (shaPad 1 m.length m) = st at h
  have hb : ∀ (n v : Nat), (beBytes n v).length = n := by intro n v; simp [beBytes, length_leBytes]
  simp only [List.length_take, List.length_flatMap]
  have : (st.map fun w => (beBytes (if (1 : Nat) = 0 then 4 else 8) w.toNat).length) = st.map fun _ => 8 := by
    apply List.map_congr_left; intro w _; rw [hb]; rfl
  rw [this, List.map_const', h]
  rfl

end Sys2Proof.Machine
end

