-- ==== Sys2Proof/Laws/State.lean ====
section
/-! SUPPORT. What each named update of State leaves alone, field by field, and what a read of the field it writes gives. -/

set_option Elab.async false

namespace Sys2Proof.Machine

/-! ### Setting one core -/

@[simp] theorem State.setCore_hqi (s : State) (n : Nat) (c : Core) : (s.setCore n c).hqi = s.hqi := rfl
@[simp] theorem State.setCore_rfb (s : State) (n : Nat) (c : Core) : (s.setCore n c).rfb = s.rfb := rfl
@[simp] theorem State.setCore_img (s : State) (n : Nat) (c : Core) : (s.setCore n c).img = s.img := rfl
@[simp] theorem State.setCore_gte (s : State) (n : Nat) (c : Core) : (s.setCore n c).gte = s.gte := rfl
@[simp] theorem State.setCore_msu (s : State) (n : Nat) (c : Core) : (s.setCore n c).msu = s.msu := rfl
@[simp] theorem State.setCore_ks (s : State) (n : Nat) (c : Core) : (s.setCore n c).ks = s.ks := rfl
@[simp] theorem State.setCore_flash (s : State) (n : Nat) (c : Core) : (s.setCore n c).flash = s.flash := rfl
@[simp] theorem State.setCore_flc (s : State) (n : Nat) (c : Core) : (s.setCore n c).flc = s.flc := rfl
@[simp] theorem State.setCore_eav (s : State) (n : Nat) (c : Core) : (s.setCore n c).eav = s.eav := rfl
@[simp] theorem State.setCore_slt (s : State) (n : Nat) (c : Core) : (s.setCore n c).slt = s.slt := rfl
@[simp] theorem State.setCore_btn (s : State) (n : Nat) (c : Core) : (s.setCore n c).btn = s.btn := rfl
@[simp] theorem State.setCore_sys (s : State) (n : Nat) (c : Core) : (s.setCore n c).sys = s.sys := rfl
@[simp] theorem State.setCore_ret (s : State) (n : Nat) (c : Core) : (s.setCore n c).ret = s.ret := rfl
@[simp] theorem State.setCore_tel (s : State) (n : Nat) (c : Core) : (s.setCore n c).tel = s.tel := rfl
@[simp] theorem State.setCore_elec (s : State) (n : Nat) (c : Core) : (s.setCore n c).elec = s.elec := rfl
@[simp] theorem State.setCore_trusses (s : State) (n : Nat) (c : Core) : (s.setCore n c).trusses = s.trusses := rfl
@[simp] theorem State.setCore_pke (s : State) (n : Nat) (c : Core) : (s.setCore n c).pke = s.pke := rfl
@[simp] theorem State.setCore_sym (s : State) (n : Nat) (c : Core) : (s.setCore n c).sym = s.sym := rfl
@[simp] theorem State.setCore_svc (s : State) (n : Nat) (c : Core) : (s.setCore n c).svc = s.svc := rfl
@[simp] theorem State.setCore_pairs (s : State) (n : Nat) (c : Core) : (s.setCore n c).pairs = s.pairs := rfl
@[simp] theorem State.setCore_out (s : State) (n : Nat) (c : Core) : (s.setCore n c).out = s.out := rfl
@[simp] theorem State.setCore_free (s : State) (n : Nat) (c : Core) : (s.setCore n c).free = s.free := rfl
@[simp] theorem State.setCore_pending (s : State) (n : Nat) (c : Core) : (s.setCore n c).pending = s.pending := rfl

/-! ### Changing one core -/

@[simp] theorem State.updCore_hqi (s : State) (n : Nat) (f : Core → Core) : (s.updCore n f).hqi = s.hqi := rfl
@[simp] theorem State.updCore_rfb (s : State) (n : Nat) (f : Core → Core) : (s.updCore n f).rfb = s.rfb := rfl
@[simp] theorem State.updCore_img (s : State) (n : Nat) (f : Core → Core) : (s.updCore n f).img = s.img := rfl
@[simp] theorem State.updCore_gte (s : State) (n : Nat) (f : Core → Core) : (s.updCore n f).gte = s.gte := rfl
@[simp] theorem State.updCore_msu (s : State) (n : Nat) (f : Core → Core) : (s.updCore n f).msu = s.msu := rfl
@[simp] theorem State.updCore_ks (s : State) (n : Nat) (f : Core → Core) : (s.updCore n f).ks = s.ks := rfl
@[simp] theorem State.updCore_flash (s : State) (n : Nat) (f : Core → Core) : (s.updCore n f).flash = s.flash := rfl
@[simp] theorem State.updCore_flc (s : State) (n : Nat) (f : Core → Core) : (s.updCore n f).flc = s.flc := rfl
@[simp] theorem State.updCore_eav (s : State) (n : Nat) (f : Core → Core) : (s.updCore n f).eav = s.eav := rfl
@[simp] theorem State.updCore_slt (s : State) (n : Nat) (f : Core → Core) : (s.updCore n f).slt = s.slt := rfl
@[simp] theorem State.updCore_btn (s : State) (n : Nat) (f : Core → Core) : (s.updCore n f).btn = s.btn := rfl
@[simp] theorem State.updCore_sys (s : State) (n : Nat) (f : Core → Core) : (s.updCore n f).sys = s.sys := rfl
@[simp] theorem State.updCore_ret (s : State) (n : Nat) (f : Core → Core) : (s.updCore n f).ret = s.ret := rfl
@[simp] theorem State.updCore_tel (s : State) (n : Nat) (f : Core → Core) : (s.updCore n f).tel = s.tel := rfl
@[simp] theorem State.updCore_elec (s : State) (n : Nat) (f : Core → Core) : (s.updCore n f).elec = s.elec := rfl
@[simp] theorem State.updCore_trusses (s : State) (n : Nat) (f : Core → Core) : (s.updCore n f).trusses = s.trusses := rfl
@[simp] theorem State.updCore_pke (s : State) (n : Nat) (f : Core → Core) : (s.updCore n f).pke = s.pke := rfl
@[simp] theorem State.updCore_sym (s : State) (n : Nat) (f : Core → Core) : (s.updCore n f).sym = s.sym := rfl
@[simp] theorem State.updCore_svc (s : State) (n : Nat) (f : Core → Core) : (s.updCore n f).svc = s.svc := rfl
@[simp] theorem State.updCore_pairs (s : State) (n : Nat) (f : Core → Core) : (s.updCore n f).pairs = s.pairs := rfl
@[simp] theorem State.updCore_out (s : State) (n : Nat) (f : Core → Core) : (s.updCore n f).out = s.out := rfl
@[simp] theorem State.updCore_free (s : State) (n : Nat) (f : Core → Core) : (s.updCore n f).free = s.free := rfl
@[simp] theorem State.updCore_pending (s : State) (n : Nat) (f : Core → Core) : (s.updCore n f).pending = s.pending := rfl

/-! ### Changing one truss -/

@[simp] theorem State.updTruss_hqi (s : State) (t : Nat) (f : Truss → Truss) : (s.updTruss t f).hqi = s.hqi := rfl
@[simp] theorem State.updTruss_rfb (s : State) (t : Nat) (f : Truss → Truss) : (s.updTruss t f).rfb = s.rfb := rfl
@[simp] theorem State.updTruss_img (s : State) (t : Nat) (f : Truss → Truss) : (s.updTruss t f).img = s.img := rfl
@[simp] theorem State.updTruss_gte (s : State) (t : Nat) (f : Truss → Truss) : (s.updTruss t f).gte = s.gte := rfl
@[simp] theorem State.updTruss_msu (s : State) (t : Nat) (f : Truss → Truss) : (s.updTruss t f).msu = s.msu := rfl
@[simp] theorem State.updTruss_ks (s : State) (t : Nat) (f : Truss → Truss) : (s.updTruss t f).ks = s.ks := rfl
@[simp] theorem State.updTruss_flash (s : State) (t : Nat) (f : Truss → Truss) : (s.updTruss t f).flash = s.flash := rfl
@[simp] theorem State.updTruss_flc (s : State) (t : Nat) (f : Truss → Truss) : (s.updTruss t f).flc = s.flc := rfl
@[simp] theorem State.updTruss_eav (s : State) (t : Nat) (f : Truss → Truss) : (s.updTruss t f).eav = s.eav := rfl
@[simp] theorem State.updTruss_slt (s : State) (t : Nat) (f : Truss → Truss) : (s.updTruss t f).slt = s.slt := rfl
@[simp] theorem State.updTruss_btn (s : State) (t : Nat) (f : Truss → Truss) : (s.updTruss t f).btn = s.btn := rfl
@[simp] theorem State.updTruss_sys (s : State) (t : Nat) (f : Truss → Truss) : (s.updTruss t f).sys = s.sys := rfl
@[simp] theorem State.updTruss_ret (s : State) (t : Nat) (f : Truss → Truss) : (s.updTruss t f).ret = s.ret := rfl
@[simp] theorem State.updTruss_tel (s : State) (t : Nat) (f : Truss → Truss) : (s.updTruss t f).tel = s.tel := rfl
@[simp] theorem State.updTruss_elec (s : State) (t : Nat) (f : Truss → Truss) : (s.updTruss t f).elec = s.elec := rfl
@[simp] theorem State.updTruss_cores (s : State) (t : Nat) (f : Truss → Truss) : (s.updTruss t f).cores = s.cores := rfl
@[simp] theorem State.updTruss_pke (s : State) (t : Nat) (f : Truss → Truss) : (s.updTruss t f).pke = s.pke := rfl
@[simp] theorem State.updTruss_sym (s : State) (t : Nat) (f : Truss → Truss) : (s.updTruss t f).sym = s.sym := rfl
@[simp] theorem State.updTruss_svc (s : State) (t : Nat) (f : Truss → Truss) : (s.updTruss t f).svc = s.svc := rfl
@[simp] theorem State.updTruss_pairs (s : State) (t : Nat) (f : Truss → Truss) : (s.updTruss t f).pairs = s.pairs := rfl
@[simp] theorem State.updTruss_out (s : State) (t : Nat) (f : Truss → Truss) : (s.updTruss t f).out = s.out := rfl
@[simp] theorem State.updTruss_free (s : State) (t : Nat) (f : Truss → Truss) : (s.updTruss t f).free = s.free := rfl
@[simp] theorem State.updTruss_pending (s : State) (t : Nat) (f : Truss → Truss) : (s.updTruss t f).pending = s.pending := rfl

/-! ### An output -/

@[simp] theorem emit_hqi (o : Output) (s : State) : (emit o s).hqi = s.hqi := rfl
@[simp] theorem emit_rfb (o : Output) (s : State) : (emit o s).rfb = s.rfb := rfl
@[simp] theorem emit_img (o : Output) (s : State) : (emit o s).img = s.img := rfl
@[simp] theorem emit_gte (o : Output) (s : State) : (emit o s).gte = s.gte := rfl
@[simp] theorem emit_msu (o : Output) (s : State) : (emit o s).msu = s.msu := rfl
@[simp] theorem emit_ks (o : Output) (s : State) : (emit o s).ks = s.ks := rfl
@[simp] theorem emit_flash (o : Output) (s : State) : (emit o s).flash = s.flash := rfl
@[simp] theorem emit_flc (o : Output) (s : State) : (emit o s).flc = s.flc := rfl
@[simp] theorem emit_eav (o : Output) (s : State) : (emit o s).eav = s.eav := rfl
@[simp] theorem emit_slt (o : Output) (s : State) : (emit o s).slt = s.slt := rfl
@[simp] theorem emit_btn (o : Output) (s : State) : (emit o s).btn = s.btn := rfl
@[simp] theorem emit_sys (o : Output) (s : State) : (emit o s).sys = s.sys := rfl
@[simp] theorem emit_ret (o : Output) (s : State) : (emit o s).ret = s.ret := rfl
@[simp] theorem emit_tel (o : Output) (s : State) : (emit o s).tel = s.tel := rfl
@[simp] theorem emit_elec (o : Output) (s : State) : (emit o s).elec = s.elec := rfl
@[simp] theorem emit_cores (o : Output) (s : State) : (emit o s).cores = s.cores := rfl
@[simp] theorem emit_trusses (o : Output) (s : State) : (emit o s).trusses = s.trusses := rfl
@[simp] theorem emit_pke (o : Output) (s : State) : (emit o s).pke = s.pke := rfl
@[simp] theorem emit_sym (o : Output) (s : State) : (emit o s).sym = s.sym := rfl
@[simp] theorem emit_svc (o : Output) (s : State) : (emit o s).svc = s.svc := rfl
@[simp] theorem emit_pairs (o : Output) (s : State) : (emit o s).pairs = s.pairs := rfl
@[simp] theorem emit_free (o : Output) (s : State) : (emit o s).free = s.free := rfl
@[simp] theorem emit_pending (o : Output) (s : State) : (emit o s).pending = s.pending := rfl

/-! ### A detection -/

@[simp] theorem raise_hqi (code : Nat) (d : List Byte) (s : State) : (raise code d s).hqi = s.hqi := rfl
@[simp] theorem raise_rfb (code : Nat) (d : List Byte) (s : State) : (raise code d s).rfb = s.rfb := rfl
@[simp] theorem raise_img (code : Nat) (d : List Byte) (s : State) : (raise code d s).img = s.img := rfl
@[simp] theorem raise_gte (code : Nat) (d : List Byte) (s : State) : (raise code d s).gte = s.gte := rfl
@[simp] theorem raise_msu (code : Nat) (d : List Byte) (s : State) : (raise code d s).msu = s.msu := rfl
@[simp] theorem raise_ks (code : Nat) (d : List Byte) (s : State) : (raise code d s).ks = s.ks := rfl
@[simp] theorem raise_flash (code : Nat) (d : List Byte) (s : State) : (raise code d s).flash = s.flash := rfl
@[simp] theorem raise_flc (code : Nat) (d : List Byte) (s : State) : (raise code d s).flc = s.flc := rfl
@[simp] theorem raise_slt (code : Nat) (d : List Byte) (s : State) : (raise code d s).slt = s.slt := rfl
@[simp] theorem raise_btn (code : Nat) (d : List Byte) (s : State) : (raise code d s).btn = s.btn := rfl
@[simp] theorem raise_sys (code : Nat) (d : List Byte) (s : State) : (raise code d s).sys = s.sys := rfl
@[simp] theorem raise_ret (code : Nat) (d : List Byte) (s : State) : (raise code d s).ret = s.ret := rfl
@[simp] theorem raise_tel (code : Nat) (d : List Byte) (s : State) : (raise code d s).tel = s.tel := rfl
@[simp] theorem raise_elec (code : Nat) (d : List Byte) (s : State) : (raise code d s).elec = s.elec := rfl
@[simp] theorem raise_cores (code : Nat) (d : List Byte) (s : State) : (raise code d s).cores = s.cores := rfl
@[simp] theorem raise_trusses (code : Nat) (d : List Byte) (s : State) : (raise code d s).trusses = s.trusses := rfl
@[simp] theorem raise_pke (code : Nat) (d : List Byte) (s : State) : (raise code d s).pke = s.pke := rfl
@[simp] theorem raise_sym (code : Nat) (d : List Byte) (s : State) : (raise code d s).sym = s.sym := rfl
@[simp] theorem raise_svc (code : Nat) (d : List Byte) (s : State) : (raise code d s).svc = s.svc := rfl
@[simp] theorem raise_pairs (code : Nat) (d : List Byte) (s : State) : (raise code d s).pairs = s.pairs := rfl
@[simp] theorem raise_out (code : Nat) (d : List Byte) (s : State) : (raise code d s).out = s.out := rfl
@[simp] theorem raise_free (code : Nat) (d : List Byte) (s : State) : (raise code d s).free = s.free := rfl
@[simp] theorem raise_pending (code : Nat) (d : List Byte) (s : State) : (raise code d s).pending = s.pending := rfl

/-! ### Blowing one fuse -/

@[simp] theorem blowFuse_hqi (i : Nat) (s : State) : (blowFuse i s).hqi = s.hqi := rfl
@[simp] theorem blowFuse_rfb (i : Nat) (s : State) : (blowFuse i s).rfb = s.rfb := rfl
@[simp] theorem blowFuse_img (i : Nat) (s : State) : (blowFuse i s).img = s.img := rfl
@[simp] theorem blowFuse_gte (i : Nat) (s : State) : (blowFuse i s).gte = s.gte := rfl
@[simp] theorem blowFuse_msu (i : Nat) (s : State) : (blowFuse i s).msu = s.msu := rfl
@[simp] theorem blowFuse_ks (i : Nat) (s : State) : (blowFuse i s).ks = s.ks := rfl
@[simp] theorem blowFuse_flash (i : Nat) (s : State) : (blowFuse i s).flash = s.flash := rfl
@[simp] theorem blowFuse_flc (i : Nat) (s : State) : (blowFuse i s).flc = s.flc := rfl
@[simp] theorem blowFuse_slt (i : Nat) (s : State) : (blowFuse i s).slt = s.slt := rfl
@[simp] theorem blowFuse_btn (i : Nat) (s : State) : (blowFuse i s).btn = s.btn := rfl
@[simp] theorem blowFuse_sys (i : Nat) (s : State) : (blowFuse i s).sys = s.sys := rfl
@[simp] theorem blowFuse_ret (i : Nat) (s : State) : (blowFuse i s).ret = s.ret := rfl
@[simp] theorem blowFuse_tel (i : Nat) (s : State) : (blowFuse i s).tel = s.tel := rfl
@[simp] theorem blowFuse_elec (i : Nat) (s : State) : (blowFuse i s).elec = s.elec := rfl
@[simp] theorem blowFuse_cores (i : Nat) (s : State) : (blowFuse i s).cores = s.cores := rfl
@[simp] theorem blowFuse_trusses (i : Nat) (s : State) : (blowFuse i s).trusses = s.trusses := rfl
@[simp] theorem blowFuse_pke (i : Nat) (s : State) : (blowFuse i s).pke = s.pke := rfl
@[simp] theorem blowFuse_sym (i : Nat) (s : State) : (blowFuse i s).sym = s.sym := rfl
@[simp] theorem blowFuse_svc (i : Nat) (s : State) : (blowFuse i s).svc = s.svc := rfl
@[simp] theorem blowFuse_pairs (i : Nat) (s : State) : (blowFuse i s).pairs = s.pairs := rfl
@[simp] theorem blowFuse_out (i : Nat) (s : State) : (blowFuse i s).out = s.out := rfl
@[simp] theorem blowFuse_free (i : Nat) (s : State) : (blowFuse i s).free = s.free := rfl
@[simp] theorem blowFuse_pending (i : Nat) (s : State) : (blowFuse i s).pending = s.pending := rfl

/-! ### Taking free bytes -/

@[simp] theorem drawBytes_hqi (n : Nat) (s : State) : ((drawBytes n s).2).hqi = s.hqi := rfl
@[simp] theorem drawBytes_rfb (n : Nat) (s : State) : ((drawBytes n s).2).rfb = s.rfb := rfl
@[simp] theorem drawBytes_img (n : Nat) (s : State) : ((drawBytes n s).2).img = s.img := rfl
@[simp] theorem drawBytes_gte (n : Nat) (s : State) : ((drawBytes n s).2).gte = s.gte := rfl
@[simp] theorem drawBytes_msu (n : Nat) (s : State) : ((drawBytes n s).2).msu = s.msu := rfl
@[simp] theorem drawBytes_ks (n : Nat) (s : State) : ((drawBytes n s).2).ks = s.ks := rfl
@[simp] theorem drawBytes_flash (n : Nat) (s : State) : ((drawBytes n s).2).flash = s.flash := rfl
@[simp] theorem drawBytes_flc (n : Nat) (s : State) : ((drawBytes n s).2).flc = s.flc := rfl
@[simp] theorem drawBytes_eav (n : Nat) (s : State) : ((drawBytes n s).2).eav = s.eav := rfl
@[simp] theorem drawBytes_slt (n : Nat) (s : State) : ((drawBytes n s).2).slt = s.slt := rfl
@[simp] theorem drawBytes_btn (n : Nat) (s : State) : ((drawBytes n s).2).btn = s.btn := rfl
@[simp] theorem drawBytes_sys (n : Nat) (s : State) : ((drawBytes n s).2).sys = s.sys := rfl
@[simp] theorem drawBytes_ret (n : Nat) (s : State) : ((drawBytes n s).2).ret = s.ret := rfl
@[simp] theorem drawBytes_tel (n : Nat) (s : State) : ((drawBytes n s).2).tel = s.tel := rfl
@[simp] theorem drawBytes_elec (n : Nat) (s : State) : ((drawBytes n s).2).elec = s.elec := rfl
@[simp] theorem drawBytes_cores (n : Nat) (s : State) : ((drawBytes n s).2).cores = s.cores := rfl
@[simp] theorem drawBytes_trusses (n : Nat) (s : State) : ((drawBytes n s).2).trusses = s.trusses := rfl
@[simp] theorem drawBytes_pke (n : Nat) (s : State) : ((drawBytes n s).2).pke = s.pke := rfl
@[simp] theorem drawBytes_sym (n : Nat) (s : State) : ((drawBytes n s).2).sym = s.sym := rfl
@[simp] theorem drawBytes_svc (n : Nat) (s : State) : ((drawBytes n s).2).svc = s.svc := rfl
@[simp] theorem drawBytes_pairs (n : Nat) (s : State) : ((drawBytes n s).2).pairs = s.pairs := rfl
@[simp] theorem drawBytes_out (n : Nat) (s : State) : ((drawBytes n s).2).out = s.out := rfl
@[simp] theorem drawBytes_pending (n : Nat) (s : State) : ((drawBytes n s).2).pending = s.pending := rfl

/-! ### Writing the vault -/

@[simp] theorem putVault_hqi (o : Nat) (bs : List Byte) (s : State) : (putVault o bs s).hqi = s.hqi := rfl
@[simp] theorem putVault_rfb (o : Nat) (bs : List Byte) (s : State) : (putVault o bs s).rfb = s.rfb := rfl
@[simp] theorem putVault_img (o : Nat) (bs : List Byte) (s : State) : (putVault o bs s).img = s.img := rfl
@[simp] theorem putVault_gte (o : Nat) (bs : List Byte) (s : State) : (putVault o bs s).gte = s.gte := rfl
@[simp] theorem putVault_msu (o : Nat) (bs : List Byte) (s : State) : (putVault o bs s).msu = s.msu := rfl
@[simp] theorem putVault_ks (o : Nat) (bs : List Byte) (s : State) : (putVault o bs s).ks = s.ks := rfl
@[simp] theorem putVault_flash (o : Nat) (bs : List Byte) (s : State) : (putVault o bs s).flash = s.flash := rfl
@[simp] theorem putVault_flc (o : Nat) (bs : List Byte) (s : State) : (putVault o bs s).flc = s.flc := rfl
@[simp] theorem putVault_slt (o : Nat) (bs : List Byte) (s : State) : (putVault o bs s).slt = s.slt := rfl
@[simp] theorem putVault_btn (o : Nat) (bs : List Byte) (s : State) : (putVault o bs s).btn = s.btn := rfl
@[simp] theorem putVault_sys (o : Nat) (bs : List Byte) (s : State) : (putVault o bs s).sys = s.sys := rfl
@[simp] theorem putVault_ret (o : Nat) (bs : List Byte) (s : State) : (putVault o bs s).ret = s.ret := rfl
@[simp] theorem putVault_tel (o : Nat) (bs : List Byte) (s : State) : (putVault o bs s).tel = s.tel := rfl
@[simp] theorem putVault_elec (o : Nat) (bs : List Byte) (s : State) : (putVault o bs s).elec = s.elec := rfl
@[simp] theorem putVault_cores (o : Nat) (bs : List Byte) (s : State) : (putVault o bs s).cores = s.cores := rfl
@[simp] theorem putVault_trusses (o : Nat) (bs : List Byte) (s : State) : (putVault o bs s).trusses = s.trusses := rfl
@[simp] theorem putVault_pke (o : Nat) (bs : List Byte) (s : State) : (putVault o bs s).pke = s.pke := rfl
@[simp] theorem putVault_sym (o : Nat) (bs : List Byte) (s : State) : (putVault o bs s).sym = s.sym := rfl
@[simp] theorem putVault_svc (o : Nat) (bs : List Byte) (s : State) : (putVault o bs s).svc = s.svc := rfl
@[simp] theorem putVault_pairs (o : Nat) (bs : List Byte) (s : State) : (putVault o bs s).pairs = s.pairs := rfl
@[simp] theorem putVault_out (o : Nat) (bs : List Byte) (s : State) : (putVault o bs s).out = s.out := rfl
@[simp] theorem putVault_free (o : Nat) (bs : List Byte) (s : State) : (putVault o bs s).free = s.free := rfl
@[simp] theorem putVault_pending (o : Nat) (bs : List Byte) (s : State) : (putVault o bs s).pending = s.pending := rfl

/-! ### Writing the sealed store -/

@[simp] theorem putSealed_hqi (o : Nat) (bs : List Byte) (s : State) : (putSealed o bs s).hqi = s.hqi := rfl
@[simp] theorem putSealed_rfb (o : Nat) (bs : List Byte) (s : State) : (putSealed o bs s).rfb = s.rfb := rfl
@[simp] theorem putSealed_img (o : Nat) (bs : List Byte) (s : State) : (putSealed o bs s).img = s.img := rfl
@[simp] theorem putSealed_gte (o : Nat) (bs : List Byte) (s : State) : (putSealed o bs s).gte = s.gte := rfl
@[simp] theorem putSealed_ks (o : Nat) (bs : List Byte) (s : State) : (putSealed o bs s).ks = s.ks := rfl
@[simp] theorem putSealed_flash (o : Nat) (bs : List Byte) (s : State) : (putSealed o bs s).flash = s.flash := rfl
@[simp] theorem putSealed_flc (o : Nat) (bs : List Byte) (s : State) : (putSealed o bs s).flc = s.flc := rfl
@[simp] theorem putSealed_eav (o : Nat) (bs : List Byte) (s : State) : (putSealed o bs s).eav = s.eav := rfl
@[simp] theorem putSealed_slt (o : Nat) (bs : List Byte) (s : State) : (putSealed o bs s).slt = s.slt := rfl
@[simp] theorem putSealed_btn (o : Nat) (bs : List Byte) (s : State) : (putSealed o bs s).btn = s.btn := rfl
@[simp] theorem putSealed_sys (o : Nat) (bs : List Byte) (s : State) : (putSealed o bs s).sys = s.sys := rfl
@[simp] theorem putSealed_ret (o : Nat) (bs : List Byte) (s : State) : (putSealed o bs s).ret = s.ret := rfl
@[simp] theorem putSealed_tel (o : Nat) (bs : List Byte) (s : State) : (putSealed o bs s).tel = s.tel := rfl
@[simp] theorem putSealed_elec (o : Nat) (bs : List Byte) (s : State) : (putSealed o bs s).elec = s.elec := rfl
@[simp] theorem putSealed_cores (o : Nat) (bs : List Byte) (s : State) : (putSealed o bs s).cores = s.cores := rfl
@[simp] theorem putSealed_trusses (o : Nat) (bs : List Byte) (s : State) : (putSealed o bs s).trusses = s.trusses := rfl
@[simp] theorem putSealed_pke (o : Nat) (bs : List Byte) (s : State) : (putSealed o bs s).pke = s.pke := rfl
@[simp] theorem putSealed_sym (o : Nat) (bs : List Byte) (s : State) : (putSealed o bs s).sym = s.sym := rfl
@[simp] theorem putSealed_svc (o : Nat) (bs : List Byte) (s : State) : (putSealed o bs s).svc = s.svc := rfl
@[simp] theorem putSealed_pairs (o : Nat) (bs : List Byte) (s : State) : (putSealed o bs s).pairs = s.pairs := rfl
@[simp] theorem putSealed_out (o : Nat) (bs : List Byte) (s : State) : (putSealed o bs s).out = s.out := rfl
@[simp] theorem putSealed_free (o : Nat) (bs : List Byte) (s : State) : (putSealed o bs s).free = s.free := rfl
@[simp] theorem putSealed_pending (o : Nat) (bs : List Byte) (s : State) : (putSealed o bs s).pending = s.pending := rfl

/-! ### Putting one flash word into the array -/

@[simp] theorem putCell_hqi (w : Nat) (c : Option FlashCell) (s : State) : (putCell w c s).hqi = s.hqi := rfl
@[simp] theorem putCell_rfb (w : Nat) (c : Option FlashCell) (s : State) : (putCell w c s).rfb = s.rfb := rfl
@[simp] theorem putCell_img (w : Nat) (c : Option FlashCell) (s : State) : (putCell w c s).img = s.img := rfl
@[simp] theorem putCell_gte (w : Nat) (c : Option FlashCell) (s : State) : (putCell w c s).gte = s.gte := rfl
@[simp] theorem putCell_msu (w : Nat) (c : Option FlashCell) (s : State) : (putCell w c s).msu = s.msu := rfl
@[simp] theorem putCell_ks (w : Nat) (c : Option FlashCell) (s : State) : (putCell w c s).ks = s.ks := rfl
@[simp] theorem putCell_flc (w : Nat) (c : Option FlashCell) (s : State) : (putCell w c s).flc = s.flc := rfl
@[simp] theorem putCell_eav (w : Nat) (c : Option FlashCell) (s : State) : (putCell w c s).eav = s.eav := rfl
@[simp] theorem putCell_slt (w : Nat) (c : Option FlashCell) (s : State) : (putCell w c s).slt = s.slt := rfl
@[simp] theorem putCell_btn (w : Nat) (c : Option FlashCell) (s : State) : (putCell w c s).btn = s.btn := rfl
@[simp] theorem putCell_sys (w : Nat) (c : Option FlashCell) (s : State) : (putCell w c s).sys = s.sys := rfl
@[simp] theorem putCell_ret (w : Nat) (c : Option FlashCell) (s : State) : (putCell w c s).ret = s.ret := rfl
@[simp] theorem putCell_tel (w : Nat) (c : Option FlashCell) (s : State) : (putCell w c s).tel = s.tel := rfl
@[simp] theorem putCell_elec (w : Nat) (c : Option FlashCell) (s : State) : (putCell w c s).elec = s.elec := rfl
@[simp] theorem putCell_cores (w : Nat) (c : Option FlashCell) (s : State) : (putCell w c s).cores = s.cores := rfl
@[simp] theorem putCell_trusses (w : Nat) (c : Option FlashCell) (s : State) : (putCell w c s).trusses = s.trusses := rfl
@[simp] theorem putCell_pke (w : Nat) (c : Option FlashCell) (s : State) : (putCell w c s).pke = s.pke := rfl
@[simp] theorem putCell_sym (w : Nat) (c : Option FlashCell) (s : State) : (putCell w c s).sym = s.sym := rfl
@[simp] theorem putCell_svc (w : Nat) (c : Option FlashCell) (s : State) : (putCell w c s).svc = s.svc := rfl
@[simp] theorem putCell_pairs (w : Nat) (c : Option FlashCell) (s : State) : (putCell w c s).pairs = s.pairs := rfl
@[simp] theorem putCell_out (w : Nat) (c : Option FlashCell) (s : State) : (putCell w c s).out = s.out := rfl
@[simp] theorem putCell_free (w : Nat) (c : Option FlashCell) (s : State) : (putCell w c s).free = s.free := rfl
@[simp] theorem putCell_pending (w : Nat) (c : Option FlashCell) (s : State) : (putCell w c s).pending = s.pending := rfl

/-! ### Programming one flash word -/

@[simp] theorem putFlashWord_hqi (w : Nat) (v : Dword) (s : State) : (putFlashWord w v s).hqi = s.hqi := rfl
@[simp] theorem putFlashWord_rfb (w : Nat) (v : Dword) (s : State) : (putFlashWord w v s).rfb = s.rfb := rfl
@[simp] theorem putFlashWord_img (w : Nat) (v : Dword) (s : State) : (putFlashWord w v s).img = s.img := rfl
@[simp] theorem putFlashWord_gte (w : Nat) (v : Dword) (s : State) : (putFlashWord w v s).gte = s.gte := rfl
@[simp] theorem putFlashWord_msu (w : Nat) (v : Dword) (s : State) : (putFlashWord w v s).msu = s.msu := rfl
@[simp] theorem putFlashWord_ks (w : Nat) (v : Dword) (s : State) : (putFlashWord w v s).ks = s.ks := rfl
@[simp] theorem putFlashWord_flc (w : Nat) (v : Dword) (s : State) : (putFlashWord w v s).flc = s.flc := rfl
@[simp] theorem putFlashWord_eav (w : Nat) (v : Dword) (s : State) : (putFlashWord w v s).eav = s.eav := rfl
@[simp] theorem putFlashWord_slt (w : Nat) (v : Dword) (s : State) : (putFlashWord w v s).slt = s.slt := rfl
@[simp] theorem putFlashWord_btn (w : Nat) (v : Dword) (s : State) : (putFlashWord w v s).btn = s.btn := rfl
@[simp] theorem putFlashWord_sys (w : Nat) (v : Dword) (s : State) : (putFlashWord w v s).sys = s.sys := rfl
@[simp] theorem putFlashWord_ret (w : Nat) (v : Dword) (s : State) : (putFlashWord w v s).ret = s.ret := rfl
@[simp] theorem putFlashWord_tel (w : Nat) (v : Dword) (s : State) : (putFlashWord w v s).tel = s.tel := rfl
@[simp] theorem putFlashWord_elec (w : Nat) (v : Dword) (s : State) : (putFlashWord w v s).elec = s.elec := rfl
@[simp] theorem putFlashWord_cores (w : Nat) (v : Dword) (s : State) : (putFlashWord w v s).cores = s.cores := rfl
@[simp] theorem putFlashWord_trusses (w : Nat) (v : Dword) (s : State) : (putFlashWord w v s).trusses = s.trusses := rfl
@[simp] theorem putFlashWord_pke (w : Nat) (v : Dword) (s : State) : (putFlashWord w v s).pke = s.pke := rfl
@[simp] theorem putFlashWord_sym (w : Nat) (v : Dword) (s : State) : (putFlashWord w v s).sym = s.sym := rfl
@[simp] theorem putFlashWord_svc (w : Nat) (v : Dword) (s : State) : (putFlashWord w v s).svc = s.svc := rfl
@[simp] theorem putFlashWord_pairs (w : Nat) (v : Dword) (s : State) : (putFlashWord w v s).pairs = s.pairs := rfl
@[simp] theorem putFlashWord_out (w : Nat) (v : Dword) (s : State) : (putFlashWord w v s).out = s.out := rfl
@[simp] theorem putFlashWord_free (w : Nat) (v : Dword) (s : State) : (putFlashWord w v s).free = s.free := rfl
@[simp] theorem putFlashWord_pending (w : Nat) (v : Dword) (s : State) : (putFlashWord w v s).pending = s.pending := rfl

/-! ### Filling the flash data buffer -/

@[simp] theorem setFlcData_hqi (bs : List Byte) (s : State) : (setFlcData bs s).hqi = s.hqi := rfl
@[simp] theorem setFlcData_rfb (bs : List Byte) (s : State) : (setFlcData bs s).rfb = s.rfb := rfl
@[simp] theorem setFlcData_img (bs : List Byte) (s : State) : (setFlcData bs s).img = s.img := rfl
@[simp] theorem setFlcData_gte (bs : List Byte) (s : State) : (setFlcData bs s).gte = s.gte := rfl
@[simp] theorem setFlcData_msu (bs : List Byte) (s : State) : (setFlcData bs s).msu = s.msu := rfl
@[simp] theorem setFlcData_ks (bs : List Byte) (s : State) : (setFlcData bs s).ks = s.ks := rfl
@[simp] theorem setFlcData_flash (bs : List Byte) (s : State) : (setFlcData bs s).flash = s.flash := rfl
@[simp] theorem setFlcData_eav (bs : List Byte) (s : State) : (setFlcData bs s).eav = s.eav := rfl
@[simp] theorem setFlcData_slt (bs : List Byte) (s : State) : (setFlcData bs s).slt = s.slt := rfl
@[simp] theorem setFlcData_btn (bs : List Byte) (s : State) : (setFlcData bs s).btn = s.btn := rfl
@[simp] theorem setFlcData_sys (bs : List Byte) (s : State) : (setFlcData bs s).sys = s.sys := rfl
@[simp] theorem setFlcData_ret (bs : List Byte) (s : State) : (setFlcData bs s).ret = s.ret := rfl
@[simp] theorem setFlcData_tel (bs : List Byte) (s : State) : (setFlcData bs s).tel = s.tel := rfl
@[simp] theorem setFlcData_elec (bs : List Byte) (s : State) : (setFlcData bs s).elec = s.elec := rfl
@[simp] theorem setFlcData_cores (bs : List Byte) (s : State) : (setFlcData bs s).cores = s.cores := rfl
@[simp] theorem setFlcData_trusses (bs : List Byte) (s : State) : (setFlcData bs s).trusses = s.trusses := rfl
@[simp] theorem setFlcData_pke (bs : List Byte) (s : State) : (setFlcData bs s).pke = s.pke := rfl
@[simp] theorem setFlcData_sym (bs : List Byte) (s : State) : (setFlcData bs s).sym = s.sym := rfl
@[simp] theorem setFlcData_svc (bs : List Byte) (s : State) : (setFlcData bs s).svc = s.svc := rfl
@[simp] theorem setFlcData_pairs (bs : List Byte) (s : State) : (setFlcData bs s).pairs = s.pairs := rfl
@[simp] theorem setFlcData_out (bs : List Byte) (s : State) : (setFlcData bs s).out = s.out := rfl
@[simp] theorem setFlcData_free (bs : List Byte) (s : State) : (setFlcData bs s).free = s.free := rfl
@[simp] theorem setFlcData_pending (bs : List Byte) (s : State) : (setFlcData bs s).pending = s.pending := rfl

/-! ### Changing one function -/

@[simp] theorem updFn_rfb (f : Nat) (g : FnState → FnState) (s : State) : (updFn f g s).rfb = s.rfb := rfl
@[simp] theorem updFn_img (f : Nat) (g : FnState → FnState) (s : State) : (updFn f g s).img = s.img := rfl
@[simp] theorem updFn_gte (f : Nat) (g : FnState → FnState) (s : State) : (updFn f g s).gte = s.gte := rfl
@[simp] theorem updFn_msu (f : Nat) (g : FnState → FnState) (s : State) : (updFn f g s).msu = s.msu := rfl
@[simp] theorem updFn_ks (f : Nat) (g : FnState → FnState) (s : State) : (updFn f g s).ks = s.ks := rfl
@[simp] theorem updFn_flash (f : Nat) (g : FnState → FnState) (s : State) : (updFn f g s).flash = s.flash := rfl
@[simp] theorem updFn_flc (f : Nat) (g : FnState → FnState) (s : State) : (updFn f g s).flc = s.flc := rfl
@[simp] theorem updFn_eav (f : Nat) (g : FnState → FnState) (s : State) : (updFn f g s).eav = s.eav := rfl
@[simp] theorem updFn_slt (f : Nat) (g : FnState → FnState) (s : State) : (updFn f g s).slt = s.slt := rfl
@[simp] theorem updFn_btn (f : Nat) (g : FnState → FnState) (s : State) : (updFn f g s).btn = s.btn := rfl
@[simp] theorem updFn_sys (f : Nat) (g : FnState → FnState) (s : State) : (updFn f g s).sys = s.sys := rfl
@[simp] theorem updFn_ret (f : Nat) (g : FnState → FnState) (s : State) : (updFn f g s).ret = s.ret := rfl
@[simp] theorem updFn_tel (f : Nat) (g : FnState → FnState) (s : State) : (updFn f g s).tel = s.tel := rfl
@[simp] theorem updFn_elec (f : Nat) (g : FnState → FnState) (s : State) : (updFn f g s).elec = s.elec := rfl
@[simp] theorem updFn_cores (f : Nat) (g : FnState → FnState) (s : State) : (updFn f g s).cores = s.cores := rfl
@[simp] theorem updFn_trusses (f : Nat) (g : FnState → FnState) (s : State) : (updFn f g s).trusses = s.trusses := rfl
@[simp] theorem updFn_pke (f : Nat) (g : FnState → FnState) (s : State) : (updFn f g s).pke = s.pke := rfl
@[simp] theorem updFn_sym (f : Nat) (g : FnState → FnState) (s : State) : (updFn f g s).sym = s.sym := rfl
@[simp] theorem updFn_svc (f : Nat) (g : FnState → FnState) (s : State) : (updFn f g s).svc = s.svc := rfl
@[simp] theorem updFn_pairs (f : Nat) (g : FnState → FnState) (s : State) : (updFn f g s).pairs = s.pairs := rfl
@[simp] theorem updFn_out (f : Nat) (g : FnState → FnState) (s : State) : (updFn f g s).out = s.out := rfl
@[simp] theorem updFn_free (f : Nat) (g : FnState → FnState) (s : State) : (updFn f g s).free = s.free := rfl
@[simp] theorem updFn_pending (f : Nat) (g : FnState → FnState) (s : State) : (updFn f g s).pending = s.pending := rfl

/-! ### Setting one ring context -/

@[simp] theorem setRing_rfb (c : Nat) (r : RingCtx) (s : State) : (setRing c r s).rfb = s.rfb := rfl
@[simp] theorem setRing_img (c : Nat) (r : RingCtx) (s : State) : (setRing c r s).img = s.img := rfl
@[simp] theorem setRing_gte (c : Nat) (r : RingCtx) (s : State) : (setRing c r s).gte = s.gte := rfl
@[simp] theorem setRing_msu (c : Nat) (r : RingCtx) (s : State) : (setRing c r s).msu = s.msu := rfl
@[simp] theorem setRing_ks (c : Nat) (r : RingCtx) (s : State) : (setRing c r s).ks = s.ks := rfl
@[simp] theorem setRing_flash (c : Nat) (r : RingCtx) (s : State) : (setRing c r s).flash = s.flash := rfl
@[simp] theorem setRing_flc (c : Nat) (r : RingCtx) (s : State) : (setRing c r s).flc = s.flc := rfl
@[simp] theorem setRing_eav (c : Nat) (r : RingCtx) (s : State) : (setRing c r s).eav = s.eav := rfl
@[simp] theorem setRing_slt (c : Nat) (r : RingCtx) (s : State) : (setRing c r s).slt = s.slt := rfl
@[simp] theorem setRing_btn (c : Nat) (r : RingCtx) (s : State) : (setRing c r s).btn = s.btn := rfl
@[simp] theorem setRing_sys (c : Nat) (r : RingCtx) (s : State) : (setRing c r s).sys = s.sys := rfl
@[simp] theorem setRing_ret (c : Nat) (r : RingCtx) (s : State) : (setRing c r s).ret = s.ret := rfl
@[simp] theorem setRing_tel (c : Nat) (r : RingCtx) (s : State) : (setRing c r s).tel = s.tel := rfl
@[simp] theorem setRing_elec (c : Nat) (r : RingCtx) (s : State) : (setRing c r s).elec = s.elec := rfl
@[simp] theorem setRing_cores (c : Nat) (r : RingCtx) (s : State) : (setRing c r s).cores = s.cores := rfl
@[simp] theorem setRing_trusses (c : Nat) (r : RingCtx) (s : State) : (setRing c r s).trusses = s.trusses := rfl
@[simp] theorem setRing_pke (c : Nat) (r : RingCtx) (s : State) : (setRing c r s).pke = s.pke := rfl
@[simp] theorem setRing_sym (c : Nat) (r : RingCtx) (s : State) : (setRing c r s).sym = s.sym := rfl
@[simp] theorem setRing_svc (c : Nat) (r : RingCtx) (s : State) : (setRing c r s).svc = s.svc := rfl
@[simp] theorem setRing_pairs (c : Nat) (r : RingCtx) (s : State) : (setRing c r s).pairs = s.pairs := rfl
@[simp] theorem setRing_out (c : Nat) (r : RingCtx) (s : State) : (setRing c r s).out = s.out := rfl
@[simp] theorem setRing_free (c : Nat) (r : RingCtx) (s : State) : (setRing c r s).free = s.free := rfl
@[simp] theorem setRing_pending (c : Nat) (r : RingCtx) (s : State) : (setRing c r s).pending = s.pending := rfl

/-! ### Changing one command -/

@[simp] theorem updCmd_rfb (r : CmdRef) (f : Cmd → Cmd) (s : State) : (updCmd r f s).rfb = s.rfb := rfl
@[simp] theorem updCmd_img (r : CmdRef) (f : Cmd → Cmd) (s : State) : (updCmd r f s).img = s.img := rfl
@[simp] theorem updCmd_gte (r : CmdRef) (f : Cmd → Cmd) (s : State) : (updCmd r f s).gte = s.gte := rfl
@[simp] theorem updCmd_msu (r : CmdRef) (f : Cmd → Cmd) (s : State) : (updCmd r f s).msu = s.msu := rfl
@[simp] theorem updCmd_ks (r : CmdRef) (f : Cmd → Cmd) (s : State) : (updCmd r f s).ks = s.ks := rfl
@[simp] theorem updCmd_flash (r : CmdRef) (f : Cmd → Cmd) (s : State) : (updCmd r f s).flash = s.flash := rfl
@[simp] theorem updCmd_flc (r : CmdRef) (f : Cmd → Cmd) (s : State) : (updCmd r f s).flc = s.flc := rfl
@[simp] theorem updCmd_eav (r : CmdRef) (f : Cmd → Cmd) (s : State) : (updCmd r f s).eav = s.eav := rfl
@[simp] theorem updCmd_slt (r : CmdRef) (f : Cmd → Cmd) (s : State) : (updCmd r f s).slt = s.slt := rfl
@[simp] theorem updCmd_btn (r : CmdRef) (f : Cmd → Cmd) (s : State) : (updCmd r f s).btn = s.btn := rfl
@[simp] theorem updCmd_sys (r : CmdRef) (f : Cmd → Cmd) (s : State) : (updCmd r f s).sys = s.sys := rfl
@[simp] theorem updCmd_ret (r : CmdRef) (f : Cmd → Cmd) (s : State) : (updCmd r f s).ret = s.ret := rfl
@[simp] theorem updCmd_tel (r : CmdRef) (f : Cmd → Cmd) (s : State) : (updCmd r f s).tel = s.tel := rfl
@[simp] theorem updCmd_elec (r : CmdRef) (f : Cmd → Cmd) (s : State) : (updCmd r f s).elec = s.elec := rfl
@[simp] theorem updCmd_cores (r : CmdRef) (f : Cmd → Cmd) (s : State) : (updCmd r f s).cores = s.cores := rfl
@[simp] theorem updCmd_trusses (r : CmdRef) (f : Cmd → Cmd) (s : State) : (updCmd r f s).trusses = s.trusses := rfl
@[simp] theorem updCmd_pke (r : CmdRef) (f : Cmd → Cmd) (s : State) : (updCmd r f s).pke = s.pke := rfl
@[simp] theorem updCmd_sym (r : CmdRef) (f : Cmd → Cmd) (s : State) : (updCmd r f s).sym = s.sym := rfl
@[simp] theorem updCmd_svc (r : CmdRef) (f : Cmd → Cmd) (s : State) : (updCmd r f s).svc = s.svc := rfl
@[simp] theorem updCmd_pairs (r : CmdRef) (f : Cmd → Cmd) (s : State) : (updCmd r f s).pairs = s.pairs := rfl
@[simp] theorem updCmd_out (r : CmdRef) (f : Cmd → Cmd) (s : State) : (updCmd r f s).out = s.out := rfl
@[simp] theorem updCmd_free (r : CmdRef) (f : Cmd → Cmd) (s : State) : (updCmd r f s).free = s.free := rfl
@[simp] theorem updCmd_pending (r : CmdRef) (f : Cmd → Cmd) (s : State) : (updCmd r f s).pending = s.pending := rfl

/-! ### Setting one queue -/

@[simp] theorem setQueue_hqi (q : Nat) (ps : List Packet) (s : State) : (setQueue q ps s).hqi = s.hqi := rfl
@[simp] theorem setQueue_img (q : Nat) (ps : List Packet) (s : State) : (setQueue q ps s).img = s.img := rfl
@[simp] theorem setQueue_gte (q : Nat) (ps : List Packet) (s : State) : (setQueue q ps s).gte = s.gte := rfl
@[simp] theorem setQueue_msu (q : Nat) (ps : List Packet) (s : State) : (setQueue q ps s).msu = s.msu := rfl
@[simp] theorem setQueue_ks (q : Nat) (ps : List Packet) (s : State) : (setQueue q ps s).ks = s.ks := rfl
@[simp] theorem setQueue_flash (q : Nat) (ps : List Packet) (s : State) : (setQueue q ps s).flash = s.flash := rfl
@[simp] theorem setQueue_flc (q : Nat) (ps : List Packet) (s : State) : (setQueue q ps s).flc = s.flc := rfl
@[simp] theorem setQueue_eav (q : Nat) (ps : List Packet) (s : State) : (setQueue q ps s).eav = s.eav := rfl
@[simp] theorem setQueue_slt (q : Nat) (ps : List Packet) (s : State) : (setQueue q ps s).slt = s.slt := rfl
@[simp] theorem setQueue_btn (q : Nat) (ps : List Packet) (s : State) : (setQueue q ps s).btn = s.btn := rfl
@[simp] theorem setQueue_sys (q : Nat) (ps : List Packet) (s : State) : (setQueue q ps s).sys = s.sys := rfl
@[simp] theorem setQueue_ret (q : Nat) (ps : List Packet) (s : State) : (setQueue q ps s).ret = s.ret := rfl
@[simp] theorem setQueue_tel (q : Nat) (ps : List Packet) (s : State) : (setQueue q ps s).tel = s.tel := rfl
@[simp] theorem setQueue_elec (q : Nat) (ps : List Packet) (s : State) : (setQueue q ps s).elec = s.elec := rfl
@[simp] theorem setQueue_cores (q : Nat) (ps : List Packet) (s : State) : (setQueue q ps s).cores = s.cores := rfl
@[simp] theorem setQueue_trusses (q : Nat) (ps : List Packet) (s : State) : (setQueue q ps s).trusses = s.trusses := rfl
@[simp] theorem setQueue_pke (q : Nat) (ps : List Packet) (s : State) : (setQueue q ps s).pke = s.pke := rfl
@[simp] theorem setQueue_sym (q : Nat) (ps : List Packet) (s : State) : (setQueue q ps s).sym = s.sym := rfl
@[simp] theorem setQueue_svc (q : Nat) (ps : List Packet) (s : State) : (setQueue q ps s).svc = s.svc := rfl
@[simp] theorem setQueue_pairs (q : Nat) (ps : List Packet) (s : State) : (setQueue q ps s).pairs = s.pairs := rfl
@[simp] theorem setQueue_out (q : Nat) (ps : List Packet) (s : State) : (setQueue q ps s).out = s.out := rfl
@[simp] theorem setQueue_free (q : Nat) (ps : List Packet) (s : State) : (setQueue q ps s).free = s.free := rfl
@[simp] theorem setQueue_pending (q : Nat) (ps : List Packet) (s : State) : (setQueue q ps s).pending = s.pending := rfl

/-! ### Setting one producer context -/

@[simp] theorem setProd_hqi (x : Nat) (p : ProdCtx) (s : State) : (setProd x p s).hqi = s.hqi := rfl
@[simp] theorem setProd_img (x : Nat) (p : ProdCtx) (s : State) : (setProd x p s).img = s.img := rfl
@[simp] theorem setProd_gte (x : Nat) (p : ProdCtx) (s : State) : (setProd x p s).gte = s.gte := rfl
@[simp] theorem setProd_msu (x : Nat) (p : ProdCtx) (s : State) : (setProd x p s).msu = s.msu := rfl
@[simp] theorem setProd_ks (x : Nat) (p : ProdCtx) (s : State) : (setProd x p s).ks = s.ks := rfl
@[simp] theorem setProd_flash (x : Nat) (p : ProdCtx) (s : State) : (setProd x p s).flash = s.flash := rfl
@[simp] theorem setProd_flc (x : Nat) (p : ProdCtx) (s : State) : (setProd x p s).flc = s.flc := rfl
@[simp] theorem setProd_eav (x : Nat) (p : ProdCtx) (s : State) : (setProd x p s).eav = s.eav := rfl
@[simp] theorem setProd_slt (x : Nat) (p : ProdCtx) (s : State) : (setProd x p s).slt = s.slt := rfl
@[simp] theorem setProd_btn (x : Nat) (p : ProdCtx) (s : State) : (setProd x p s).btn = s.btn := rfl
@[simp] theorem setProd_sys (x : Nat) (p : ProdCtx) (s : State) : (setProd x p s).sys = s.sys := rfl
@[simp] theorem setProd_ret (x : Nat) (p : ProdCtx) (s : State) : (setProd x p s).ret = s.ret := rfl
@[simp] theorem setProd_tel (x : Nat) (p : ProdCtx) (s : State) : (setProd x p s).tel = s.tel := rfl
@[simp] theorem setProd_elec (x : Nat) (p : ProdCtx) (s : State) : (setProd x p s).elec = s.elec := rfl
@[simp] theorem setProd_cores (x : Nat) (p : ProdCtx) (s : State) : (setProd x p s).cores = s.cores := rfl
@[simp] theorem setProd_trusses (x : Nat) (p : ProdCtx) (s : State) : (setProd x p s).trusses = s.trusses := rfl
@[simp] theorem setProd_pke (x : Nat) (p : ProdCtx) (s : State) : (setProd x p s).pke = s.pke := rfl
@[simp] theorem setProd_sym (x : Nat) (p : ProdCtx) (s : State) : (setProd x p s).sym = s.sym := rfl
@[simp] theorem setProd_svc (x : Nat) (p : ProdCtx) (s : State) : (setProd x p s).svc = s.svc := rfl
@[simp] theorem setProd_pairs (x : Nat) (p : ProdCtx) (s : State) : (setProd x p s).pairs = s.pairs := rfl
@[simp] theorem setProd_out (x : Nat) (p : ProdCtx) (s : State) : (setProd x p s).out = s.out := rfl
@[simp] theorem setProd_free (x : Nat) (p : ProdCtx) (s : State) : (setProd x p s).free = s.free := rfl
@[simp] theorem setProd_pending (x : Nat) (p : ProdCtx) (s : State) : (setProd x p s).pending = s.pending := rfl

/-! ### Setting one consumer context -/

@[simp] theorem setCons_hqi (x : Nat) (c : ConsCtx) (s : State) : (setCons x c s).hqi = s.hqi := rfl
@[simp] theorem setCons_img (x : Nat) (c : ConsCtx) (s : State) : (setCons x c s).img = s.img := rfl
@[simp] theorem setCons_gte (x : Nat) (c : ConsCtx) (s : State) : (setCons x c s).gte = s.gte := rfl
@[simp] theorem setCons_msu (x : Nat) (c : ConsCtx) (s : State) : (setCons x c s).msu = s.msu := rfl
@[simp] theorem setCons_ks (x : Nat) (c : ConsCtx) (s : State) : (setCons x c s).ks = s.ks := rfl
@[simp] theorem setCons_flash (x : Nat) (c : ConsCtx) (s : State) : (setCons x c s).flash = s.flash := rfl
@[simp] theorem setCons_flc (x : Nat) (c : ConsCtx) (s : State) : (setCons x c s).flc = s.flc := rfl
@[simp] theorem setCons_eav (x : Nat) (c : ConsCtx) (s : State) : (setCons x c s).eav = s.eav := rfl
@[simp] theorem setCons_slt (x : Nat) (c : ConsCtx) (s : State) : (setCons x c s).slt = s.slt := rfl
@[simp] theorem setCons_btn (x : Nat) (c : ConsCtx) (s : State) : (setCons x c s).btn = s.btn := rfl
@[simp] theorem setCons_sys (x : Nat) (c : ConsCtx) (s : State) : (setCons x c s).sys = s.sys := rfl
@[simp] theorem setCons_ret (x : Nat) (c : ConsCtx) (s : State) : (setCons x c s).ret = s.ret := rfl
@[simp] theorem setCons_tel (x : Nat) (c : ConsCtx) (s : State) : (setCons x c s).tel = s.tel := rfl
@[simp] theorem setCons_elec (x : Nat) (c : ConsCtx) (s : State) : (setCons x c s).elec = s.elec := rfl
@[simp] theorem setCons_cores (x : Nat) (c : ConsCtx) (s : State) : (setCons x c s).cores = s.cores := rfl
@[simp] theorem setCons_trusses (x : Nat) (c : ConsCtx) (s : State) : (setCons x c s).trusses = s.trusses := rfl
@[simp] theorem setCons_pke (x : Nat) (c : ConsCtx) (s : State) : (setCons x c s).pke = s.pke := rfl
@[simp] theorem setCons_sym (x : Nat) (c : ConsCtx) (s : State) : (setCons x c s).sym = s.sym := rfl
@[simp] theorem setCons_svc (x : Nat) (c : ConsCtx) (s : State) : (setCons x c s).svc = s.svc := rfl
@[simp] theorem setCons_pairs (x : Nat) (c : ConsCtx) (s : State) : (setCons x c s).pairs = s.pairs := rfl
@[simp] theorem setCons_out (x : Nat) (c : ConsCtx) (s : State) : (setCons x c s).out = s.out := rfl
@[simp] theorem setCons_free (x : Nat) (c : ConsCtx) (s : State) : (setCons x c s).free = s.free := rfl
@[simp] theorem setCons_pending (x : Nat) (c : ConsCtx) (s : State) : (setCons x c s).pending = s.pending := rfl

/-! ### Setting one shadowed pair -/

@[simp] theorem setPair_hqi (x : Nat) (p : Pair) (s : State) : (setPair x p s).hqi = s.hqi := rfl
@[simp] theorem setPair_rfb (x : Nat) (p : Pair) (s : State) : (setPair x p s).rfb = s.rfb := rfl
@[simp] theorem setPair_img (x : Nat) (p : Pair) (s : State) : (setPair x p s).img = s.img := rfl
@[simp] theorem setPair_gte (x : Nat) (p : Pair) (s : State) : (setPair x p s).gte = s.gte := rfl
@[simp] theorem setPair_msu (x : Nat) (p : Pair) (s : State) : (setPair x p s).msu = s.msu := rfl
@[simp] theorem setPair_ks (x : Nat) (p : Pair) (s : State) : (setPair x p s).ks = s.ks := rfl
@[simp] theorem setPair_flash (x : Nat) (p : Pair) (s : State) : (setPair x p s).flash = s.flash := rfl
@[simp] theorem setPair_flc (x : Nat) (p : Pair) (s : State) : (setPair x p s).flc = s.flc := rfl
@[simp] theorem setPair_eav (x : Nat) (p : Pair) (s : State) : (setPair x p s).eav = s.eav := rfl
@[simp] theorem setPair_slt (x : Nat) (p : Pair) (s : State) : (setPair x p s).slt = s.slt := rfl
@[simp] theorem setPair_btn (x : Nat) (p : Pair) (s : State) : (setPair x p s).btn = s.btn := rfl
@[simp] theorem setPair_sys (x : Nat) (p : Pair) (s : State) : (setPair x p s).sys = s.sys := rfl
@[simp] theorem setPair_ret (x : Nat) (p : Pair) (s : State) : (setPair x p s).ret = s.ret := rfl
@[simp] theorem setPair_tel (x : Nat) (p : Pair) (s : State) : (setPair x p s).tel = s.tel := rfl
@[simp] theorem setPair_elec (x : Nat) (p : Pair) (s : State) : (setPair x p s).elec = s.elec := rfl
@[simp] theorem setPair_cores (x : Nat) (p : Pair) (s : State) : (setPair x p s).cores = s.cores := rfl
@[simp] theorem setPair_trusses (x : Nat) (p : Pair) (s : State) : (setPair x p s).trusses = s.trusses := rfl
@[simp] theorem setPair_pke (x : Nat) (p : Pair) (s : State) : (setPair x p s).pke = s.pke := rfl
@[simp] theorem setPair_sym (x : Nat) (p : Pair) (s : State) : (setPair x p s).sym = s.sym := rfl
@[simp] theorem setPair_svc (x : Nat) (p : Pair) (s : State) : (setPair x p s).svc = s.svc := rfl
@[simp] theorem setPair_out (x : Nat) (p : Pair) (s : State) : (setPair x p s).out = s.out := rfl
@[simp] theorem setPair_free (x : Nat) (p : Pair) (s : State) : (setPair x p s).free = s.free := rfl
@[simp] theorem setPair_pending (x : Nat) (p : Pair) (s : State) : (setPair x p s).pending = s.pending := rfl

/-! ### Setting one multiplier -/

@[simp] theorem setWma_hqi (t : Nat) (w : Wma) (s : State) : (setWma t w s).hqi = s.hqi := rfl
@[simp] theorem setWma_rfb (t : Nat) (w : Wma) (s : State) : (setWma t w s).rfb = s.rfb := rfl
@[simp] theorem setWma_img (t : Nat) (w : Wma) (s : State) : (setWma t w s).img = s.img := rfl
@[simp] theorem setWma_gte (t : Nat) (w : Wma) (s : State) : (setWma t w s).gte = s.gte := rfl
@[simp] theorem setWma_msu (t : Nat) (w : Wma) (s : State) : (setWma t w s).msu = s.msu := rfl
@[simp] theorem setWma_ks (t : Nat) (w : Wma) (s : State) : (setWma t w s).ks = s.ks := rfl
@[simp] theorem setWma_flash (t : Nat) (w : Wma) (s : State) : (setWma t w s).flash = s.flash := rfl
@[simp] theorem setWma_flc (t : Nat) (w : Wma) (s : State) : (setWma t w s).flc = s.flc := rfl
@[simp] theorem setWma_eav (t : Nat) (w : Wma) (s : State) : (setWma t w s).eav = s.eav := rfl
@[simp] theorem setWma_slt (t : Nat) (w : Wma) (s : State) : (setWma t w s).slt = s.slt := rfl
@[simp] theorem setWma_btn (t : Nat) (w : Wma) (s : State) : (setWma t w s).btn = s.btn := rfl
@[simp] theorem setWma_sys (t : Nat) (w : Wma) (s : State) : (setWma t w s).sys = s.sys := rfl
@[simp] theorem setWma_ret (t : Nat) (w : Wma) (s : State) : (setWma t w s).ret = s.ret := rfl
@[simp] theorem setWma_tel (t : Nat) (w : Wma) (s : State) : (setWma t w s).tel = s.tel := rfl
@[simp] theorem setWma_elec (t : Nat) (w : Wma) (s : State) : (setWma t w s).elec = s.elec := rfl
@[simp] theorem setWma_cores (t : Nat) (w : Wma) (s : State) : (setWma t w s).cores = s.cores := rfl
@[simp] theorem setWma_trusses (t : Nat) (w : Wma) (s : State) : (setWma t w s).trusses = s.trusses := rfl
@[simp] theorem setWma_sym (t : Nat) (w : Wma) (s : State) : (setWma t w s).sym = s.sym := rfl
@[simp] theorem setWma_svc (t : Nat) (w : Wma) (s : State) : (setWma t w s).svc = s.svc := rfl
@[simp] theorem setWma_pairs (t : Nat) (w : Wma) (s : State) : (setWma t w s).pairs = s.pairs := rfl
@[simp] theorem setWma_out (t : Nat) (w : Wma) (s : State) : (setWma t w s).out = s.out := rfl
@[simp] theorem setWma_free (t : Nat) (w : Wma) (s : State) : (setWma t w s).free = s.free := rfl
@[simp] theorem setWma_pending (t : Nat) (w : Wma) (s : State) : (setWma t w s).pending = s.pending := rfl

/-! ### Setting one Galliard engine -/

@[simp] theorem setGal_hqi (n : Nat) (g : Galliard) (s : State) : (setGal n g s).hqi = s.hqi := rfl
@[simp] theorem setGal_rfb (n : Nat) (g : Galliard) (s : State) : (setGal n g s).rfb = s.rfb := rfl
@[simp] theorem setGal_img (n : Nat) (g : Galliard) (s : State) : (setGal n g s).img = s.img := rfl
@[simp] theorem setGal_gte (n : Nat) (g : Galliard) (s : State) : (setGal n g s).gte = s.gte := rfl
@[simp] theorem setGal_msu (n : Nat) (g : Galliard) (s : State) : (setGal n g s).msu = s.msu := rfl
@[simp] theorem setGal_ks (n : Nat) (g : Galliard) (s : State) : (setGal n g s).ks = s.ks := rfl
@[simp] theorem setGal_flash (n : Nat) (g : Galliard) (s : State) : (setGal n g s).flash = s.flash := rfl
@[simp] theorem setGal_flc (n : Nat) (g : Galliard) (s : State) : (setGal n g s).flc = s.flc := rfl
@[simp] theorem setGal_eav (n : Nat) (g : Galliard) (s : State) : (setGal n g s).eav = s.eav := rfl
@[simp] theorem setGal_slt (n : Nat) (g : Galliard) (s : State) : (setGal n g s).slt = s.slt := rfl
@[simp] theorem setGal_btn (n : Nat) (g : Galliard) (s : State) : (setGal n g s).btn = s.btn := rfl
@[simp] theorem setGal_sys (n : Nat) (g : Galliard) (s : State) : (setGal n g s).sys = s.sys := rfl
@[simp] theorem setGal_ret (n : Nat) (g : Galliard) (s : State) : (setGal n g s).ret = s.ret := rfl
@[simp] theorem setGal_tel (n : Nat) (g : Galliard) (s : State) : (setGal n g s).tel = s.tel := rfl
@[simp] theorem setGal_elec (n : Nat) (g : Galliard) (s : State) : (setGal n g s).elec = s.elec := rfl
@[simp] theorem setGal_cores (n : Nat) (g : Galliard) (s : State) : (setGal n g s).cores = s.cores := rfl
@[simp] theorem setGal_trusses (n : Nat) (g : Galliard) (s : State) : (setGal n g s).trusses = s.trusses := rfl
@[simp] theorem setGal_sym (n : Nat) (g : Galliard) (s : State) : (setGal n g s).sym = s.sym := rfl
@[simp] theorem setGal_svc (n : Nat) (g : Galliard) (s : State) : (setGal n g s).svc = s.svc := rfl
@[simp] theorem setGal_pairs (n : Nat) (g : Galliard) (s : State) : (setGal n g s).pairs = s.pairs := rfl
@[simp] theorem setGal_out (n : Nat) (g : Galliard) (s : State) : (setGal n g s).out = s.out := rfl
@[simp] theorem setGal_free (n : Nat) (g : Galliard) (s : State) : (setGal n g s).free = s.free := rfl
@[simp] theorem setGal_pending (n : Nat) (g : Galliard) (s : State) : (setGal n g s).pending = s.pending := rfl

/-! ### Setting one port -/

@[simp] theorem setPort_hqi (n : Nat) (p : SymPort) (s : State) : (setPort n p s).hqi = s.hqi := rfl
@[simp] theorem setPort_rfb (n : Nat) (p : SymPort) (s : State) : (setPort n p s).rfb = s.rfb := rfl
@[simp] theorem setPort_img (n : Nat) (p : SymPort) (s : State) : (setPort n p s).img = s.img := rfl
@[simp] theorem setPort_gte (n : Nat) (p : SymPort) (s : State) : (setPort n p s).gte = s.gte := rfl
@[simp] theorem setPort_msu (n : Nat) (p : SymPort) (s : State) : (setPort n p s).msu = s.msu := rfl
@[simp] theorem setPort_ks (n : Nat) (p : SymPort) (s : State) : (setPort n p s).ks = s.ks := rfl
@[simp] theorem setPort_flash (n : Nat) (p : SymPort) (s : State) : (setPort n p s).flash = s.flash := rfl
@[simp] theorem setPort_flc (n : Nat) (p : SymPort) (s : State) : (setPort n p s).flc = s.flc := rfl
@[simp] theorem setPort_eav (n : Nat) (p : SymPort) (s : State) : (setPort n p s).eav = s.eav := rfl
@[simp] theorem setPort_slt (n : Nat) (p : SymPort) (s : State) : (setPort n p s).slt = s.slt := rfl
@[simp] theorem setPort_btn (n : Nat) (p : SymPort) (s : State) : (setPort n p s).btn = s.btn := rfl
@[simp] theorem setPort_sys (n : Nat) (p : SymPort) (s : State) : (setPort n p s).sys = s.sys := rfl
@[simp] theorem setPort_ret (n : Nat) (p : SymPort) (s : State) : (setPort n p s).ret = s.ret := rfl
@[simp] theorem setPort_tel (n : Nat) (p : SymPort) (s : State) : (setPort n p s).tel = s.tel := rfl
@[simp] theorem setPort_elec (n : Nat) (p : SymPort) (s : State) : (setPort n p s).elec = s.elec := rfl
@[simp] theorem setPort_cores (n : Nat) (p : SymPort) (s : State) : (setPort n p s).cores = s.cores := rfl
@[simp] theorem setPort_trusses (n : Nat) (p : SymPort) (s : State) : (setPort n p s).trusses = s.trusses := rfl
@[simp] theorem setPort_pke (n : Nat) (p : SymPort) (s : State) : (setPort n p s).pke = s.pke := rfl
@[simp] theorem setPort_svc (n : Nat) (p : SymPort) (s : State) : (setPort n p s).svc = s.svc := rfl
@[simp] theorem setPort_pairs (n : Nat) (p : SymPort) (s : State) : (setPort n p s).pairs = s.pairs := rfl
@[simp] theorem setPort_out (n : Nat) (p : SymPort) (s : State) : (setPort n p s).out = s.out := rfl
@[simp] theorem setPort_free (n : Nat) (p : SymPort) (s : State) : (setPort n p s).free = s.free := rfl
@[simp] theorem setPort_pending (n : Nat) (p : SymPort) (s : State) : (setPort n p s).pending = s.pending := rfl

/-! ### Setting one chaining register -/

@[simp] theorem setChain_hqi (k : Nat) (c : ChainReg) (s : State) : (setChain k c s).hqi = s.hqi := rfl
@[simp] theorem setChain_rfb (k : Nat) (c : ChainReg) (s : State) : (setChain k c s).rfb = s.rfb := rfl
@[simp] theorem setChain_img (k : Nat) (c : ChainReg) (s : State) : (setChain k c s).img = s.img := rfl
@[simp] theorem setChain_gte (k : Nat) (c : ChainReg) (s : State) : (setChain k c s).gte = s.gte := rfl
@[simp] theorem setChain_msu (k : Nat) (c : ChainReg) (s : State) : (setChain k c s).msu = s.msu := rfl
@[simp] theorem setChain_ks (k : Nat) (c : ChainReg) (s : State) : (setChain k c s).ks = s.ks := rfl
@[simp] theorem setChain_flash (k : Nat) (c : ChainReg) (s : State) : (setChain k c s).flash = s.flash := rfl
@[simp] theorem setChain_flc (k : Nat) (c : ChainReg) (s : State) : (setChain k c s).flc = s.flc := rfl
@[simp] theorem setChain_eav (k : Nat) (c : ChainReg) (s : State) : (setChain k c s).eav = s.eav := rfl
@[simp] theorem setChain_slt (k : Nat) (c : ChainReg) (s : State) : (setChain k c s).slt = s.slt := rfl
@[simp] theorem setChain_btn (k : Nat) (c : ChainReg) (s : State) : (setChain k c s).btn = s.btn := rfl
@[simp] theorem setChain_sys (k : Nat) (c : ChainReg) (s : State) : (setChain k c s).sys = s.sys := rfl
@[simp] theorem setChain_ret (k : Nat) (c : ChainReg) (s : State) : (setChain k c s).ret = s.ret := rfl
@[simp] theorem setChain_tel (k : Nat) (c : ChainReg) (s : State) : (setChain k c s).tel = s.tel := rfl
@[simp] theorem setChain_elec (k : Nat) (c : ChainReg) (s : State) : (setChain k c s).elec = s.elec := rfl
@[simp] theorem setChain_cores (k : Nat) (c : ChainReg) (s : State) : (setChain k c s).cores = s.cores := rfl
@[simp] theorem setChain_trusses (k : Nat) (c : ChainReg) (s : State) : (setChain k c s).trusses = s.trusses := rfl
@[simp] theorem setChain_pke (k : Nat) (c : ChainReg) (s : State) : (setChain k c s).pke = s.pke := rfl
@[simp] theorem setChain_svc (k : Nat) (c : ChainReg) (s : State) : (setChain k c s).svc = s.svc := rfl
@[simp] theorem setChain_pairs (k : Nat) (c : ChainReg) (s : State) : (setChain k c s).pairs = s.pairs := rfl
@[simp] theorem setChain_out (k : Nat) (c : ChainReg) (s : State) : (setChain k c s).out = s.out := rfl
@[simp] theorem setChain_free (k : Nat) (c : ChainReg) (s : State) : (setChain k c s).free = s.free := rfl
@[simp] theorem setChain_pending (k : Nat) (c : ChainReg) (s : State) : (setChain k c s).pending = s.pending := rfl

/-! ### Setting one DRBG -/

@[simp] theorem setDrbg_hqi (k : Nat) (d : Drbg) (s : State) : (setDrbg k d s).hqi = s.hqi := rfl
@[simp] theorem setDrbg_rfb (k : Nat) (d : Drbg) (s : State) : (setDrbg k d s).rfb = s.rfb := rfl
@[simp] theorem setDrbg_img (k : Nat) (d : Drbg) (s : State) : (setDrbg k d s).img = s.img := rfl
@[simp] theorem setDrbg_gte (k : Nat) (d : Drbg) (s : State) : (setDrbg k d s).gte = s.gte := rfl
@[simp] theorem setDrbg_msu (k : Nat) (d : Drbg) (s : State) : (setDrbg k d s).msu = s.msu := rfl
@[simp] theorem setDrbg_ks (k : Nat) (d : Drbg) (s : State) : (setDrbg k d s).ks = s.ks := rfl
@[simp] theorem setDrbg_flash (k : Nat) (d : Drbg) (s : State) : (setDrbg k d s).flash = s.flash := rfl
@[simp] theorem setDrbg_flc (k : Nat) (d : Drbg) (s : State) : (setDrbg k d s).flc = s.flc := rfl
@[simp] theorem setDrbg_eav (k : Nat) (d : Drbg) (s : State) : (setDrbg k d s).eav = s.eav := rfl
@[simp] theorem setDrbg_slt (k : Nat) (d : Drbg) (s : State) : (setDrbg k d s).slt = s.slt := rfl
@[simp] theorem setDrbg_btn (k : Nat) (d : Drbg) (s : State) : (setDrbg k d s).btn = s.btn := rfl
@[simp] theorem setDrbg_sys (k : Nat) (d : Drbg) (s : State) : (setDrbg k d s).sys = s.sys := rfl
@[simp] theorem setDrbg_ret (k : Nat) (d : Drbg) (s : State) : (setDrbg k d s).ret = s.ret := rfl
@[simp] theorem setDrbg_tel (k : Nat) (d : Drbg) (s : State) : (setDrbg k d s).tel = s.tel := rfl
@[simp] theorem setDrbg_elec (k : Nat) (d : Drbg) (s : State) : (setDrbg k d s).elec = s.elec := rfl
@[simp] theorem setDrbg_cores (k : Nat) (d : Drbg) (s : State) : (setDrbg k d s).cores = s.cores := rfl
@[simp] theorem setDrbg_trusses (k : Nat) (d : Drbg) (s : State) : (setDrbg k d s).trusses = s.trusses := rfl
@[simp] theorem setDrbg_pke (k : Nat) (d : Drbg) (s : State) : (setDrbg k d s).pke = s.pke := rfl
@[simp] theorem setDrbg_svc (k : Nat) (d : Drbg) (s : State) : (setDrbg k d s).svc = s.svc := rfl
@[simp] theorem setDrbg_pairs (k : Nat) (d : Drbg) (s : State) : (setDrbg k d s).pairs = s.pairs := rfl
@[simp] theorem setDrbg_out (k : Nat) (d : Drbg) (s : State) : (setDrbg k d s).out = s.out := rfl
@[simp] theorem setDrbg_free (k : Nat) (d : Drbg) (s : State) : (setDrbg k d s).free = s.free := rfl
@[simp] theorem setDrbg_pending (k : Nat) (d : Drbg) (s : State) : (setDrbg k d s).pending = s.pending := rfl

/-! ### Setting one pipeline -/

@[simp] theorem setPipe_hqi (p : Nat) (x : Pipe) (s : State) : (setPipe p x s).hqi = s.hqi := rfl
@[simp] theorem setPipe_rfb (p : Nat) (x : Pipe) (s : State) : (setPipe p x s).rfb = s.rfb := rfl
@[simp] theorem setPipe_img (p : Nat) (x : Pipe) (s : State) : (setPipe p x s).img = s.img := rfl
@[simp] theorem setPipe_gte (p : Nat) (x : Pipe) (s : State) : (setPipe p x s).gte = s.gte := rfl
@[simp] theorem setPipe_msu (p : Nat) (x : Pipe) (s : State) : (setPipe p x s).msu = s.msu := rfl
@[simp] theorem setPipe_ks (p : Nat) (x : Pipe) (s : State) : (setPipe p x s).ks = s.ks := rfl
@[simp] theorem setPipe_flash (p : Nat) (x : Pipe) (s : State) : (setPipe p x s).flash = s.flash := rfl
@[simp] theorem setPipe_flc (p : Nat) (x : Pipe) (s : State) : (setPipe p x s).flc = s.flc := rfl
@[simp] theorem setPipe_eav (p : Nat) (x : Pipe) (s : State) : (setPipe p x s).eav = s.eav := rfl
@[simp] theorem setPipe_slt (p : Nat) (x : Pipe) (s : State) : (setPipe p x s).slt = s.slt := rfl
@[simp] theorem setPipe_btn (p : Nat) (x : Pipe) (s : State) : (setPipe p x s).btn = s.btn := rfl
@[simp] theorem setPipe_sys (p : Nat) (x : Pipe) (s : State) : (setPipe p x s).sys = s.sys := rfl
@[simp] theorem setPipe_ret (p : Nat) (x : Pipe) (s : State) : (setPipe p x s).ret = s.ret := rfl
@[simp] theorem setPipe_tel (p : Nat) (x : Pipe) (s : State) : (setPipe p x s).tel = s.tel := rfl
@[simp] theorem setPipe_elec (p : Nat) (x : Pipe) (s : State) : (setPipe p x s).elec = s.elec := rfl
@[simp] theorem setPipe_cores (p : Nat) (x : Pipe) (s : State) : (setPipe p x s).cores = s.cores := rfl
@[simp] theorem setPipe_trusses (p : Nat) (x : Pipe) (s : State) : (setPipe p x s).trusses = s.trusses := rfl
@[simp] theorem setPipe_pke (p : Nat) (x : Pipe) (s : State) : (setPipe p x s).pke = s.pke := rfl
@[simp] theorem setPipe_svc (p : Nat) (x : Pipe) (s : State) : (setPipe p x s).svc = s.svc := rfl
@[simp] theorem setPipe_pairs (p : Nat) (x : Pipe) (s : State) : (setPipe p x s).pairs = s.pairs := rfl
@[simp] theorem setPipe_out (p : Nat) (x : Pipe) (s : State) : (setPipe p x s).out = s.out := rfl
@[simp] theorem setPipe_free (p : Nat) (x : Pipe) (s : State) : (setPipe p x s).free = s.free := rfl
@[simp] theorem setPipe_pending (p : Nat) (x : Pipe) (s : State) : (setPipe p x s).pending = s.pending := rfl

/-! ### Setting one SHA context -/

@[simp] theorem setSha_hqi (n : Nat) (c : ShaCtx) (s : State) : (setSha n c s).hqi = s.hqi := rfl
@[simp] theorem setSha_rfb (n : Nat) (c : ShaCtx) (s : State) : (setSha n c s).rfb = s.rfb := rfl
@[simp] theorem setSha_img (n : Nat) (c : ShaCtx) (s : State) : (setSha n c s).img = s.img := rfl
@[simp] theorem setSha_gte (n : Nat) (c : ShaCtx) (s : State) : (setSha n c s).gte = s.gte := rfl
@[simp] theorem setSha_msu (n : Nat) (c : ShaCtx) (s : State) : (setSha n c s).msu = s.msu := rfl
@[simp] theorem setSha_ks (n : Nat) (c : ShaCtx) (s : State) : (setSha n c s).ks = s.ks := rfl
@[simp] theorem setSha_flash (n : Nat) (c : ShaCtx) (s : State) : (setSha n c s).flash = s.flash := rfl
@[simp] theorem setSha_flc (n : Nat) (c : ShaCtx) (s : State) : (setSha n c s).flc = s.flc := rfl
@[simp] theorem setSha_eav (n : Nat) (c : ShaCtx) (s : State) : (setSha n c s).eav = s.eav := rfl
@[simp] theorem setSha_slt (n : Nat) (c : ShaCtx) (s : State) : (setSha n c s).slt = s.slt := rfl
@[simp] theorem setSha_btn (n : Nat) (c : ShaCtx) (s : State) : (setSha n c s).btn = s.btn := rfl
@[simp] theorem setSha_sys (n : Nat) (c : ShaCtx) (s : State) : (setSha n c s).sys = s.sys := rfl
@[simp] theorem setSha_ret (n : Nat) (c : ShaCtx) (s : State) : (setSha n c s).ret = s.ret := rfl
@[simp] theorem setSha_tel (n : Nat) (c : ShaCtx) (s : State) : (setSha n c s).tel = s.tel := rfl
@[simp] theorem setSha_elec (n : Nat) (c : ShaCtx) (s : State) : (setSha n c s).elec = s.elec := rfl
@[simp] theorem setSha_cores (n : Nat) (c : ShaCtx) (s : State) : (setSha n c s).cores = s.cores := rfl
@[simp] theorem setSha_trusses (n : Nat) (c : ShaCtx) (s : State) : (setSha n c s).trusses = s.trusses := rfl
@[simp] theorem setSha_pke (n : Nat) (c : ShaCtx) (s : State) : (setSha n c s).pke = s.pke := rfl
@[simp] theorem setSha_svc (n : Nat) (c : ShaCtx) (s : State) : (setSha n c s).svc = s.svc := rfl
@[simp] theorem setSha_pairs (n : Nat) (c : ShaCtx) (s : State) : (setSha n c s).pairs = s.pairs := rfl
@[simp] theorem setSha_out (n : Nat) (c : ShaCtx) (s : State) : (setSha n c s).out = s.out := rfl
@[simp] theorem setSha_free (n : Nat) (c : ShaCtx) (s : State) : (setSha n c s).free = s.free := rfl
@[simp] theorem setSha_pending (n : Nat) (c : ShaCtx) (s : State) : (setSha n c s).pending = s.pending := rfl

/-! ### Changing the counter block -/

@[simp] theorem updCtr_hqi (f : CtrState → CtrState) (s : State) : (updCtr f s).hqi = s.hqi := rfl
@[simp] theorem updCtr_rfb (f : CtrState → CtrState) (s : State) : (updCtr f s).rfb = s.rfb := rfl
@[simp] theorem updCtr_img (f : CtrState → CtrState) (s : State) : (updCtr f s).img = s.img := rfl
@[simp] theorem updCtr_gte (f : CtrState → CtrState) (s : State) : (updCtr f s).gte = s.gte := rfl
@[simp] theorem updCtr_msu (f : CtrState → CtrState) (s : State) : (updCtr f s).msu = s.msu := rfl
@[simp] theorem updCtr_ks (f : CtrState → CtrState) (s : State) : (updCtr f s).ks = s.ks := rfl
@[simp] theorem updCtr_flash (f : CtrState → CtrState) (s : State) : (updCtr f s).flash = s.flash := rfl
@[simp] theorem updCtr_flc (f : CtrState → CtrState) (s : State) : (updCtr f s).flc = s.flc := rfl
@[simp] theorem updCtr_eav (f : CtrState → CtrState) (s : State) : (updCtr f s).eav = s.eav := rfl
@[simp] theorem updCtr_slt (f : CtrState → CtrState) (s : State) : (updCtr f s).slt = s.slt := rfl
@[simp] theorem updCtr_btn (f : CtrState → CtrState) (s : State) : (updCtr f s).btn = s.btn := rfl
@[simp] theorem updCtr_sys (f : CtrState → CtrState) (s : State) : (updCtr f s).sys = s.sys := rfl
@[simp] theorem updCtr_ret (f : CtrState → CtrState) (s : State) : (updCtr f s).ret = s.ret := rfl
@[simp] theorem updCtr_tel (f : CtrState → CtrState) (s : State) : (updCtr f s).tel = s.tel := rfl
@[simp] theorem updCtr_elec (f : CtrState → CtrState) (s : State) : (updCtr f s).elec = s.elec := rfl
@[simp] theorem updCtr_cores (f : CtrState → CtrState) (s : State) : (updCtr f s).cores = s.cores := rfl
@[simp] theorem updCtr_trusses (f : CtrState → CtrState) (s : State) : (updCtr f s).trusses = s.trusses := rfl
@[simp] theorem updCtr_pke (f : CtrState → CtrState) (s : State) : (updCtr f s).pke = s.pke := rfl
@[simp] theorem updCtr_svc (f : CtrState → CtrState) (s : State) : (updCtr f s).svc = s.svc := rfl
@[simp] theorem updCtr_pairs (f : CtrState → CtrState) (s : State) : (updCtr f s).pairs = s.pairs := rfl
@[simp] theorem updCtr_out (f : CtrState → CtrState) (s : State) : (updCtr f s).out = s.out := rfl
@[simp] theorem updCtr_free (f : CtrState → CtrState) (s : State) : (updCtr f s).free = s.free := rfl
@[simp] theorem updCtr_pending (f : CtrState → CtrState) (s : State) : (updCtr f s).pending = s.pending := rfl

/-! ### Changing the ceremony -/

@[simp] theorem updCer_hqi (f : Ceremony → Ceremony) (s : State) : (updCer f s).hqi = s.hqi := rfl
@[simp] theorem updCer_rfb (f : Ceremony → Ceremony) (s : State) : (updCer f s).rfb = s.rfb := rfl
@[simp] theorem updCer_img (f : Ceremony → Ceremony) (s : State) : (updCer f s).img = s.img := rfl
@[simp] theorem updCer_gte (f : Ceremony → Ceremony) (s : State) : (updCer f s).gte = s.gte := rfl
@[simp] theorem updCer_msu (f : Ceremony → Ceremony) (s : State) : (updCer f s).msu = s.msu := rfl
@[simp] theorem updCer_ks (f : Ceremony → Ceremony) (s : State) : (updCer f s).ks = s.ks := rfl
@[simp] theorem updCer_flash (f : Ceremony → Ceremony) (s : State) : (updCer f s).flash = s.flash := rfl
@[simp] theorem updCer_flc (f : Ceremony → Ceremony) (s : State) : (updCer f s).flc = s.flc := rfl
@[simp] theorem updCer_eav (f : Ceremony → Ceremony) (s : State) : (updCer f s).eav = s.eav := rfl
@[simp] theorem updCer_btn (f : Ceremony → Ceremony) (s : State) : (updCer f s).btn = s.btn := rfl
@[simp] theorem updCer_sys (f : Ceremony → Ceremony) (s : State) : (updCer f s).sys = s.sys := rfl
@[simp] theorem updCer_ret (f : Ceremony → Ceremony) (s : State) : (updCer f s).ret = s.ret := rfl
@[simp] theorem updCer_tel (f : Ceremony → Ceremony) (s : State) : (updCer f s).tel = s.tel := rfl
@[simp] theorem updCer_elec (f : Ceremony → Ceremony) (s : State) : (updCer f s).elec = s.elec := rfl
@[simp] theorem updCer_cores (f : Ceremony → Ceremony) (s : State) : (updCer f s).cores = s.cores := rfl
@[simp] theorem updCer_trusses (f : Ceremony → Ceremony) (s : State) : (updCer f s).trusses = s.trusses := rfl
@[simp] theorem updCer_pke (f : Ceremony → Ceremony) (s : State) : (updCer f s).pke = s.pke := rfl
@[simp] theorem updCer_sym (f : Ceremony → Ceremony) (s : State) : (updCer f s).sym = s.sym := rfl
@[simp] theorem updCer_svc (f : Ceremony → Ceremony) (s : State) : (updCer f s).svc = s.svc := rfl
@[simp] theorem updCer_pairs (f : Ceremony → Ceremony) (s : State) : (updCer f s).pairs = s.pairs := rfl
@[simp] theorem updCer_out (f : Ceremony → Ceremony) (s : State) : (updCer f s).out = s.out := rfl
@[simp] theorem updCer_free (f : Ceremony → Ceremony) (s : State) : (updCer f s).free = s.free := rfl
@[simp] theorem updCer_pending (f : Ceremony → Ceremony) (s : State) : (updCer f s).pending = s.pending := rfl

/-! ### Setting one slot -/

@[simp] theorem setSlot_hqi (n : Nat) (x : Slot) (s : State) : (setSlot n x s).hqi = s.hqi := rfl
@[simp] theorem setSlot_rfb (n : Nat) (x : Slot) (s : State) : (setSlot n x s).rfb = s.rfb := rfl
@[simp] theorem setSlot_img (n : Nat) (x : Slot) (s : State) : (setSlot n x s).img = s.img := rfl
@[simp] theorem setSlot_gte (n : Nat) (x : Slot) (s : State) : (setSlot n x s).gte = s.gte := rfl
@[simp] theorem setSlot_msu (n : Nat) (x : Slot) (s : State) : (setSlot n x s).msu = s.msu := rfl
@[simp] theorem setSlot_ks (n : Nat) (x : Slot) (s : State) : (setSlot n x s).ks = s.ks := rfl
@[simp] theorem setSlot_flash (n : Nat) (x : Slot) (s : State) : (setSlot n x s).flash = s.flash := rfl
@[simp] theorem setSlot_flc (n : Nat) (x : Slot) (s : State) : (setSlot n x s).flc = s.flc := rfl
@[simp] theorem setSlot_eav (n : Nat) (x : Slot) (s : State) : (setSlot n x s).eav = s.eav := rfl
@[simp] theorem setSlot_btn (n : Nat) (x : Slot) (s : State) : (setSlot n x s).btn = s.btn := rfl
@[simp] theorem setSlot_sys (n : Nat) (x : Slot) (s : State) : (setSlot n x s).sys = s.sys := rfl
@[simp] theorem setSlot_ret (n : Nat) (x : Slot) (s : State) : (setSlot n x s).ret = s.ret := rfl
@[simp] theorem setSlot_tel (n : Nat) (x : Slot) (s : State) : (setSlot n x s).tel = s.tel := rfl
@[simp] theorem setSlot_elec (n : Nat) (x : Slot) (s : State) : (setSlot n x s).elec = s.elec := rfl
@[simp] theorem setSlot_cores (n : Nat) (x : Slot) (s : State) : (setSlot n x s).cores = s.cores := rfl
@[simp] theorem setSlot_trusses (n : Nat) (x : Slot) (s : State) : (setSlot n x s).trusses = s.trusses := rfl
@[simp] theorem setSlot_pke (n : Nat) (x : Slot) (s : State) : (setSlot n x s).pke = s.pke := rfl
@[simp] theorem setSlot_sym (n : Nat) (x : Slot) (s : State) : (setSlot n x s).sym = s.sym := rfl
@[simp] theorem setSlot_svc (n : Nat) (x : Slot) (s : State) : (setSlot n x s).svc = s.svc := rfl
@[simp] theorem setSlot_pairs (n : Nat) (x : Slot) (s : State) : (setSlot n x s).pairs = s.pairs := rfl
@[simp] theorem setSlot_out (n : Nat) (x : Slot) (s : State) : (setSlot n x s).out = s.out := rfl
@[simp] theorem setSlot_free (n : Nat) (x : Slot) (s : State) : (setSlot n x s).free = s.free := rfl
@[simp] theorem setSlot_pending (n : Nat) (x : Slot) (s : State) : (setSlot n x s).pending = s.pending := rfl

/-! ### Setting one Batten port -/

@[simp] theorem setBtnPort_hqi (n : Nat) (p : Port) (s : State) : (setBtnPort n p s).hqi = s.hqi := rfl
@[simp] theorem setBtnPort_rfb (n : Nat) (p : Port) (s : State) : (setBtnPort n p s).rfb = s.rfb := rfl
@[simp] theorem setBtnPort_img (n : Nat) (p : Port) (s : State) : (setBtnPort n p s).img = s.img := rfl
@[simp] theorem setBtnPort_gte (n : Nat) (p : Port) (s : State) : (setBtnPort n p s).gte = s.gte := rfl
@[simp] theorem setBtnPort_msu (n : Nat) (p : Port) (s : State) : (setBtnPort n p s).msu = s.msu := rfl
@[simp] theorem setBtnPort_ks (n : Nat) (p : Port) (s : State) : (setBtnPort n p s).ks = s.ks := rfl
@[simp] theorem setBtnPort_flash (n : Nat) (p : Port) (s : State) : (setBtnPort n p s).flash = s.flash := rfl
@[simp] theorem setBtnPort_flc (n : Nat) (p : Port) (s : State) : (setBtnPort n p s).flc = s.flc := rfl
@[simp] theorem setBtnPort_eav (n : Nat) (p : Port) (s : State) : (setBtnPort n p s).eav = s.eav := rfl
@[simp] theorem setBtnPort_slt (n : Nat) (p : Port) (s : State) : (setBtnPort n p s).slt = s.slt := rfl
@[simp] theorem setBtnPort_sys (n : Nat) (p : Port) (s : State) : (setBtnPort n p s).sys = s.sys := rfl
@[simp] theorem setBtnPort_ret (n : Nat) (p : Port) (s : State) : (setBtnPort n p s).ret = s.ret := rfl
@[simp] theorem setBtnPort_tel (n : Nat) (p : Port) (s : State) : (setBtnPort n p s).tel = s.tel := rfl
@[simp] theorem setBtnPort_elec (n : Nat) (p : Port) (s : State) : (setBtnPort n p s).elec = s.elec := rfl
@[simp] theorem setBtnPort_cores (n : Nat) (p : Port) (s : State) : (setBtnPort n p s).cores = s.cores := rfl
@[simp] theorem setBtnPort_trusses (n : Nat) (p : Port) (s : State) : (setBtnPort n p s).trusses = s.trusses := rfl
@[simp] theorem setBtnPort_pke (n : Nat) (p : Port) (s : State) : (setBtnPort n p s).pke = s.pke := rfl
@[simp] theorem setBtnPort_sym (n : Nat) (p : Port) (s : State) : (setBtnPort n p s).sym = s.sym := rfl
@[simp] theorem setBtnPort_svc (n : Nat) (p : Port) (s : State) : (setBtnPort n p s).svc = s.svc := rfl
@[simp] theorem setBtnPort_pairs (n : Nat) (p : Port) (s : State) : (setBtnPort n p s).pairs = s.pairs := rfl
@[simp] theorem setBtnPort_out (n : Nat) (p : Port) (s : State) : (setBtnPort n p s).out = s.out := rfl
@[simp] theorem setBtnPort_free (n : Nat) (p : Port) (s : State) : (setBtnPort n p s).free = s.free := rfl
@[simp] theorem setBtnPort_pending (n : Nat) (p : Port) (s : State) : (setBtnPort n p s).pending = s.pending := rfl

/-! ### Counting a lifetime event -/

@[simp] theorem countLife_hqi (f : SnapCounts → SnapCounts) (s : State) : (countLife f s).hqi = s.hqi := rfl
@[simp] theorem countLife_rfb (f : SnapCounts → SnapCounts) (s : State) : (countLife f s).rfb = s.rfb := rfl
@[simp] theorem countLife_img (f : SnapCounts → SnapCounts) (s : State) : (countLife f s).img = s.img := rfl
@[simp] theorem countLife_gte (f : SnapCounts → SnapCounts) (s : State) : (countLife f s).gte = s.gte := rfl
@[simp] theorem countLife_msu (f : SnapCounts → SnapCounts) (s : State) : (countLife f s).msu = s.msu := rfl
@[simp] theorem countLife_ks (f : SnapCounts → SnapCounts) (s : State) : (countLife f s).ks = s.ks := rfl
@[simp] theorem countLife_flash (f : SnapCounts → SnapCounts) (s : State) : (countLife f s).flash = s.flash := rfl
@[simp] theorem countLife_flc (f : SnapCounts → SnapCounts) (s : State) : (countLife f s).flc = s.flc := rfl
@[simp] theorem countLife_eav (f : SnapCounts → SnapCounts) (s : State) : (countLife f s).eav = s.eav := rfl
@[simp] theorem countLife_slt (f : SnapCounts → SnapCounts) (s : State) : (countLife f s).slt = s.slt := rfl
@[simp] theorem countLife_btn (f : SnapCounts → SnapCounts) (s : State) : (countLife f s).btn = s.btn := rfl
@[simp] theorem countLife_sys (f : SnapCounts → SnapCounts) (s : State) : (countLife f s).sys = s.sys := rfl
@[simp] theorem countLife_ret (f : SnapCounts → SnapCounts) (s : State) : (countLife f s).ret = s.ret := rfl
@[simp] theorem countLife_elec (f : SnapCounts → SnapCounts) (s : State) : (countLife f s).elec = s.elec := rfl
@[simp] theorem countLife_cores (f : SnapCounts → SnapCounts) (s : State) : (countLife f s).cores = s.cores := rfl
@[simp] theorem countLife_trusses (f : SnapCounts → SnapCounts) (s : State) : (countLife f s).trusses = s.trusses := rfl
@[simp] theorem countLife_pke (f : SnapCounts → SnapCounts) (s : State) : (countLife f s).pke = s.pke := rfl
@[simp] theorem countLife_sym (f : SnapCounts → SnapCounts) (s : State) : (countLife f s).sym = s.sym := rfl
@[simp] theorem countLife_svc (f : SnapCounts → SnapCounts) (s : State) : (countLife f s).svc = s.svc := rfl
@[simp] theorem countLife_pairs (f : SnapCounts → SnapCounts) (s : State) : (countLife f s).pairs = s.pairs := rfl
@[simp] theorem countLife_out (f : SnapCounts → SnapCounts) (s : State) : (countLife f s).out = s.out := rfl
@[simp] theorem countLife_free (f : SnapCounts → SnapCounts) (s : State) : (countLife f s).free = s.free := rfl
@[simp] theorem countLife_pending (f : SnapCounts → SnapCounts) (s : State) : (countLife f s).pending = s.pending := rfl

/-! ### Setting a cause -/

@[simp] theorem cause_img (b : Block) (i : Nat) (s : State) : (cause b i s).img = s.img := by cases b <;> rfl
@[simp] theorem cause_ks (b : Block) (i : Nat) (s : State) : (cause b i s).ks = s.ks := by cases b <;> rfl
@[simp] theorem cause_flash (b : Block) (i : Nat) (s : State) : (cause b i s).flash = s.flash := by cases b <;> rfl
@[simp] theorem cause_ret (b : Block) (i : Nat) (s : State) : (cause b i s).ret = s.ret := by cases b <;> rfl
@[simp] theorem cause_elec (b : Block) (i : Nat) (s : State) : (cause b i s).elec = s.elec := by cases b <;> rfl
@[simp] theorem cause_cores (b : Block) (i : Nat) (s : State) : (cause b i s).cores = s.cores := by cases b <;> rfl
@[simp] theorem cause_trusses (b : Block) (i : Nat) (s : State) : (cause b i s).trusses = s.trusses := by cases b <;> rfl
@[simp] theorem cause_svc (b : Block) (i : Nat) (s : State) : (cause b i s).svc = s.svc := by cases b <;> rfl
@[simp] theorem cause_pairs (b : Block) (i : Nat) (s : State) : (cause b i s).pairs = s.pairs := by cases b <;> rfl
@[simp] theorem cause_out (b : Block) (i : Nat) (s : State) : (cause b i s).out = s.out := by cases b <;> rfl
@[simp] theorem cause_free (b : Block) (i : Nat) (s : State) : (cause b i s).free = s.free := by cases b <;> rfl
@[simp] theorem cause_pending (b : Block) (i : Nat) (s : State) : (cause b i s).pending = s.pending := by cases b <;> rfl

/-! ### Core.setReg -/

@[simp] theorem Core.setReg_a (c : Core) (r : Nat) (v : Word) : (c.setReg r v).a = c.a := rfl
@[simp] theorem Core.setReg_pc (c : Core) (r : Nat) (v : Word) : (c.setReg r v).pc = c.pc := rfl
@[simp] theorem Core.setReg_st (c : Core) (r : Nat) (v : Word) : (c.setReg r v).st = c.st := rfl
@[simp] theorem Core.setReg_xpc (c : Core) (r : Nat) (v : Word) : (c.setReg r v).xpc = c.xpc := rfl
@[simp] theorem Core.setReg_xst (c : Core) (r : Nat) (v : Word) : (c.setReg r v).xst = c.xst := rfl
@[simp] theorem Core.setReg_vbase (c : Core) (r : Nat) (v : Word) : (c.setReg r v).vbase = c.vbase := rfl
@[simp] theorem Core.setReg_gtbase (c : Core) (r : Nat) (v : Word) : (c.setReg r v).gtbase = c.gtbase := rfl
@[simp] theorem Core.setReg_gtlim (c : Core) (r : Nat) (v : Word) : (c.setReg r v).gtlim = c.gtlim := rfl
@[simp] theorem Core.setReg_slim (c : Core) (r : Nat) (v : Word) : (c.setReg r v).slim = c.slim := rfl
@[simp] theorem Core.setReg_fxctl (c : Core) (r : Nat) (v : Word) : (c.setReg r v).fxctl = c.fxctl := rfl
@[simp] theorem Core.setReg_idx (c : Core) (r : Nat) (v : Word) : (c.setReg r v).idx = c.idx := rfl
@[simp] theorem Core.setReg_cnt (c : Core) (r : Nat) (v : Word) : (c.setReg r v).cnt = c.cnt := rfl
@[simp] theorem Core.setReg_clock (c : Core) (r : Nat) (v : Word) : (c.setReg r v).clock = c.clock := rfl
@[simp] theorem Core.setReg_cycHi (c : Core) (r : Nat) (v : Word) : (c.setReg r v).cycHi = c.cycHi := rfl
@[simp] theorem Core.setReg_frames (c : Core) (r : Nat) (v : Word) : (c.setReg r v).frames = c.frames := rfl
@[simp] theorem Core.setReg_bits (c : Core) (r : Nat) (v : Word) : (c.setReg r v).bits = c.bits := rfl
@[simp] theorem Core.setReg_loc (c : Core) (r : Nat) (v : Word) : (c.setReg r v).loc = c.loc := rfl
@[simp] theorem Core.setReg_icache (c : Core) (r : Nat) (v : Word) : (c.setReg r v).icache = c.icache := rfl
@[simp] theorem Core.setReg_phase (c : Core) (r : Nat) (v : Word) : (c.setReg r v).phase = c.phase := rfl
@[simp] theorem Core.setReg_intWma (c : Core) (r : Nat) (v : Word) : (c.setReg r v).intWma = c.intWma := rfl
@[simp] theorem Core.setReg_intTick (c : Core) (r : Nat) (v : Word) : (c.setReg r v).intTick = c.intTick := rfl
@[simp] theorem Core.setReg_imprec (c : Core) (r : Nat) (v : Word) : (c.setReg r v).imprec = c.imprec := rfl
@[simp] theorem Core.setReg_forging (c : Core) (r : Nat) (v : Word) : (c.setReg r v).forging = c.forging := rfl
@[simp] theorem Core.setReg_parked (c : Core) (r : Nat) (v : Word) : (c.setReg r v).parked = c.parked := rfl
@[simp] theorem Core.setReg_late (c : Core) (r : Nat) (v : Word) : (c.setReg r v).late = c.late := rfl

/-! ### Core.setAcc -/

@[simp] theorem Core.setAcc_g (c : Core) (r : Nat) (v : BitVec 40) : (c.setAcc r v).g = c.g := rfl
@[simp] theorem Core.setAcc_pc (c : Core) (r : Nat) (v : BitVec 40) : (c.setAcc r v).pc = c.pc := rfl
@[simp] theorem Core.setAcc_st (c : Core) (r : Nat) (v : BitVec 40) : (c.setAcc r v).st = c.st := rfl
@[simp] theorem Core.setAcc_xpc (c : Core) (r : Nat) (v : BitVec 40) : (c.setAcc r v).xpc = c.xpc := rfl
@[simp] theorem Core.setAcc_xst (c : Core) (r : Nat) (v : BitVec 40) : (c.setAcc r v).xst = c.xst := rfl
@[simp] theorem Core.setAcc_vbase (c : Core) (r : Nat) (v : BitVec 40) : (c.setAcc r v).vbase = c.vbase := rfl
@[simp] theorem Core.setAcc_gtbase (c : Core) (r : Nat) (v : BitVec 40) : (c.setAcc r v).gtbase = c.gtbase := rfl
@[simp] theorem Core.setAcc_gtlim (c : Core) (r : Nat) (v : BitVec 40) : (c.setAcc r v).gtlim = c.gtlim := rfl
@[simp] theorem Core.setAcc_slim (c : Core) (r : Nat) (v : BitVec 40) : (c.setAcc r v).slim = c.slim := rfl
@[simp] theorem Core.setAcc_fxctl (c : Core) (r : Nat) (v : BitVec 40) : (c.setAcc r v).fxctl = c.fxctl := rfl
@[simp] theorem Core.setAcc_idx (c : Core) (r : Nat) (v : BitVec 40) : (c.setAcc r v).idx = c.idx := rfl
@[simp] theorem Core.setAcc_cnt (c : Core) (r : Nat) (v : BitVec 40) : (c.setAcc r v).cnt = c.cnt := rfl
@[simp] theorem Core.setAcc_clock (c : Core) (r : Nat) (v : BitVec 40) : (c.setAcc r v).clock = c.clock := rfl
@[simp] theorem Core.setAcc_cycHi (c : Core) (r : Nat) (v : BitVec 40) : (c.setAcc r v).cycHi = c.cycHi := rfl
@[simp] theorem Core.setAcc_frames (c : Core) (r : Nat) (v : BitVec 40) : (c.setAcc r v).frames = c.frames := rfl
@[simp] theorem Core.setAcc_bits (c : Core) (r : Nat) (v : BitVec 40) : (c.setAcc r v).bits = c.bits := rfl
@[simp] theorem Core.setAcc_loc (c : Core) (r : Nat) (v : BitVec 40) : (c.setAcc r v).loc = c.loc := rfl
@[simp] theorem Core.setAcc_icache (c : Core) (r : Nat) (v : BitVec 40) : (c.setAcc r v).icache = c.icache := rfl
@[simp] theorem Core.setAcc_phase (c : Core) (r : Nat) (v : BitVec 40) : (c.setAcc r v).phase = c.phase := rfl
@[simp] theorem Core.setAcc_intWma (c : Core) (r : Nat) (v : BitVec 40) : (c.setAcc r v).intWma = c.intWma := rfl
@[simp] theorem Core.setAcc_intTick (c : Core) (r : Nat) (v : BitVec 40) : (c.setAcc r v).intTick = c.intTick := rfl
@[simp] theorem Core.setAcc_imprec (c : Core) (r : Nat) (v : BitVec 40) : (c.setAcc r v).imprec = c.imprec := rfl
@[simp] theorem Core.setAcc_forging (c : Core) (r : Nat) (v : BitVec 40) : (c.setAcc r v).forging = c.forging := rfl
@[simp] theorem Core.setAcc_parked (c : Core) (r : Nat) (v : BitVec 40) : (c.setAcc r v).parked = c.parked := rfl
@[simp] theorem Core.setAcc_late (c : Core) (r : Nat) (v : BitVec 40) : (c.setAcc r v).late = c.late := rfl

/-! ### Core.step -/

@[simp] theorem Core.step_g (c : Core) (k : Nat) : (c.step k).g = c.g := rfl
@[simp] theorem Core.step_a (c : Core) (k : Nat) : (c.step k).a = c.a := rfl
@[simp] theorem Core.step_pc (c : Core) (k : Nat) : (c.step k).pc = c.pc + BitVec.ofNat 32 k := rfl
@[simp] theorem Core.step_st (c : Core) (k : Nat) : (c.step k).st = c.st := rfl
@[simp] theorem Core.step_xpc (c : Core) (k : Nat) : (c.step k).xpc = c.xpc := rfl
@[simp] theorem Core.step_xst (c : Core) (k : Nat) : (c.step k).xst = c.xst := rfl
@[simp] theorem Core.step_vbase (c : Core) (k : Nat) : (c.step k).vbase = c.vbase := rfl
@[simp] theorem Core.step_gtbase (c : Core) (k : Nat) : (c.step k).gtbase = c.gtbase := rfl
@[simp] theorem Core.step_gtlim (c : Core) (k : Nat) : (c.step k).gtlim = c.gtlim := rfl
@[simp] theorem Core.step_slim (c : Core) (k : Nat) : (c.step k).slim = c.slim := rfl
@[simp] theorem Core.step_fxctl (c : Core) (k : Nat) : (c.step k).fxctl = c.fxctl := rfl
@[simp] theorem Core.step_idx (c : Core) (k : Nat) : (c.step k).idx = c.idx := rfl
@[simp] theorem Core.step_cnt (c : Core) (k : Nat) : (c.step k).cnt = c.cnt := rfl
@[simp] theorem Core.step_clock (c : Core) (k : Nat) : (c.step k).clock = c.clock := rfl
@[simp] theorem Core.step_cycHi (c : Core) (k : Nat) : (c.step k).cycHi = c.cycHi := rfl
@[simp] theorem Core.step_frames (c : Core) (k : Nat) : (c.step k).frames = c.frames := rfl
@[simp] theorem Core.step_bits (c : Core) (k : Nat) : (c.step k).bits = c.bits := rfl
@[simp] theorem Core.step_loc (c : Core) (k : Nat) : (c.step k).loc = c.loc := rfl
@[simp] theorem Core.step_icache (c : Core) (k : Nat) : (c.step k).icache = c.icache := rfl
@[simp] theorem Core.step_phase (c : Core) (k : Nat) : (c.step k).phase = c.phase := rfl
@[simp] theorem Core.step_intWma (c : Core) (k : Nat) : (c.step k).intWma = c.intWma := rfl
@[simp] theorem Core.step_intTick (c : Core) (k : Nat) : (c.step k).intTick = c.intTick := rfl
@[simp] theorem Core.step_imprec (c : Core) (k : Nat) : (c.step k).imprec = c.imprec := rfl
@[simp] theorem Core.step_forging (c : Core) (k : Nat) : (c.step k).forging = c.forging := rfl
@[simp] theorem Core.step_parked (c : Core) (k : Nat) : (c.step k).parked = c.parked := rfl
@[simp] theorem Core.step_late (c : Core) (k : Nat) : (c.step k).late = c.late := rfl
/-! ### What the written field holds -/

/-- An output joins the record at its head. -/
@[simp] theorem emit_out (o : Output) (s : State) : (emit o s).out = o :: s.out := rfl

/-- A detection joins the arbitration step, its DETAIL padded to 16 bytes. -/
@[simp] theorem raise_detected (code : Nat) (d : List Byte) (s : State) :
    (raise code d s).eav.detected = s.eav.detected ++ [(code, padTo 16 d)] := rfl

/-- Free bytes move the model's counter on. -/
@[simp] theorem drawBytes_free (n : Nat) (s : State) : (drawBytes n s).2.free = s.free + n := rfl

/-- A truss after a change of one truss. -/
@[simp] theorem truss_updTruss (s : State) (t u : Nat) (f : Truss → Truss) :
    (s.updTruss t f).truss u = if u = t then f (s.truss t) else s.truss u := by
  simp [State.updTruss, State.truss, SMap.get_set]

/-- A fuse that is blown stays blown: blowing one adds its bit and takes none away. -/
theorem fuseBits_blowFuse (i : Nat) (s : State) :
    fuseBits (blowFuse i s) = fuseBits s ||| BitVec.ofNat 1024 (2 ^ i) := by
  simp only [fuseBits, blowFuse]
  ext j
  simp only [BitVec.getElem_or]
  cases s.eav.fuses.halfA[j] <;> cases s.eav.fuses.halfB[j] <;> simp

/-- Setting cause `i` of a block ors its bit into the block's ICAUSE register. -/
@[simp] theorem causeOf_cause (b : Block) (i : Nat) (s : State) : causeOf b (cause b i s) = setBit (causeOf b s) i := by
  cases b <;> rfl

/-- A shadowed pair after setting one pair. -/
@[simp] theorem get_setPair (x y : Nat) (p : Pair) (s : State) :
    SMap.get {} (setPair x p s).pairs y = if y = x then p else SMap.get {} s.pairs y := by
  simp [setPair, SMap.get_set]

/-! ### Reading back -/

@[simp] theorem btnPort_setBtnPort (s : State) (n m : Nat) (x : Port) : btnPort (setBtnPort n x s) m = if m = n then x else btnPort s m := by
  simp [btnPort, setBtnPort, SMap.get_set]

@[simp] theorem slotOf_setSlot (s : State) (n m : Nat) (x : Slot) : slotOf (setSlot n x s) m = if m = n then x else slotOf s m := by
  simp [slotOf, setSlot, SMap.get_set]

@[simp] theorem wmaOf_setWma (s : State) (n m : Nat) (x : Wma) : wmaOf (setWma n x s) m = if m = n then x else wmaOf s m := by
  simp [wmaOf, setWma, SMap.get_set]

@[simp] theorem galOf_setGal (s : State) (n m : Nat) (x : Galliard) : galOf (setGal n x s) m = if m = n then x else galOf s m := by
  simp [galOf, setGal, SMap.get_set]

@[simp] theorem portOf_setPort (s : State) (n m : Nat) (x : SymPort) : portOf (setPort n x s) m = if m = n then x else portOf s m := by
  simp [portOf, setPort, SMap.get_set]

@[simp] theorem chainOf_setChain (s : State) (n m : Nat) (x : ChainReg) : chainOf (setChain n x s) m = if m = n then x else chainOf s m := by
  simp [chainOf, setChain, SMap.get_set]

@[simp] theorem drbgOf_setDrbg (s : State) (n m : Nat) (x : Drbg) : drbgOf (setDrbg n x s) m = if m = n then x else drbgOf s m := by
  simp [drbgOf, setDrbg, SMap.get_set]

/-- A word's place in the array after putting one word: places are shared only by words of one place. -/
theorem flashCell_putCell (s : State) (n m : Nat) (x : Option FlashCell) :
    flashCell (putCell n x s) m = if cellAt s m = cellAt s n then x else flashCell s m := by
  have h : cellAt (putCell n x s) m = cellAt s m := rfl
  rw [flashCell, h]
  simp [flashCell, putCell, SMap.get_set]

@[simp] theorem ringOf_setRing (s : State) (n m : Nat) (x : RingCtx) : ringOf (setRing n x s) m = if m = n then x else ringOf s m := by
  simp [ringOf, setRing, SMap.get_set]

@[simp] theorem queueOf_setQueue (s : State) (n m : Nat) (x : List Packet) : queueOf (setQueue n x s) m = if m = n then x else queueOf s m := by
  simp [queueOf, setQueue, SMap.get_set]

@[simp] theorem prodOf_setProd (s : State) (n m : Nat) (x : ProdCtx) : prodOf (setProd n x s) m = if m = n then x else prodOf s m := by
  simp [prodOf, setProd, SMap.get_set]

@[simp] theorem consOf_setCons (s : State) (n m : Nat) (x : ConsCtx) : consOf (setCons n x s) m = if m = n then x else consOf s m := by
  simp [consOf, setCons, SMap.get_set]

@[simp] theorem pipeOf_setPipe (s : State) (n m : Nat) (x : Pipe) : pipeOf (setPipe n x s) m = if m = n then x else pipeOf s m := by
  simp [pipeOf, setPipe, SMap.get_set]

@[simp] theorem shaOf_setSha (s : State) (n m : Nat) (x : ShaCtx) : shaOf (setSha n x s) m = if m = n then x else shaOf s m := by
  simp [shaOf, setSha, SMap.get_set]

@[simp] theorem fnOf_updFn (s : State) (n m : Nat) (f : FnState → FnState) :
    fnOf (updFn n f s) m = if m = n then f (fnOf s n) else fnOf s m := by
  simp [fnOf, updFn, SMap.get_set]

end Sys2Proof.Machine
end

