-- ==== Sys2Proof/Laws/Ops.lean ====
section
/-! SUPPORT. What the operations that every block shares can do: ordered checks, bit-field writes, free bytes, fuses, and
taking an exception. -/

namespace Sys2Proof.Machine

/-! ### Ordered checks -/

/-- Where every check passes the list answers OK. -/
theorem firstFail_all (cs : List (Bool × Nat)) (h : ∀ p ∈ cs, p.1 = true) : firstFail cs = stOk := by
  induction cs with
  | nil => rfl
  | cons p cs ih =>
    obtain ⟨ok, st⟩ := p
    have := h (ok, st) (by simp)
    simp only at this
    simp [firstFail, this, ih fun q hq => h q (by simp [hq])]

/-- The first check that fails gives the status, whatever follows it. -/
theorem firstFail_first (pre post : List (Bool × Nat)) (st : Nat) (h : ∀ p ∈ pre, p.1 = true) :
    firstFail (pre ++ (false, st) :: post) = st := by
  induction pre with
  | nil => rfl
  | cons p pre ih =>
    obtain ⟨ok, x⟩ := p
    have := h (ok, x) (by simp)
    simp only at this
    simp [firstFail, this, ih fun q hq => h q (by simp [hq])]

/-- A numbered list of checks that all pass finds no failure. -/
theorem firstFailAt_all (k : Nat) (cs : List (Bool × Nat)) (h : ∀ p ∈ cs, p.1 = true) : firstFailAt k cs = none := by
  induction cs generalizing k with
  | nil => rfl
  | cons p cs ih =>
    obtain ⟨ok, st⟩ := p
    have := h (ok, st) (by simp)
    simp only at this
    simp [firstFailAt, this, ih (k + 1) fun q hq => h q (by simp [hq])]

/-- The first check that fails is found with its number. -/
theorem firstFailAt_first (k : Nat) (pre post : List (Bool × Nat)) (st : Nat) (h : ∀ p ∈ pre, p.1 = true) :
    firstFailAt k (pre ++ (false, st) :: post) = some (k + pre.length, st) := by
  induction pre generalizing k with
  | nil => simp [firstFailAt]
  | cons p pre ih =>
    obtain ⟨ok, x⟩ := p
    have := h (ok, x) (by simp)
    simp only at this
    simp only [List.cons_append, firstFailAt, this, if_true, List.length_cons]
    rw [ih (k + 1) fun q hq => h q (by simp [hq])]
    congr 2
    omega

/-! ### Bit writes -/

/-- A W1C write clears the bits that it names and no others. -/
theorem w1c_bit (w v : Word) (i : Nat) : (w1c w v).getLsbD i = (w.getLsbD i && !v.getLsbD i) := by
  simp only [w1c, BitVec.getLsbD_and, BitVec.getLsbD_not]
  by_cases h : i < 32
  · simp [h]
  · simp [BitVec.getLsbD_of_ge w i (by omega)]

/-! ### Free bytes -/

/-- As many free bytes come as were asked for. -/
@[simp] theorem drawBytes_length (n : Nat) (s : State) : (drawBytes n s).1.length = n := by simp [drawBytes]

/-! ### Exceptions -/

/-- An exception of a pair that does not compare alike is LOCKSTEP, with no entry. -/
theorem takeException_differs (n k : Nat) (xpc : Word) (s v : State) (hp : pairDiffers n s = (true, v)) :
    takeException n k xpc s = pairMismatch n v := by
  simp [takeException, takeEntry, hp]

/-- With room on the shadow stack and a usable vector entry, an exception enters the core through that entry. -/
theorem takeException_usable (n k : Nat) (xpc : Word) (s v u : State) (e : EntryPoint) (hp : pairDiffers n s = (false, v))
    (hd : (v.core n).frames.length + 1 < frameMax) (hw : vectorWaits n k v = false) (hv : vectorEntry n k v = (some e, u)) :
    takeException n k xpc s = enter n e xpc false u := by
  have h1 : ¬ frameMax ≤ (v.core n).frames.length := by omega
  have h2 : ¬ (v.core n).frames.length + 1 = frameMax := by omega
  simp [takeException, takeEntry, hp, h1, h2, hw, hv]

/-- While the vector entry cannot be read, an exception waits. -/
theorem takeException_waits (n k : Nat) (xpc : Word) (s v : State) (hp : pairDiffers n s = (false, v))
    (hd : (v.core n).frames.length + 1 < frameMax) (hw : vectorWaits n k v = true) :
    takeException n k xpc s = park n k xpc v := by
  have h1 : ¬ frameMax ≤ (v.core n).frames.length := by omega
  have h2 : ¬ (v.core n).frames.length + 1 = frameMax := by omega
  simp [takeException, takeEntry, hp, h1, h2, hw]

/-- Without a usable vector entry, an exception is a privilege forgery of kind 2. -/
theorem takeException_unusable (n k : Nat) (xpc : Word) (s v u : State) (hp : pairDiffers n s = (false, v))
    (hd : (v.core n).frames.length + 1 < frameMax) (hw : vectorWaits n k v = false) (hv : vectorEntry n k v = (none, u)) :
    takeException n k xpc s = privForge n 2 xpc u := by
  have h1 : ¬ frameMax ≤ (v.core n).frames.length := by omega
  have h2 : ¬ (v.core n).frames.length + 1 = frameMax := by omega
  simp [takeException, takeEntry, hp, h1, h2, hw, hv]

/-- With a full shadow stack, an exception is a privilege forgery of kind 3. -/
theorem takeException_full (n k : Nat) (xpc : Word) (s v : State) (hp : pairDiffers n s = (false, v))
    (hd : frameMax ≤ (v.core n).frames.length) : takeException n k xpc s = privForge n 3 xpc v := by
  simp [takeException, takeEntry, hp, hd]

/-- Entering through an entry leaves the accumulators, the private memory and bits, the clock and the table bases. -/
theorem enterCore_kept (e : EntryPoint) (xpc : Word) (keep : Bool) (c : Core) :
    (enterCore e xpc keep c).a = c.a ∧ (enterCore e xpc keep c).loc = c.loc ∧ (enterCore e xpc keep c).bits = c.bits
      ∧ (enterCore e xpc keep c).icache = c.icache ∧ (enterCore e xpc keep c).clock = c.clock
      ∧ (enterCore e xpc keep c).vbase = c.vbase ∧ (enterCore e xpc keep c).gtbase = c.gtbase := by
  simp only [enterCore]
  split <;> exact ⟨rfl, rfl, rfl, rfl, rfl, rfl, rfl⟩

/-- Entering through an entry goes to its handler, saves the pc and the status, and pushes one frame. -/
theorem enterCore_saves (e : EntryPoint) (xpc : Word) (keep : Bool) (c : Core) :
    (enterCore e xpc keep c).pc = e.handler ∧ (enterCore e xpc keep c).xpc = xpc &&& ~~~(3 : Word)
      ∧ (enterCore e xpc keep c).xst = c.st ∧ (enterCore e xpc keep c).frames.length = c.frames.length + 1 := by
  simp only [enterCore]
  split <;> exact ⟨rfl, rfl, rfl, rfl⟩

end Sys2Proof.Machine
end

