-- ==== Sys2Proof/Laws/Pairs.lean ====
section
/-! SUPPORT. The laws of shadowed pairs (R12): what writing both halves does. -/

namespace Sys2Proof.Machine

/-- A gate's decision does not look at the pairs. -/
theorem mgmtGate_pairs (who : Who) (off k : Nat) (s : State) (ps : SMap Pair) (h : mgmtGate who off k s = (true, s)) :
    mgmtGate who off k { s with pairs := ps } = (true, { s with pairs := ps }) := by
  unfold mgmtGate gate at h ⊢
  have e : gateDecide { s with pairs := ps } (whoTag { s with pairs := ps } who) (0x50 + off / 0x100000) (off % 0x100000) 4 k
      = gateDecide s (whoTag s who) (0x50 + off / 0x100000) (off % 0x100000) 4 k := by
    cases who <;> rfl
  rw [e]
  split at h
  · rfl
  · simp at h

/-- A block answers or not whatever the pairs hold. -/
@[simp] theorem blockAnswers_pairs (s : State) (off : Nat) (ps : SMap Pair) :
    blockAnswers { s with pairs := ps } off = blockAnswers s off := rfl

/-- The offset of a complement is no value offset, and names its pair. -/
theorem pairOf_succ (x : Nat) (h : pairOffs.contains x = true) : pairOf (x + 4) = some x ∧ pairOf x = some x ∧ x < 0xBFFFF0 := by
  have : x ∈ pairOffs := by simpa using h
  simp only [pairOffs, galCtl, List.mem_cons, List.not_mem_nil, or_false] at this
  rcases this with rfl | rfl | rfl | rfl | rfl | rfl | rfl | rfl | rfl | rfl | rfl | rfl | rfl | rfl | rfl | rfl | rfl <;>
    decide

/-- Both halves of a pair written by one initiator that the pair takes: the value takes effect once, with nothing pending
any more and the pair working (R12). -/
theorem spWriteWith_effect (who : Who) (x : Nat) (v : Word) (arr : LineRead) (out : FlashOutcome) (s : State)
    (hx : pairOffs.contains x = true) (h : PairTakes who x s) :
    ∃ ps, spWriteWith who x v arr out s = pairEffect x v arr out { s with pairs := ps }
      ∧ SMap.get {} ps x = { pend := none, work := true, bad := false } := by
  obtain ⟨-, hb, hb', hp, hv, hg, hg', hn, hw⟩ := h
  obtain ⟨h4, h0, hlt⟩ := pairOf_succ x hx
  have hwr : (mayWritePair who x = false) ↔ False := by simp [hw]
  have hpr : (s.sys.power = .prep ∧ some x ≠ some 0x44) ↔ False := by
    constructor
    · rintro ⟨a, b⟩; exact b (by rw [hp a])
    · exact False.elim
  have hpr0 : (s.sys.power = .prep ∧ pairOf x ≠ some 0x44) ↔ False := by rw [h0]; exact hpr
  have hpr4 : (s.sys.power = .prep ∧ pairOf (x + 4) ≠ some 0x44) ↔ False := by rw [h4]; exact hpr
  have e1 : mgmtWrite32 who x v arr out s = (true, setPair x { (SMap.get {} s.pairs x) with pend := some (v, who) } s) := by
    unfold mgmtWrite32
    rw [if_neg (by simp [hv]; omega), hg]
    simp only [writeReg, hb, h0, hpr, hwr, pairWriteX, hn]
    simp
  let s1 := setPair x { (SMap.get {} s.pairs x) with pend := some (v, who) } s
  have e2 : (mgmtWrite32 who (x + 4) (~~~v) arr out s1).2
      = pairEffect x v arr out (setPair x { pend := none, work := true, bad := false } s1) := by
    unfold mgmtWrite32
    have hg2 : mgmtGate who (x + 4) kWrite s1 = (true, s1) := mgmtGate_pairs who (x + 4) kWrite s _ hg'
    have hb2 : blockAnswers s1 (x + 4) = true := hb'
    have hpr2 : (s1.sys.power = .prep ∧ some x ≠ some 0x44) ↔ False := hpr
    have hs1 : SMap.get {} s1.pairs x = { (SMap.get {} s.pairs x) with pend := some (v, who) } := by
      simp [s1, setPair]
    rw [if_neg (by simp [hv]; omega), hg2]
    have hne : x + 4 ≠ x := by omega
    simp only [writeReg, hb2, h4, hpr2, hwr, hne, pairWriteC, hs1]
    simp
  refine ⟨SMap.set {} s1.pairs x { pend := none, work := true, bad := false }, ?_, by simp⟩
  unfold spWriteWith
  rw [e1, e2]
  rfl

/-- The same for commands that take nothing from the array. -/
theorem spCommand_effect (who : Who) (x : Nat) (v : Word) (s : State) (hx : pairOffs.contains x = true)
    (h : PairTakes who x s) :
    ∃ ps, spCommand who x v s = .next (pairEffect x v cleanLine cleanOut { s with pairs := ps })
      ∧ SMap.get {} ps x = { pend := none, work := true, bad := false } := by
  obtain ⟨ps, e, hps⟩ := spWriteWith_effect who x v cleanLine cleanOut s hx h
  exact ⟨ps, by simp [spCommand, h.1, spWrite, e], hps⟩

end Sys2Proof.Machine
end

