-- ==== Sys2Proof/Tests/Slice0.lean ====
section
/-! SUPPORT. Tests on small states: what the spec's own examples say, terms that WellFormed refuses, and a state and
operands that meet the hypotheses of each statement. -/

namespace Sys2Proof.Tests

open Sys2Proof Sys2Proof.Machine

set_option Elab.async false

/-- A module in Active with the warden running and nothing else set up. -/
def up : State := { sys := { power := .active }, cores := [(128, { phase := .running })] }

/-! ### The management space -/

/-- The GTE_IMG_CTL pair holds a pending 5 of the physical function. -/
def pairPending : State := { up with pairs := [(0x20F000, { pend := some (5, .pf) })] }

/-- R12's example: 0x5 and then 0xFFFF_FFFA; 0xFFFF_FFFB is no complement. -/
theorem test_shadow_example : (~~~(5 : Word) = 0xFFFFFFFA) ∧ (0xFFFFFFFB : Word) ≠ ~~~5 := by decide

theorem witness_ManagementRegisters :
    RegTakes .pf 0x300010 kWrite up ∧ RegTakes .spi 0xB00014 kWrite up ∧ RegTakes .warden 0x100038 kRead up
      ∧ RegTakes .pf 0x5B0 kRead up ∧ (pfWindow 0x11 = none ∧ ¬((4 : Nat) = 4 ∧ 0x11 % 4 = 0) ∧ answers up = true)
      ∧ (mgmtGate .spi 0x501004 kRead up).1 = false := by decide +kernel

theorem witness_ShadowedPairWrites :
    (pairOffs.contains 0x44 = true ∧ PairTakes .pf 0x44 up ∧ up.eav.shadowAt = none)
      ∧ pairOffs.contains 0x20F000 = true ∧ PairTakes .pf 0x20F000 { pairPending with pairs := [] }
      ∧ (SMap.get {} pairPending.pairs 0x20F000).pend = some (5, .pf) ∧ pairPending.eav.shadowAt = none
      ∧ PairTakes .spi 0x20F000 { pairPending with pairs := [] } ∧ Who.pf ≠ Who.spi := by decide +kernel

/-! ### The Aqley image -/

/-- The image registers with LEN 336 and a STATE. -/
def imgAt (p : ImgPhase) (b : Bool) : State := { up with img := { len := 336, phase := p, busy := b } }

theorem witness_ImageCommands :
    (PairTakes .pf 0x20F000 (imgAt .idle false) ∧ (imgAt .idle false).img.src.toNat % 8 = 0
      ∧ 336 ≤ (imgAt .idle false).img.len.toNat ∧ (imgAt .idle false).img.len.toNat % 8 = 0
      ∧ (imgAt .idle false).slt.cer = none ∧ (imgAt .idle false).img.busy = false ∧ wardenUp (imgAt .idle false) = true
      ∧ TagsFree 0 336 (imgAt .idle false))
    ∧ PairTakes .spi 0x20F000 (imgAt .approved false) ∧ PairTakes .pf 0x20F000 (imgAt .staged false) := by decide +kernel

theorem witness_ImageCommands_refused :
    PairTakes .pf 0x20F000 (imgAt .staged false) ∧ (imgAt .staged false).img.phase ≠ .approved
      ∧ PairTakes .pf 0x20F000 (imgAt .staging true) ∧ (imgAt .staging true).img.busy = true := by decide +kernel

theorem witness_ImageCommands_stopped :
    PairTakes .pf 0x20F000 { sys := { power := .active } } ∧ wardenUp { sys := { power := .active } } = false := by
  decide +kernel

/-- A STAGE whose 336 bytes have come. -/
def imgFetched : State :=
  { up with
    img := { len := 336, phase := .staging, busy := true, fetched := some (.ok (List.replicate 336 0)) }
    msu := { rootOk := true, inited := true } }

theorem witness_StageFetchDoneChecks :
    wardenUp imgFetched = true ∧ imgFetched.msu.inited = true ∧ SealedGood imgFetched
      ∧ (gate stageTag tgtSealed0 (stageBuf - 0x80000000) 336 kWrite imgFetched).1 = true ∧ imgFetched.img.busy = true ∧ imgFetched.img.phase = .staging
      ∧ imgFetched.img.fetched = some (.ok (List.replicate 336 0))
      ∧ (List.replicate 336 (0 : Byte)).length = imgFetched.img.len.toNat
      ∧ stageChecks imgFetched 336 (List.replicate 336 0) = some (2, 0xFFFF, 10) := by decide +kernel

/-- A COMMIT of an element of a kind with `n` slots written. -/
def imgCommitting (kind n : Nat) : State :=
  { up with img := {
      phase := .committing
      busy := true
      slotsDone := n
      staged := some ⟨0, 1, kind, 1, 1, [], 0, 0, 0, 128, 0, true, [], []⟩ } }

theorem witness_CommitSlotsThenLatches :
    (wardenUp (imgCommitting 1 0) = true ∧ (imgCommitting 1 0).img.staged.isSome = true
      ∧ (imgCommitting 1 0).img.slotsDone = 0)
    ∧ (wardenUp (imgCommitting 1 1) = true ∧ (imgCommitting 1 1).img.slotsDone = 1
      ∧ (imgCommitting 1 1).img.staged.map isPartial = some false)
    ∧ wardenUp (imgCommitting 2 1) = true ∧ (imgCommitting 2 1).img.staged.map isPartial = some true
    ∧ (imgCommitting 2 1).sys.power ≠ .idle := by decide +kernel

theorem witness_ImageLoadLatches :
    wardenUp up = true ∧ up.img.locked = false ∧ selectRecord up = .none := by decide +kernel

/-! ### The host queue interface -/

/-- Gable 1 formed on truss 0 with one ring and one window; its ring, context 64, as given. -/
def host (r : RingCtx) : State :=
  { up with
    img := {
      locked := true
      trusses := [(1, 1)]
      latched := {
        gables := [(1, { ringCount := 1, trussMask := 1, cellQuota := 64, queueBase := 32, queueCount := 1 })]
        rings := [(1, [⟨0, 4, 2, 1, 32, 4⟩])]
        windows := [(1, [⟨0, 0x10000, 3⟩])] } }
    hqi := { vfEnable := true, rings := [(64, r)] } }

/-- An open ring of 16 entries. -/
def ring16 : RingCtx := { isOpen := true, sizeLog2 := 4 }

/-- A single command with FIRST and LAST set. -/
def oneEntry : List Byte := [0, 0, 3] ++ List.replicate 61 0

theorem witness_TailDoorbell :
    (WindowTakes 1 0 (host ring16) ∧ WindowAdmits 1 0 0 4 (host ring16) ∧ (host ring16).sys.power = .active
      ∧ (16 - (ringOf (host ring16) 64).head).toNat ≤ 2 ^ (ringOf (host ring16) 64).sizeLog2)
    ∧ ¬(17 - (ringOf (host ring16) 64).head).toNat ≤ 2 ^ (ringOf (host ring16) 64).sizeLog2
    ∧ (takesDoorbells (host {}) = true ∧ (ringOf (host {}) (ctxNum 63 63)).isOpen = false)
    ∧ WindowAdmits 0 5 0 4 up ∧ (gate (whoTag up .pf) 0x53 0x80000 4 kWrite
      { up with img := { latched := { gates := [⟨0, 0x53, 0, 1, 3, 15, 0, 0xFFFFF, true⟩] } } }).1 = false := by decide +kernel

theorem witness_InlineWrites :
    (WindowTakes 1 0 (host ring16) ∧ ringInline (host ring16) (ctxNum 1 0) = true
      ∧ (ringOf (host ring16) (ctxNum 1 0)).slots.length = 4 ∧ oneEntry.length = 64
      ∧ (ringOf (host ring16) (ctxNum 1 0)).slots.getD 3 .empty = .empty)
    ∧ (ringOf (host { ring16 with slots := [.bound 0 oneEntry, .empty, .empty, .empty] }) 64).slots.getD 0 .empty
      = .bound 0 oneEntry
    ∧ WindowAdmits 1 0 0 64 (host ring16) ∧ WindowAdmits 1 0 192 64 (host ring16)
    ∧ ringInline (host {}) (ctxNum 1 1) = false ∧ (ringOf (host {}) (ctxNum 1 0)).isOpen = false := by decide +kernel

/-- A 4-byte write at offset 0xFC of the window and one at 0x100 (R70, R85). -/
theorem test_window_end :
    (ringOf (discardEffect 1 0 0xFC 4 false (host ring16)) 64).winWidth = true
      ∧ discardEffect 1 0 0x100 4 false (host ring16) = host ring16 := by decide +kernel

/-- An OPEN of context 64 is due. -/
def opening (base : Nat) : State := { host {} with hqi := { (host {}).hqi with setupReq := some (64, base, 4) } }

theorem witness_OpenRing :
    PairTakes .pf 0x300110 (host {}) ∧ (host {}).hqi.setupReq = none ∧ PairTakes .spi 0x300110 (opening 0)
      ∧ (opening 0).hqi.setupReq.isSome = true ∧ openChecks (opening 0xF000) 64 0xF000 4 = 0 ∧ maxLog2 (opening 0) 64 = 4
      ∧ fnReady (opening 0) 1 = true ∧ openChecks (opening 0x10000) 64 0x10000 4 = 8 := by decide +kernel

/-- A ring with one entry known and held. -/
def granting1 : State := host { ring16 with tail := 1, known := 1, held := [(0, oneEntry)] }

/-- R87's and R88's cycle grants the held entry, which eligibility demands. -/
theorem witness_ReelCycles :
    powered granting1 = true ∧ granting1.img.locked = true ∧ granting1.hqi.cycle < 256 ∧ eligible granting1 64 = true
      ∧ (grantCycle granting1).hqi.cmds.length = 1
      ∧ ({ granting1 with hqi := { granting1.hqi with cycle := 256 } } : State).hqi.cycle = 256 := by decide +kernel

/-- The fetch of position 0 is outstanding; position 3 is held. -/
def fetching1 : State :=
  { host { ring16 with tail := 4, known := 4, fetching := [0], held := [(3, oneEntry)] } with
    hqi := { (host { ring16 with tail := 4, known := 4, fetching := [0], held := [(3, oneEntry)] }).hqi with
      reads := [.fetch ⟨1, 0, 0⟩, .cmd ⟨1, 0, 9⟩] } }

theorem witness_EntriesMove :
    (powered (host ring16) = true ∧ (ringOf (host ring16) (ctxNum 1 0)).isOpen = true)
    ∧ (fetching1.hqi.reads.contains (.fetch ⟨1, 0, 0⟩) = true ∧ (ringOf fetching1 64).fetching.contains 0 = true
      ∧ (ringOf fetching1 64).stopAt = none)
    ∧ (ringOf (host { ring16 with granted := [(0, oneEntry)] }) 64).granted = [(0, oneEntry)] := by decide +kernel

theorem witness_HostReadsReturn :
    answers fetching1 = true ∧ fetching1.hqi.reads.contains (.cmd ⟨1, 0, 9⟩) = true
      ∧ fetching1.hqi.toDisable = false := by decide +kernel

/-- A sink whose first packet is a host write of 4 bytes, or a completion of ring 0 of function 1. -/
def sink (typ : Nat) (ws : List Word) : State := { host ring16 with rfb := { sink0 := [{ typ := typ, words := ws, prod := 1 }] } }

theorem witness_SinkWrites :
    fnReady (sink 3 [0, 0, 0x100, 7, 4, 1]) 1 = true ∧ (ringOf (sink 3 [0, 0, 0x100, 7, 4, 1]) 64).isOpen = true
      ∧ inWindow (sink 3 [0, 0, 0x100, 7, 4, 1]) 1 0 4 1 = true ∧ inWindow (sink 3 []) 1 0xFFFD 4 1 = false
      ∧ fld (0x100 : Word) 8 6 = 1 ∧ (List.replicate 16 (0 : Word) ++ [0x100, 7]).length = 18
      ∧ (ringOf (sink 2 []) 64).chains = [] := by decide +kernel

theorem witness_ResetsAndEndpoint : answers (host ring16) = true ∧ fnEnabled (host ring16) 1 = true := by decide +kernel

/-- R89's and R92's example: the third entry of a chain whose second failed with VERIFY_FAILED. -/
theorem test_chain_example :
    slice (chainCompletion (host { ring16 with chains := [⟨10, 3, true, 12, false, some (1, 1), [(0, oneEntry)], 0⟩] }) 64
      ⟨10, 3, true, 12, false, some (1, 1), [(0, oneEntry)], 0⟩ 2) 0 16
      = [1, 0, 0, 0x80, 0, 0, 0, 0, 1, 0, 0, 0, 0, 0, 0, 0] := by decide +kernel

/-! ### Native transaction services -/

/-- An entry with FIRST and LAST, an opcode, SRC_LEN and PARAM. -/
def entryOf (op srcLen : Nat) (param : List Byte) : List Byte :=
  leBytes 2 op ++ [3, 0] ++ List.replicate 28 0 ++ leBytes 4 srcLen ++ List.replicate 4 0 ++ padTo 24 param

/-- Gable 1 on trusses 0 and 1 with a sealed window, and one command of it or of the physical function in its queue. -/
def working (c : Cmd) : State :=
  let h := host ring16
  { h with
    img := { h.img with
      trusses := [(1, 3)]
      latched := { h.img.latched with
        gables := [(1, {
          ringCount := 1
          trussMask := 3
          cellQuota := 64
          queueBase := 32
          queueCount := 1
          sealedLen := 0x200000
          flashSectors := 16 })] } }
    ks := { phase := .isOpen }
    hqi := { h.hqi with cmds := [{ c with committed := true }] } }

/-- A command of ring 0 of function 1 whose entry is committed. -/
def queued (op srcLen : Nat) (param : List Byte) : Cmd := { ref := ⟨1, 0, 0⟩, entry := entryOf op srcLen param }

/-- The command at its worker, with no source bytes. -/
def atWorker (op : Nat) : Cmd := { queued op 0 [] with truss := some 0, src := .got [], here := true }

/-- The command at its worker, core 0, with its keys loaded. -/
def atKeys (v : Service) : Cmd :=
  { atWorker v.opcode with
    committed := true
    core := some 0
    keys := (v.keys (atWorker v.opcode).entry).map fun _ => ⟨0, [], []⟩ }

/-- Each native command can stand at its work. -/
theorem witness_AtWork :
    (nativeRows.all fun p => decide (AtWork p.2 ⟨1, 0, 0⟩ (atKeys p.2) 0 [] (working (atKeys p.2)))) = true := by decide +kernel

theorem witness_AtWork_fields :
    eParam (atWorker 0x0101).entry 49 1 = 0 ∧ eParam (atWorker 0x0120).entry 41 1 = 0 ∧ eDstLen (atWorker 0x0145).entry = 0 := by
  decide +kernel

theorem witness_NativeChecksInOrder :
    (runnable (working { queued 0 0 [] with bad := true }) ⟨1, 0, 0⟩).isSome = true
    ∧ inTable (working (queued 0x7FFF 0 [])) 1 0x7FFF = false
    ∧ malformedFor svcNop (entryOf 0 0 [1]) = true
    ∧ (runnable (working (queued 0x0180 1 [3])) ⟨1, 0, 0⟩).isSome = true
    ∧ earlyChecks svcHash ⟨1, 0, 0⟩ (entryOf 0x0180 1 [3]) (working (queued 0x0180 1 [3])) = 4
    ∧ earlyChecks svcHash ⟨1, 0, 0⟩ (entryOf 0x0180 1 [0]) (working (queued 0x0180 1 [0])) = 0
    ∧ (liveTrusses (working (queued 0x0180 1 [0])) 1).isEmpty = false ∧ eSrcLen (entryOf 0x0180 1 [0]) = 1 := by
  decide +kernel

theorem witness_CompletionOfCommand :
    (findCmd (working (queued 0 0 [])) ⟨1, 0, 0⟩).isSome = true ∧ isServed ⟨1, 0, 0⟩ = false
      ∧ chainAt (ringOf (working (queued 0 0 [])) 64) 0 = none ∧ (entryOf 0 0 []).length = 64 := by decide +kernel

/-- A package of one opcode, 0x8000, with an image of 8 bytes. -/
def pkg1 : Package := ⟨1, List.replicate 8 0, [(0x8000, 0, 4, 100)]⟩

/-- A gable with the package installed, or with an install step waiting. -/
def tenant (c : Cmd) (waits : Bool) : State :=
  { working c with
    svc := {
      pkgs := [(1, some pkg1)]
      waiting := if waits then [(1, some ⟨1, 0, 0⟩)] else [] }
    img := { (working c).img with
      dispatch := [(1, 0)]
      latched := { (working c).img.latched with gates := [⟨1, 0, 1, 7, 2, 1, 0x20000, 0x3FFFF, true⟩] } } }

/-- A vector table at 0x800 whose entries at level 2 for causes 0 to 8 and 18 go to 0x40 at Supervisor level. -/
def vectors : Memory :=
  [0, 1, 2, 3, 4, 5, 6, 7, 8, 18].flatMap fun (k : Nat) =>
    [(0x820 + 64 * k, 0x40), (0x824 + 64 * k, 1), (0x827 + 64 * k, 0x80), (0x829 + 64 * k, 0x10), (0x82D + 64 * k, 1)]

/-- Core 1, a worker of gable 1 at level `pl`, whose vector table stands in its local data. -/
def onWorker (pl : Nat) (s : State) : State :=
  { s with
    cores := [(1, {
        phase := .running
        st := BitVec.ofNat 32 (256 * pl)
        vbase := 0x800
        loc := vectors }),
      (128, { phase := .running })] }

/-- The program of a tenant command runs on core 1. -/
def program : State := onWorker 2 (tenant { queued 0x8000 0 [] with worker := some 1 } false)

theorem witness_TenantCommands :
    (installWaits (tenant (queued 0x01F1 0 []) true) 1 = some ⟨1, 0, 0⟩ ∧ tenantRunning (tenant (queued 0x01F1 0 []) true) 1 = false
      ∧ trussClocks (tenant (queued 0x01F1 0 []) true) = true ∧ OnRing ⟨1, 0, 0⟩ (tenant (queued 0x01F1 0 []) true))
    ∧ ((runnable (tenant (queued 0x8000 0 []) false) ⟨1, 0, 0⟩).isSome = true
      ∧ isWorker (onWorker 1 (tenant (queued 0x8000 0 []) false)) 1 1 = true
      ∧ imageGranted (onWorker 1 (tenant (queued 0x8000 0 []) false)) 1 8 = true
      ∧ installWaits (tenant (queued 0x8000 0 []) false) 1 = none
      ∧ findCmd (tenant (queued 0x8000 0 []) false) (subRef ⟨1, 0, 0⟩ 1) = none
      ∧ (tenantOpcode (tenant (queued 0x8000 0 []) false) 1 0x8000).isSome = true)
    ∧ (nativeOpcodes.contains (eOpcode (entryOf 0x0180 1 [3])) = true ∧ nativeOpcodes.contains (eOpcode (entryOf 0x8000 1 [3])) = false)
    := by decide +kernel

theorem witness_program : ∃ c, ProgramRuns ⟨1, 0, 0⟩ c 1 program ∧ OnRing ⟨1, 0, 0⟩ program :=
  ⟨{ queued 0x8000 0 [] with
      committed := true
      worker := some 1 }, by decide +kernel⟩

theorem witness_program_vectors :
    vectorEntry 1 exGate program = (some ⟨0x40, 1, 0x1000, 0x100⟩, program)
      ∧ vectorEntry 1 exTick program = (some ⟨0x40, 1, 0x1000, 0x100⟩, program)
      ∧ ∀ e < 9, (vectorEntry 1 e (drawBelow 9 1 program).2 = (some ⟨0x40, 1, 0x1000, 0x100⟩, (drawBelow 9 1 program).2)) := by
  decide +kernel

/-- A package's bytes parse when every field obeys R152: opcode 0x8000 at ENTRY 4 with BUDGET 100. -/
theorem witness_package :
    (parsePackage (leBytes 4 0x4D475250 ++ leBytes 2 1 ++ leBytes 2 1 ++ leBytes 4 8 ++ leBytes 4 1 ++ List.replicate 16 0
      ++ leBytes 2 0x8000 ++ leBytes 2 0 ++ leBytes 4 4 ++ leBytes 4 100 ++ List.replicate 4 0 ++ List.replicate 104 0))
      = some pkg1 := by decide +kernel

/-- A command of ring 0 of the physical function. -/
def pfCmd (op : Nat) (param : List Byte) : Cmd := { ref := ⟨0, 0, 0⟩, entry := entryOf op 0 param }

theorem witness_PhysicalFunctionCommands :
    PfReady ⟨0, 0, 0⟩ { pfCmd 0 [] with committed := true } (working (pfCmd 0 []))
    ∧ PfReady ⟨0, 0, 0⟩ { pfCmd 0x0F00 [1] with committed := true } (working (pfCmd 0x0F00 [1]))
    ∧ pfMalformed (pfCmd 0x0F00 [1]).entry = false ∧ eGable (pfCmd 0x0F01 [1]).entry = 1
    ∧ pfMalformed (pfCmd 0 []).entry = false ∧ formed (working (pfCmd 0x0F00 [1])) 1 = true
    ∧ classKCmd (working (pfCmd 0 [])) 1 (entryOf 0x0130 0 []) = true
    ∧ wardenUp (working (pfCmd 0x0F02 [63])) = true := by decide +kernel

/-! ### Commands that complete -/

/-- An entry with KEY, SRC_LEN, DST_LEN and PARAM. -/
def entryK (op key srcLen dstLen : Nat) (param : List Byte) : List Byte :=
  leBytes 2 op ++ [3, 0] ++ List.replicate 4 0 ++ leBytes 8 key ++ List.replicate 8 0 ++ leBytes 8 0x10000 ++ leBytes 4 srcLen
    ++ leBytes 4 dstLen ++ padTo 24 param

/-- A command at its worker, core 0, with its keys loaded and its source bytes there. -/
def jobOf (e src : List Byte) (keys : List LoadedKey) : Cmd :=
  { ref := ⟨1, 0, 0⟩
    entry := e
    committed := true
    truss := some 0
    core := some 0
    src := .got src
    here := true
    keys := keys }

/-- An instantiated DRBG whose first block is zero. -/
def drbg0 : Drbg :=
  { inst := true
    v := beBytes 16 137445875953628484789357878537509745075 }

/-- Gable 1 at work on a command, with key slots 0 to 15, resident slots and counters 0 to 15, and an instantiated DRBG. -/
def keyed (c : Cmd) : State :=
  let w := working c
  let l := w.img.latched
  { w with
    msu := {
      rootOk := true
      inited := true }
    sym := {
      drbg := [(0, drbg0)]
      ctr := {
        v := [(3, 5)]
        b := [(3, 10)] } }
    img := { w.img with
      latched := { l with
        partition := { l.partition with ctrj := 256 }
        gables := l.gables.map (fun (g : Nat × GableCfg) => (g.1, { g.2 with
          keyCount := 16
          resCount := 16
          ctrCount := 16 })) } } }

abbrev r100 : CmdRef := ⟨1, 0, 0⟩

/-- A policy word. -/
def pol (usage alg bits : Nat) : Word := BitVec.ofNat 32 (bits + 256 * usage + alg)

/-- The handle of the first generation of a slot or a resident key. -/
def handle0 (resident : Bool) (i : Nat) : Nat := mkHandle resident 0 i

/-- The store of a key in target `h`, whose directory verifies. -/
def storing (h : Nat) (policy : Word) (secret pub : List Byte) (s : State) : Bool × State :=
  changeHere (hResident h) (storeRec s 1 (hResident h) (hIndex h) policy secret pub) s

theorem storable_of (h : Nat) (policy : Word) (secret pub : List Byte) (s : State)
    (d : readDir (hResident h) (hIndex h) (2 ^ spanLog2 (pAlg policy) secret.length) s = (true, s))
    (a : spanFree s 1 (hResident h) (hIndex h) (pAlg policy) secret.length = true ∧ changeGate (hResident h) s = some 0
      ∧ commitsHere s = true ∧ (storing h policy secret pub s).1 = true) :
    Storable r100 h policy secret pub s (storing h policy secret pub s).2 := by
  unfold Storable
  rw [d]
  exact ⟨rfl, a.1, a.2.1, a.2.2.1, Prod.ext a.2.2.2 rfl⟩

/-- What the DRBG holds after a request of 16 bytes, and after one of 32. -/
def drbg16 : Drbg :=
  { inst := true
    since := 1
    key := beBytes 32 101401710459211448278508427264304297393146408326659110654369774936166325908928
    v := beBytes 16 326065720982063565138218951239713629562
    last := beBytes 16 0 }

def nonce1 : Nat := 297992844521300806759940578815097661572

def drbg32 : Drbg :=
  { inst := true
    since := 1
    key := beBytes 32 79701089290850655898000126586929807761980310312387266057727881043959872169338
    v := beBytes 16 264422565878004418912552539588947119950
    last := beBytes 16 nonce1 }

theorem ctr16 : ctrGenerate 16 drbg0.key drbg0.v = ([beBytes 16 0], drbg16.key, drbg16.v) := by decide +kernel

theorem ctr32 : ctrGenerate 32 drbg0.key drbg0.v = ([beBytes 16 0, beBytes 16 nonce1], drbg32.key, drbg32.v) := by
  decide +kernel

theorem request_of (n : Nat) (d : Drbg) (g : List (List Byte) × List Byte × List Byte) (s : State) (h : drbgOf s 0 = d)
    (e : d.err = false) (f : d.since < 65536) (i : d.inst = true) (k : ctrGenerate n d.key d.v = g)
    (q : repeatsBlock (d.last :: g.1) = false) (l : n ≤ 64) :
    drbgDraw 0 n false s = (some (g.1.flatten.take n), setDrbg 0 { d with
      since := d.since + 1
      key := g.2.1
      v := g.2.2
      last := g.1.getLastD d.last } s) := by
  simp [drbgDraw, drbgRequest, h, e, i, Nat.not_le.mpr f, k, q, l]

theorem draw16 (s : State) (h : drbgOf s 0 = drbg0) : drbgDraw 0 16 false s = (some (beBytes 16 0), setDrbg 0 drbg16 s) :=
  request_of 16 drbg0 ([beBytes 16 0], drbg16.key, drbg16.v) s h rfl (by decide) rfl ctr16 (by decide +kernel) (by decide)

theorem draw32 (s : State) (h : drbgOf s 0 = drbg0) :
    drbgDraw 0 32 false s = (some (beBytes 16 0 ++ beBytes 16 nonce1), setDrbg 0 drbg32 s) :=
  request_of 32 drbg0 ([beBytes 16 0, beBytes 16 nonce1], drbg32.key, drbg32.v) s h rfl (by decide) rfl ctr32 (by decide +kernel)
    (by decide)

/-- KEY_GENERATE of an AES-128 key into slot 0, and the state after the draw. -/
def jobGenerate : Cmd :=
  jobOf (entryK 0x0142 0 0 0 (leBytes 8 (handle0 false 0) ++ leBytes 4 (pol 0x10 3 0x30000).toNat)) [] []
def generating : State := setDrbg 0 drbg16 (workState false r100 jobGenerate 0 (keyed jobGenerate))

theorem witness_KeyGenerate :
    (AtWork svcKeyGenerate r100 jobGenerate 0 [] (keyed jobGenerate) ∧ Permitted svcKeyGenerate false r100 jobGenerate 0 (keyed jobGenerate)
      ∧ secretFrom 3 (beBytes 16 0) = some (beBytes 16 0))
    ∧ drbgDraw 0 16 false (workState false r100 jobGenerate 0 (keyed jobGenerate)) = (some (beBytes 16 0), generating) :=
  ⟨by decide +kernel, draw16 _ (by decide +kernel)⟩

theorem witness_KeyGenerate_stores :
    Storable r100 (handle0 false 0) (pol 0x10 3 0x30000) (beBytes 16 0) [] generating
      (storing (handle0 false 0) (pol 0x10 3 0x30000) (beBytes 16 0) [] generating).2 :=
  storable_of _ _ _ _ _ (by decide +kernel) (by decide +kernel)

theorem witness_KeyGenerate_left :
    2 ≤ cellsFree (storing (handle0 false 0) (pol 0x10 3 0x30000) (beBytes 16 0) [] generating).2 1 := by decide +kernel

/-- A key-block protection key and an AES-128 key in a block under it. -/
def kbpk1 : LoadedKey := ⟨pol 0xB 3 0xC0000, List.replicate 16 9, []⟩
def wrapped1 : LoadedKey := ⟨pol 0x10 3 0x230000, List.replicate 16 7, []⟩
def block1 : List Byte := makeBlock kbpk1.secret wrapped1 66 (List.replicate 16 0)

/-- KEY_IMPORT of the block into slot 0. -/
def jobImport : Cmd := jobOf (entryK 0x0140 0 112 0 (leBytes 8 (handle0 false 0))) block1 [kbpk1]
def importing : State := workState false r100 jobImport 0 (keyed jobImport)

theorem witness_KeyImport :
    AtWork svcKeyImport r100 jobImport 0 block1 (keyed jobImport) ∧ Permitted svcKeyImport false r100 jobImport 0 (keyed jobImport)
      ∧ secretOk 3 (List.replicate 16 7) = true ∧ policyAllowed (pol 0x10 3 0x30000) = true := by decide +kernel

theorem witness_KeyImport_block :
    ofDecimal (slice block1 1 4) = some 112
      ∧ (match parseBlock block1 with
        | some b => decide (openKeyBlock kbpk1.secret b = some (beBytes 2 128 ++ List.replicate 16 7 ++ List.replicate 14 0))
          && b.alg != 69 && decide (blockAlg b.alg 0 16 = some 3) && decide (modeBits b.mode b.usage 3 = some [16, 17]) && b.expo == 78
          && b.opts.isEmpty && b.usage == 0x10
        | none => false) = true := by decide +kernel

theorem witness_KeyImport_stores :
    Storable r100 (handle0 false 0) (pol 0x10 3 0x30000) (List.replicate 16 7) [] importing
      (storing (handle0 false 0) (pol 0x10 3 0x30000) (List.replicate 16 7) [] importing).2 :=
  storable_of _ _ _ _ _ (by decide +kernel) (by decide +kernel)

/-- KEY_EXPORT of that key. -/
def jobExport : Cmd := jobOf (entryK 0x0141 0 0 256 []) [] [kbpk1, wrapped1]

theorem witness_KeyExport :
    (AtWork svcKeyExport r100 jobExport 0 [] (keyed jobExport) ∧ Permitted svcKeyExport false r100 jobExport 0 (keyed jobExport)
      ∧ 48 + 2 * payloadLen wrapped1.secret.length ≤ eDstLen jobExport.entry ∧ (modeLetter wrapped1.policy).isSome = true)
    ∧ drbgDraw 0 16 false (workState false r100 jobExport 0 (keyed jobExport))
      = (some (beBytes 16 0), setDrbg 0 drbg16 (workState false r100 jobExport 0 (keyed jobExport)))
    ∧ hostWriteCells 112 + 2 ≤ cellsFree (setDrbg 0 drbg16 (workState false r100 jobExport 0 (keyed jobExport))) 1 :=
  ⟨by decide +kernel, draw16 _ (by decide +kernel), by decide +kernel⟩

/-- KEY_IMPORT_PUBLIC of the base point of P-256. -/
def base256 : List Byte := beBytes 32 p256.gx ++ beBytes 32 p256.gy
def jobPublic : Cmd :=
  jobOf (entryK 0x0143 0 64 0 (leBytes 8 (handle0 false 0) ++ leBytes 4 (pol 0xC 0x15 0x20000).toNat)) base256 []
def publishing : State := workState true r100 jobPublic 0 (keyed jobPublic)

theorem witness_KeyImportPublic :
    AtWork svcKeyImportPublic r100 jobPublic 0 base256 (keyed jobPublic)
      ∧ Permitted svcKeyImportPublic true r100 jobPublic 0 (keyed jobPublic) ∧ pointOk 0x15 base256 = true := by decide +kernel

theorem witness_KeyImportPublic_stores :
    Storable r100 (handle0 false 0) (pol 0xC 0x15 0x20000) [] base256 publishing
      (storing (handle0 false 0) (pol 0xC 0x15 0x20000) [] base256 publishing).2 :=
  storable_of _ _ _ _ _ (by decide +kernel) (by decide +kernel)

/-- Slot 0 holds a key of gable 1: KEY_DELETE of it, and KEY_INFO. -/
def jobDelete : Cmd := jobOf (entryK 0x0144 (mkHandle false 1 0) 0 0 []) [] [wrapped1]
def jobInfo : Cmd := jobOf (entryK 0x0145 (mkHandle false 1 0) 0 0 []) [] [wrapped1]
def deleting : State :=
  let s := workState false r100 jobDelete 0 (keyed jobDelete)
  { s with msu := { s.msu with mem := Memory.write 0 s.msu.mem slotDir (leBytes 4 0x05000001) } }

theorem witness_KeyInfo :
    AtWork svcKeyInfo r100 jobInfo 0 [] (keyed jobInfo) ∧ Permitted svcKeyInfo false r100 jobInfo 0 (keyed jobInfo)
      ∧ 2 ≤ cellsFree (workState false r100 jobInfo 0 (keyed jobInfo)) 1
      ∧ AtWork svcKeyDelete r100 jobDelete 0 [] (keyed jobDelete) ∧ Permitted svcKeyDelete false r100 jobDelete 0 (keyed jobDelete) := by
  decide +kernel

theorem witness_KeyDelete :
    readDir false 0 1 deleting = (true, deleting) ∧ handleResolves deleting 1 (mkHandle false 1 0) = true
      ∧ changeGate false deleting = some 0 ∧ (changeHere false (deleteRec deleting 1 false 0) deleting).1 = true := by decide +kernel

/-- A P-256 key pair with private scalar 1. -/
def signer (usage : Nat) : LoadedKey := ⟨pol usage 0x14 0x10000, beBytes 32 1, base256⟩
def verifier (usage : Nat) : LoadedKey := ⟨pol usage 0x15 0x20000, [], base256⟩
def nonceX : Nat := 48252375225506497807224918983570480553644819851055986950986663089520943136207

theorem noncePoint : ecMul p256 nonce1 (basePoint p256)
    = some (nonceX, 38503783191049198414245282249364685597563664183800398988053097983947215352562) := by decide +kernel

theorem signable (h : List Byte) (a : invMod p256.n nonce1 * (digestScalar p256 h + nonceX % p256.n * 1) % p256.n ≠ 0) :
    (ecdsaWith p256 1 h nonce1).isSome = true := by
  unfold ecdsaWith
  rw [noncePoint]
  simp only [a, or_false]
  rw [if_neg (by decide +kernel)]
  rfl

/-- ECDSA_SIGN of one byte, and METER_SEAL of it on counter 3. -/
def jobSign : Cmd := jobOf (entryK 0x0150 0 1 64 []) [5] [signer 0xC]
def jobSeal : Cmd := jobOf (entryK 0x0160 0 1 168 (leBytes 4 3)) [5] [signer 0xD]

theorem witness_EcdsaSign :
    (AtWork svcEcdsaSign r100 jobSign 0 [5] (keyed jobSign) ∧ Permitted svcEcdsaSign true r100 jobSign 0 (keyed jobSign)
      ∧ curveOf (pAlg (signer 0xC).policy) = some p256 ∧ 1 ≤ nonce1 ∧ nonce1 < p256.n
      ∧ beNat (beBytes 16 0 ++ beBytes 16 nonce1) = nonce1)
    ∧ drbgDraw 0 32 false (workState true r100 jobSign 0 (keyed jobSign))
      = (some (beBytes 16 0 ++ beBytes 16 nonce1), setDrbg 0 drbg32 (workState true r100 jobSign 0 (keyed jobSign)))
    ∧ (ecdsaWith p256 1 (curveHash p256 [5]) nonce1).isSome = true :=
  ⟨by decide +kernel, draw32 _ (by decide +kernel), signable _ (by decide +kernel)⟩

/-- Time is set. -/
def timed (s : State) : State :=
  { s with
    sys := { s.sys with
      timePhase := .synchronised
      time := 1000 }
    sym := { s.sym with ctr := { s.sym.ctr with ceiling := 2000 } } }
def sealing : State := workState true r100 jobSeal 0 (timed (keyed jobSeal))

theorem witness_MeterSeal :
    AtWork svcMeterSeal r100 jobSeal 0 [5] (timed (keyed jobSeal)) ∧ Permitted svcMeterSeal true r100 jobSeal 0 (timed (keyed jobSeal))
      ∧ (sealValue r100 3 sealing).1 = .value 6 ∧ (sealValue r100 3 sealing).2.1 = 1000
      ∧ drbgOf (sealValue r100 3 sealing).2.2 0 = drbg0 := by decide +kernel

theorem witness_MeterSeal_signs :
    (ecdsaWith p256 1 (curveHash p256 (meterBody 0x15 1 (meterKeyId base256) 3 1 6 1000 (serialBytes sealing)
      (curveHash p256 [5]))) nonce1).isSome = true := signable _ (by decide +kernel)

/-- ECDSA_VERIFY and METER_VERIFY of bytes that no key signed. -/
def jobVerify : Cmd := jobOf (entryK 0x0151 0 64 0 []) (List.replicate 64 0) [verifier 0xC]
def jobMeter : Cmd := jobOf (entryK 0x0161 0 168 0 []) (List.replicate 168 0) [verifier 0xD]

theorem witness_Verifications :
    (AtWork svcEcdsaVerify r100 jobVerify 0 (List.replicate 64 0) (keyed jobVerify)
      ∧ Permitted svcEcdsaVerify true r100 jobVerify 0 (keyed jobVerify))
    ∧ (AtWork svcMeterVerify r100 jobMeter 0 (List.replicate 168 0) (keyed jobMeter)
      ∧ Permitted svcMeterVerify true r100 jobMeter 0 (keyed jobMeter)) := by decide +kernel

/-- A tariff of one band, a key pair, and the signature (r, r) of it. -/
def tariff1 : List Byte :=
  [0x54, 0x41, 0x52, 0x46] ++ leBytes 4 1 ++ leBytes 2 978 ++ [2, 0] ++ leBytes 2 0 ++ [1, 0] ++ leBytes 4 0 ++ leBytes 4 0xFFFFFFFF
    ++ List.replicate 80 0
def tariffKey : LoadedKey :=
  ⟨pol 0xE 0x15 0x20000, [],
    beBytes 64 9939581918371128017658429976179715824510872605249892067175841182562190473798042557111416926506558192895530633761501212212707085104848403486595817277378245⟩
def tariffR : Nat := 56515219790691171413109057904011688695424810155802929973526481321309856242040
def tariffSrc : List Byte := tariff1 ++ (beBytes 32 tariffR ++ beBytes 32 tariffR)

theorem tariff_signed : ecdsaCheck p256 tariffKey.pub (curveHash p256 tariff1) (beBytes 32 tariffR ++ beBytes 32 tariffR) = true := by
  decide +kernel

/-- TARIFF_LOAD of it into slot 0, and TARIFF_PRICE of one record by it. -/
def jobTariff : Cmd := jobOf (entryK 0x0170 0 168 0 []) tariffSrc [tariffKey]
def jobPrice : Cmd := jobOf (entryK 0x0171 0 16 0 []) (List.replicate 16 0) []

theorem witness_TariffLoad :
    (AtWork svcTariffLoad r100 jobTariff 0 tariffSrc (keyed jobTariff)
      ∧ Permitted svcTariffLoad true r100 jobTariff 0 (keyed jobTariff) ∧ tariffOk tariffSrc = true
      ∧ tariffGen (workState true r100 jobTariff 0 (keyed jobTariff)) 1 0 < 1)
    ∧ LinesGood (keyed jobTariff) (tariffAddr (keyed jobTariff) 1 0 / 64) 16 := by decide +kernel

theorem witness_TariffPrice :
    AtWork svcTariffPrice r100 jobPrice 0 (List.replicate 16 0) (keyed jobPrice)
      ∧ Permitted svcTariffPrice false r100 jobPrice 0 (keyed jobPrice)
      ∧ LinesGood (keyed jobPrice) (tariffAddr (keyed jobPrice) 1 0 / 64) 16
      ∧ (tariffTotal (padTo 1024 tariff1) (chunks 16 (List.replicate 16 0))).isSome = true := by decide +kernel

/-! ### Public-key engines -/

/-- Core 0 of truss 0, running with the line at its PC in its instruction cache; the warden runs too. -/
def core0 (k : Core) : State :=
  { working (queued 0 0 []) with
    cores := [(0, { k with
        phase := .running
        icache := [(0, true)] }),
      (128, { phase := .running })] }

abbrev cid0 : CoreId := .truss 0 0

/-- A WMA operation with no field set. -/
def op0 : WmaOp := ⟨0, 0, 0, 0, 0, 0, 0⟩

/-- Truss 0's WMA unit with `x` as context 0. -/
def wma0 (x : WmaCtx) (mem : SMap WmaWord) (dp : Option Nat) : State :=
  { core0 {} with
    pke := { wma := [(0, {
      mem := mem
      ctx := [(0, x)]
      dp := dp })] } }

theorem witness_WmaIssue :
    (cid0 ≠ .warden ∧ Issues cid0 true (core0 {}) ∧ ((fetched cid0 true (core0 {})).core (coreNum cid0)).pl < 2
      ∧ bitOf (wmaCtx (wmaOf (fetched cid0 true (core0 {})) 0) 0).sticky.toNat 14 = false
      ∧ (wmaCtx (wmaOf (fetched cid0 true (core0 {})) 0) 0).queue.length < 8 ∧ wmaLegal 0x11 op0 = true
      ∧ wmaLegal 0x12 op0 = true)
    ∧ 8 ≤ (wmaCtx (wmaOf (fetched cid0 true (wma0 { queue := List.replicate 8 ⟨10, op0, 0⟩ } [] none)) 0) 0).queue.length
    ∧ (Issues cid0 true (core0 { st := 0x200 })
      ∧ ((fetched cid0 true (core0 { st := 0x200 })).core (coreNum cid0)).pl = 2) := by decide +kernel

/-- The modulus 2^193 + 1 of width 4, A at word 0, B at word 8, D at word 16; five words each in Quickstep. -/
def wmaJob (op : Nat) (arg : Word) (pl : Nat) (a : Dword) : State :=
  wma0 ⟨2 ^ 193 + 1, 4, false, false, 0, [⟨op, { op0 with d := 8, a := 0, b := 4, arg := arg }, pl⟩], none⟩
    [(0, ⟨a, false, false⟩), (8, ⟨3, false, false⟩)] (some 0)

theorem witness_WmaModular :
    ([2, 3, 4, 5].all fun op =>
      decide (AtEnd 0 0 ⟨op, { op0 with d := 8, a := 0, b := 4 }, 0⟩ 5 (2 ^ 193 + 1) (wmaJob op 0 0 5))) = true
    ∧ operandAt (wmaJob 2 0 0 5) 0 0 8 5 = some 16 ∧ operandAt (wmaJob 2 0 0 5) 0 0 0 5 = some 0
    ∧ operandAt (wmaJob 2 0 0 5) 0 0 4 5 = some 8 ∧ residueOf (2 ^ 193 + 1) (wordsAt (wmaJob 2 0 0 5) 0 0 5) = some 5
    ∧ residueOf (2 ^ 193 + 1) (wordsAt (wmaJob 2 0 0 5) 0 8 5) = some 3
    ∧ residueOf (2 ^ 193 + 1) (wordsAt (wmaJob 2 0 0 5) 0 16 5) = some 0 ∧ (drbgOf (wmaJob 2 0 0 5) 0).err = false
    ∧ residueOf 7 (wordsAt (wmaJob 2 0 0 20) 0 0 5) = none := by decide +kernel

theorem witness_WmaPlain :
    ([(6, (0 : Word), (4 : BitVec 8), (0 : BitVec 8), (8 : BitVec 8)), (0x0A, 0, 0, 0, 8), (0x10, 0, 0, 0, 8), (9, 0, 0, 0, 8),
        (0x0E, 1, 0, 0, 8), (0x0B, 0, 4, 0, 0), (7, 5, 4, 0, 8)].all fun p =>
      decide (AtEnd 0 0 ⟨p.1, { op0 with d := p.2.2.2.2, a := p.2.2.2.1, b := p.2.2.1, arg := p.2.1 }, 0⟩ 5 (2 ^ 193 + 1)
        (wma0 ⟨2 ^ 193 + 1, 4, false, false, 0,
            [⟨p.1, { op0 with d := p.2.2.2.2, a := p.2.2.2.1, b := p.2.2.1, arg := p.2.1 }, 0⟩], none⟩
          [(0, ⟨5, false, false⟩), (8, ⟨3, false, false⟩)] (some 0)))) = true := by decide +kernel

/-- Montgomery multiplication: with m = 5 and T = 2^64, 3 · 4 · T⁻¹ is 12 mod 5, since T is 1 modulo 5. -/
theorem test_montgomery : 3 * 4 * invT 5 1 % 5 = 2 := by decide +kernel

/-- The RSA private service takes 208,192 core clocks at N = 2,048 (R185, example). -/
theorem test_rsa_clocks : 2 * (5 * 2048 / 8 + 16) * galMul (2048 / 128) + 4 * galMul (2048 / 64) = 208192
    ∧ 19 * galMul (2048 / 64) = 3952 ∧ 19 * galMul (8192 / 64) = 44080 := by decide +kernel

/-- A warden whose pair registers answer, with sequencer 1 as given. -/
def gal1 (g : Galliard) : State := { core0 {} with pke := { gal := [(1, g)] } }

theorem witness_GalliardCommands :
    (PairTakes .warden (galCtl 1) (gal1 {}) ∧ (galOf (gal1 {}) 1).run = .none)
    ∧ PairTakes .warden (galCtl 1) (gal1 { run := .load })
    ∧ (PairTakes .warden (galCtl 1) (gal1 { run := .run 2 }) ∧ (galOf (gal1 { run := .run 2 }) 1).run = .run 2)
    ∧ RegTakes .warden (galCtl 1 + 0x1C) kWrite (gal1 { loaded := true, entries := [(2, 0)] })
    ∧ PairTakes .warden (galCtl 1)
      (setGal 1 { galOf (gal1 { loaded := true, entries := [(2, 0)] }) 1 with service := 2 }
        (gal1 { loaded := true, entries := [(2, 0)] })) := by decide +kernel

/-- Sequencer 1 loading 256 bytes of zeros. -/
def galLoading : State := { gal1 { run := .load, len := 256 } with msu := { rootOk := true } }

theorem witness_GalliardEnds :
    ((galOf (gal1 { run := .load, len := 255 }) 1).run = .load)
    ∧ ((galOf galLoading 1).run = .load ∧ (galOf galLoading 1).loaded = false ∧ (galOf galLoading 1).len.toNat = 256
      ∧ gate galTag tgtSealed0 0 256 kRead galLoading = (true, galLoading)
      ∧ (msuRead 0x80000000 256 true true galLoading).1.isSome = true
      ∧ (msuRead 0x80000000 256 true true galLoading).2.pke = galLoading.pke)
    ∧ ((galOf (gal1 { run := .run 2, mpId := 1, arg := 1024, mem := [(128, (7, false))] }) 1).run = .run 2 ∧ galBits 1024 = true
      ∧ galNat (galOf (gal1 { run := .run 2, mpId := 1, arg := 1024, mem := [(128, (7, false))] }) 1) 0 128 = 0
      ∧ galNat (galOf (gal1 { run := .run 2, mpId := 1, arg := 1024, mem := [(128, (7, false))] }) 1) 0x400 128 = 7) := by
  decide +kernel

/-! ### Symmetric ports and counters -/

/-- Core 0 with a port, chains and counters as given. -/
def sym0 (p : SymPort) (chains : SMap ChainReg) (ctr : CtrState) : State :=
  { core0 {} with
    sym := {
      ports := [(0, p)]
      chains := chains
      ctr := ctr } }

/-- A port whose CMD names an OP with FLAGS. -/
def portCmd (op flags : Nat) : SymPort := { mem := Memory.write 0 [] 0 (leBytes 4 (op + 65536 * flags)) }

/-- A request with an argument, a length and flags. -/
def req (op ch flags argA len use : Nat) : PortReq := ⟨op, ch, flags, false, argA, 0, len, use, List.replicate 64 0, 0, none⟩

theorem witness_PortRequests :
    (portRows.all fun p => decide ((portRequest (portOf (sym0 (portCmd p.2 0) [] {}) 0)).op = p.2
      ∧ (portRequest (portOf (sym0 (portCmd p.2 0) [] {}) 0)).resv = false
      ∧ flagsOk p.2 (portRequest (portOf (sym0 (portCmd p.2 0) [] {}) 0)).flags = true
      ∧ flagsOk p.2 (portRequest (portOf (sym0 (portCmd p.2 0xFFF) [] {}) 0)).flags = false)) = true
    ∧ powered (sym0 (portCmd 1 0) [] {}) = true := by decide +kernel

/-- Core 0 has chains 2 and 3 with an AES-128 key of a usage and policy bits. -/
def chains2 (policy : Nat) : SMap ChainReg :=
  [(2, {
      core := some (0, 0)
      key := some ⟨BitVec.ofNat 32 policy, List.replicate 16 7⟩ }),
   (3, { core := some (0, 1) })]

theorem witness_PortResults :
    (AtPort cid0 1 (req 1 0 1 0 0 0) (sym0 { req := some (req 1 0 1 0 0 0) } [] {})
      ∧ openPipe (sym0 { req := some (req 1 0 1 0 0 0) } [] {}) 1 2 = some 0)
    ∧ boundChain (sym0 { req := some (req 4 0 0 0 16 0x101003) } (chains2 0x101003) {}) 0 0 = some 2
    ∧ boundChain (sym0 { req := some (req 4 0 0 0 16 0x101003) } (chains2 0x101003) {}) 0 1 = some 3
    ∧ isPavane (sym0 {} [] {}) 1 = false ∧ handleInRange (sym0 {} [] {}) 1 0 = false
    ∧ (algAes (pAlg 0x100103) = true ∧ pBit 0x100103 20 = true ∧ policyAllowed (BitVec.ofNat 32 0x10703) = true
      ∧ keyLenOk (pAlg (BitVec.ofNat 32 0x10703)) 16 = true)
    ∧ (slotAdmits (sym0 {} (chains2 0x11003) {}) 2 1 = true ∧ pUsage 0x11003 = 0x10 ∧ pBit 0x11003 16 = true)
    ∧ (pUsage 0x10703 = 7 ∧ pBit 0x10703 16 = true ∧ algAes (pAlg 0x10703) = true)
    ∧ (drbgOf (sym0 {} [] {}) (drbgNum 0)).err = false := by decide +kernel

/-- Gable 1 owns counters 0 to 15. -/
def ctr0 (p : SymPort) (ctr : CtrState) : State :=
  let s := sym0 p [] ctr
  let l := s.img.latched
  let l := { l with gables := l.gables.map (fun (g : Nat × GableCfg) => (g.1, { g.2 with ctrCount := 16 })) }
  { s with img := { s.img with latched := { l with partition := { l.partition with ctrj := 256 } } } }

theorem witness_CounterVault :
    (ctrOwned (ctr0 { req := some (req 11 0 0 3 0 0) } { v := [(3, 5)], b := [(3, 10)] }) 1 3 = true
      ∧ OwnCounters (ctr0 { req := some (req 11 0 0 3 0 0) } { v := [(3, 5)], b := [(3, 10)] })
      ∧ ctrV (ctr0 {} { v := [(3, 5)], b := [(3, 10)] }) 3 < ctrB (ctr0 {} { v := [(3, 5)], b := [(3, 10)] }) 3)
    ∧ (ctrOwned (ctr0 {} {}) 1 16 = false ∧ ctrV (ctr0 {} { v := [(3, 2 ^ 64 - 1)] }) 3 = 2 ^ 64 - 1)
    ∧ (journalPlace (ctr0 { req := some (req 11 0 0 3 0 0) } {})).isSome = true
    ∧ ((SMap.get none (ctr0 {} { flight := [(3, some 256)] }).sym.ctr.flight 3) = some 256) := by decide +kernel

theorem insertJ_any (p : JRec → Bool) (r : JRec) (l : List JRec) : (insertJ r l).any p = (p r || l.any p) := by
  induction l with
  | nil => simp [insertJ]
  | cons x xs h =>
    simp only [insertJ]
    split
    · simp
    · simp [h, Bool.or_left_comm]

theorem journalAll_any (p : JRec → Bool) (s : State) :
    (journalAll s).any p = (usedLog s).any fun x => (journalSector s x).any p := by
  have h : ∀ (l acc : List JRec), (l.foldl (fun l r => insertJ r l) acc).any p = (l.any p || acc.any p) := by
    intro l
    induction l with
    | nil => simp
    | cons x xs ih => intro acc; simp [ih, insertJ_any, Bool.or_left_comm, Bool.or_assoc]
  simp [journalAll, h, List.any_flatMap]

/-- A journal with a header and a RESERVE record of counter 3 with the bound 256, which is in flight. -/
def reserving : State :=
  let s := ctr0 {} { flight := [(3, some 256)] }
  putFlashWords ((ctrLogArea s).1 * 512) ([0x4C43544A, 0] ++ journalWords 1 256 3 1) s

theorem witness_ReserveRecord :
    powered reserving = true ∧ SMap.get none reserving.sym.ctr.flight 3 = some 256
      ∧ ((journalAll reserving).any fun r => r.typ == 1 && r.index == 3 && r.value == 256) = true := by
  rw [journalAll_any]
  decide +kernel

/-- Counter 0x0410's record of R213's example counts with its CRC and not without word 1. -/
theorem test_journal_record :
    (journalWords 1 0x10500 0x0410 0x31A2F).length = 2
    ∧ (let s := ctr0 {} {}
       let a := (ctrLogArea s).1 * 512 + 2
       journalRec (putFlashWords a (journalWords 1 0x10500 0x0410 0x31A2F) s) (8 * a) = some ⟨1, 0x10500, 0x0410, 0x31A2F⟩
       ∧ journalRec (putFlashWords a [0x10500] s) (8 * a) = none) := by decide +kernel

/-- The low-water rule at B − V = 64 appends a record that reserves up to 0x1_0500 (R213, example). -/
theorem test_low_water :
    SMap.get none (ctrDraw 0x0410 (ctr0 {} { v := [(0x0410, 0x103BF)], b := [(0x0410, 0x10400)] })).2.sym.ctr.flight 0x0410
      = some 0x10500
    ∧ SMap.get none (ctrDraw 0x0410 (ctr0 {} { v := [(0x0410, 0x103BE)], b := [(0x0410, 0x10400)] })).2.sym.ctr.flight 0x0410
      = none := by decide +kernel

theorem witness_SymmetricEvents :
    powered (ctr0 {} {}) = true ∧ (ctr0 {} {}).img.locked = true
    ∧ waitsFor (ctr0 { req := some (req 11 0 0 3 0 0) } { stalled := true }) 3 (req 11 0 0 3 0 0) = true
    ∧ (pagePeriod (ctr0 {} { since := 128 }) = 128 ∧ portIdle (ctr0 {} {}) = true
      ∧ (journalPlace (ctr0 {} { since := 128 })).isSome = true)
    ∧ (entropyGood { ctr0 {} {} with sys := { (ctr0 {} {}).sys with entOn := 15 } } = true)
    ∧ (drbgOf { ctr0 {} {} with sym := { drbg := [(0, { err := true })] } } 0).err = true := by decide +kernel

/-! ### Sealed memory and the key store -/

/-- Sealed memory in force, with lines that fail. -/
def msu0 (failing : SMap Bool) (ks : KsState) : State :=
  { core0 {} with
    msu := {
      rootOk := true
      inited := true
      failing := failing }
    ks := ks }

theorem witness_SealedMemory :
    (powered (msu0 [] {}) = true ∧ LinesGood (msu0 [] {}) 0 2 ∧ lineCount 60 8 = 2 ∧ (msu0 [] {}).msu.inited = true)
    ∧ minorOf (msu0 [] {}) 0 0 < 63
    ∧ (let s := msu0 [] {}
       minorOf { s with msu := { s.msu with minor := [(5, 63)] } } 0 5 = 63)
    ∧ (powered (core0 {}) = true ∧ (core0 {}).msu.inited = false) := by decide +kernel

/-- A full line write at MINOR 63 raises MAJOR and clears the 64 minors (R223). -/
theorem test_minor_overflow :
    (let s := msu0 [] {}
     let t := bumpCounter 0 70 true true { s with msu := { s.msu with minor := [(64, 9), (70, 63)] } }
     majorOf t 0 1 = 1 ∧ minorOf t 0 70 = 0 ∧ minorOf t 0 64 = 0) := by decide +kernel

theorem witness_KeyStoreCommands :
    (PairTakes .pf 0x701000 (msu0 [] {}) ∧ (msu0 [] {}).ks.phase = .empty ∧ (msu0 [] {}).ks.run = .none
      ∧ retiredLc (msu0 [] {}) = false ∧ (msu0 [] {}).btn.role = .solo ∧ (msu0 [] {}).eav.rootLock = false)
    ∧ (PairTakes .pf 0x701000 (msu0 [] { phase := .isOpen, pending := some ⟨1, 0, []⟩, arg := 1 }))
    ∧ (PairTakes .pf 0x701000 (msu0 [] { phase := .closed, addr := 0x1000 }))
    ∧ PairTakes .pf 0x701000 (msu0 [] { run := .confirm }) := by decide +kernel

/-- An OWNED module: LC is 0b0011. -/
def owned (s : State) : State := { s with eav := { s.eav with fuses := { s.eav.fuses with halfA := BitVec.ofNat 1024 (3 * 2 ^ 136) } } }

theorem witness_lifecycle : lifecycle (owned (msu0 [] {})) = lcOwned := by decide +kernel

theorem witness_KeyStoreEnds :
    (wardenUp (msu0 [] { run := .init }) = true)
    ∧ (wardenUp (msu0 [] { run := .backup 0 0 }) = true)
    ∧ wardenUp (msu0 [] {
        run := .confirm
        root := some ⟨1, [], List.replicate 16 0, 0, 0, [], []⟩
        pending := some ⟨1, 0, List.replicate 48 0⟩ }) = true
    ∧ wardenUp (msu0 [] { run := .restore 0 (some .poison) }) = true := by decide +kernel

theorem witness_KeyStorePowerUp :
    (powered (msu0 [] { phase := .starting }) = true ∧ (msu0 [] { phase := .starting }).ks.root = none)
    ∧ bufRecs (msu0 [] {}) = []
    ∧ wardenUp (msu0 [] { phase := .starting }) = true ∧ oldestResident (msu0 [] {}) = none
    ∧ bufRecs (putVault 0x100 (logRecBytes ⟨5, false, 1, 1, 0, 1, []⟩) (msu0 [] {})) = [⟨5, false, 1, 1, 0, 1, []⟩] := by decide +kernel

/-- R237's example: an import of a private brainpoolP384r1 key by gable 2 into slot 0x0080_0004. -/
theorem test_slot_directory :
    (let dir := fun (i : Nat) (v : Nat) => putSealed (slotDir + 4 * i) (leBytes 4 v)
     let s := dir 0x00800006 0x08000007 (dir 0x00800004 0x08000002 (msu0 [] {}))
     let t := applySealed ⟨0x00800004, true, 3, 2, 2, 9, List.replicate 256 0⟩ s
     (slotFree s false 2 0x00800004 && slotFree s false 2 0x00800006) = true
     ∧ nextGen (dGen (dirEntry s false 0x00800004)) = 3
     ∧ ([0, 1, 2, 3].map fun k => dirEntry t false (0x00800004 + k)) = [0x09020003, 0x0A020001, 0x0A020008, 0x0A020001]
     ∧ mkHandle false 3 0x00800004 = 0x4000000300800004 ∧ handleResolves t 2 0x4000000300800004 = true
     ∧ handleResolves t 2 (mkHandle false 8 0x00800006) = false ∧ spanLog2 0x12 48 = 2) := by decide +kernel

/-! ### Camol -/

/-- Core 0 with registers `g` and memory in its local data. -/
def camol0 (g : SMap Word) (loc : Memory) : State := core0 { g := g, loc := loc }

/-- Core 0 after a command on it. -/
def after0 (i : Instr) (s : State) : Core :=
  match exec i s with
  | .next t => t.core 0
  | _ => {}

theorem witness_CamolIssue :
    camolWords (.sta cid0 ⟨1, 1, 0, 0, 0, 0⟩) = some (cid0, 0x40440004, 0)
    ∧ canIssue ({ } : State) (coreNum cid0) = false
    ∧ (Issues cid0 (hasExtension 0x40440004) (core0 {}) ∧ fieldsOk 0 (.sta cid0 ⟨1, 1, 0, 0, 0, 0⟩) = false)
    ∧ (canIssue { core0 {} with cores := [(0, { phase := .running, pc := 0x3000000 })] } (coreNum cid0) = true
      ∧ (fetchAt 0 false (wake 0 { core0 {} with cores := [(0, { phase := .running, pc := 0x3000000 })] })).1 = .refused) := by
  decide +kernel

theorem witness_CamolInteger : Issues cid0 false (core0 {}) ∧ Issues cid0 true (core0 {}) := by decide +kernel

theorem witness_DivisionAndMoves :
    (Issues cid0 false (camol0 [(6, 100), (8, 3)] []) ∧ legalDiv ⟨6, 6, 8, 0⟩ = true
      ∧ (atIssue cid0 false (camol0 [(6, 100), (8, 3)] [])).reg 8 = 3)
    ∧ pairReg (atIssue cid0 false (camol0 [(7, 0x80000000), (8, 0xFFFFFFFF)] [])) 6 = 0x8000000000000000
    ∧ (Issues cid0 false (core0 { st := 0x800 }) ∧ (atIssue cid0 false (core0 { st := 0x800 })).precise = true)
    ∧ (atIssue cid0 false (core0 {})).precise = false ∧ fxSat (atIssue cid0 false (core0 { fxctl := 0 })).fxctl = false
    ∧ fieldsOk 0 (.mfa cid0 ⟨1, 0, 0, 2, 1, 0⟩) = true ∧ fieldsOk 0 (.mta cid0 ⟨1, 2, 3, 0, 0, 0⟩) = true := by decide +kernel

theorem witness_RoundingAndFitting :
    Issues cid0 false (core0 {}) ∧ fieldsOk 0 (.mulf cid0 ⟨1, 2, 0, 0, 3, 0⟩) = true
    ∧ fieldsOk 0 (.sta cid0 ⟨1, 0, 0, 2, 3, 0⟩) = true ∧ fieldsOk 0 (.aadd cid0 ⟨0, 0, 1, 2, 0, 0⟩) = true
    ∧ fit 0 9 4 = (-7, false, false) ∧ fit 0x10 9 4 = (-7, false, true) ∧ fit 4 9 4 = (7, true, false)
    ∧ fit 4 (-9) 4 = (-8, true, false) := by decide +kernel

/-- The table of R266. -/
theorem test_rnd :
    ([5, 7, -5, -7, 3] : List Int).map (fun x => (List.range 4).map fun m => rnd m x 2)
      = [[2, 3, 2, 2], [4, 4, 3, 3], [-2, -3, -2, -3], [-4, -4, -3, -4], [2, 2, 1, 1]] := by decide +kernel

/-- The words of the examples of R271 and R275 decode to their instructions. -/
theorem test_words :
    camolDecode cid0 0x018c8019 0 = some (.mullu cid0 ⟨6, 3, 2, 0⟩) ∧ camolDecode cid0 0x019a001b 0 = some (.divru cid0 ⟨6, 6, 8, 0⟩)
    ∧ camolDecode cid0 0xac855a10 0 = some (.tli cid0 ⟨2, 1, 5, 13, 0, 16⟩)
    ∧ camolDecode .warden 0x74000005 0 = some (.gate .warden ⟨0, 5⟩)
    ∧ (∃ f, camolDecode .warden 0x70000004 0 = some (.retx .warden f)) := by
  refine ⟨by decide +kernel, by decide +kernel, by decide +kernel, by decide +kernel, ⟨0, 0, 0, 0⟩, by decide +kernel⟩

/-- The example of R271: 12,500 × 350,312 in a pair, and its quotient by 1,000. -/
theorem test_mullu_divru :
    (after0 (.mullu cid0 ⟨6, 3, 2, 0⟩) (camol0 [(2, 0x55868), (3, 0x30d4)] [])).g
      = [(2, 0x55868), (3, 0x30d4), (6, 0x0500b620), (7, 1)]
    ∧ (after0 (.divru cid0 ⟨6, 6, 8, 0⟩) (camol0 [(6, 0x0500b620), (7, 1), (8, 0x3e8)] [])).g = [(6, 0x42d114), (8, 0x3e8)] := by
  decide +kernel

/-- The tariff band of R146 in local data from 0x100: POINT[1] and POINT[2]. -/
def band : Memory := Memory.write 0 [] 0x100 (leBytes 4 0x493E0 ++ leBytes 4 0x55730 ++ leBytes 4 0x5F370)

/-- The examples of R275. -/
theorem test_tli :
    (after0 (.tli cid0 ⟨2, 1, 5, 13, 0, 16⟩) (camol0 [(1, 0x2af8), (5, 0x100)] band)).reg 2 = 0x58CBF
    ∧ (after0 (.tli cid0 ⟨2, 1, 5, 13, 0, 16⟩) (camol0 [(1, 0x2040), (5, 0x100)] band)).reg 2 = 0x55868 := by decide +kernel

theorem witness_LoadsAndStores :
    (Issues cid0 false (camol0 [(1, 0x100)] band) ∧ legalM ⟨2, 1, 1, 2, 0⟩ false = true ∧ legalM ⟨2, 1, 2, 1, 0⟩ true = true
      ∧ (addrM (atIssue cid0 false (camol0 [(1, 0x100)] band)) ⟨2, 1, 1, 2, 0⟩).toNat = 0x100
      ∧ stackFault (atIssue cid0 false (camol0 [(1, 0x100)] band)) ⟨2, 1, 1, 2, 0⟩ = false
      ∧ (coreLoad 0 0x100 4 (fetched cid0 false (camol0 [(1, 0x100)] band))).1 = .ok [0xE0, 0x93, 4, 0]
      ∧ (coreStore 0 0x100 [1, 2, 3, 4] (fetched cid0 false (camol0 [(1, 0x100)] band))).1 = .ok [])
    ∧ (addrM (atIssue cid0 false (camol0 [(1, 0x101)] band)) ⟨2, 1, 1, 2, 0⟩).toNat % 4 = 1
    ∧ ((15 : BitVec 4).toNat = 15 ∧ legalM ⟨2, 15, 2, 2, 0⟩ false = true ∧ (atIssue cid0 false (core0 { g := [(15, 2)] })).reg 15 = 2)
    ∧ ((coreLoad 0 0x3000000 4 (fetched cid0 false (core0 {}))).1 = .refused
      ∧ (coreStore 0 0x3000000 [1, 2, 3, 4] (fetched cid0 false (core0 {}))).1 = .refused) := by decide +kernel

/-- A post-increment load whose RD is the base holds the loaded value; a store of its own base stores the old one. -/
theorem test_base_update :
    (after0 (.ld cid0 ⟨1, 1, 1, 2, 0⟩) (camol0 [(1, 0x100)] band)).g = [(1, 0x493E0)]
    ∧ (after0 (.st cid0 ⟨1, 1, 2, 2, 0⟩) (camol0 [(1, 0x104)] [])).g = [(1, 0x100)]
    ∧ Memory.read 0 (after0 (.st cid0 ⟨1, 1, 2, 2, 0⟩) (camol0 [(1, 0x104)] [])).loc 0x100 4 = [4, 1, 0, 0]
    ∧ (after0 (.lds cid0 ⟨3, 1, 0, 0, 1⟩) (camol0 [(1, 0x100)] band)).reg 3 = 0xFFFFFF93 := by decide +kernel

/-- Core 0 with CNT 2, the words 0x2AF8 and 0x2040 at 0x180, its output at 0x200 and the band at 0x100. -/
def run0 (idx : Word) : State :=
  core0 { g := [(1, 0x180), (2, 0x200), (5, 0x100)]
          cnt := 2
          idx := idx
          loc := Memory.write 0 band 0x180 (leBytes 4 0x2AF8 ++ leBytes 4 0x2040) }

/-- The example of R277: each element prices one interval, and the second lets the core go on. -/
theorem test_tvi :
    (leAt (Memory.read 0 (after0 (.tvi cid0 ⟨2, 1, 5, 13, 0, 16⟩) (run0 0)).loc 0x200 4) 0 4, (after0 (.tvi cid0 ⟨2, 1, 5, 13, 0, 16⟩) (run0 0)).idx,
      (after0 (.tvi cid0 ⟨2, 1, 5, 13, 0, 16⟩) (run0 0)).pc) = (0x58CBF, 1, 0)
    ∧ (leAt (Memory.read 0 (after0 (.tvi cid0 ⟨2, 1, 5, 13, 0, 16⟩) (run0 1)).loc 0x204 4) 0 4, (after0 (.tvi cid0 ⟨2, 1, 5, 13, 0, 16⟩) (run0 1)).idx,
      (after0 (.tvi cid0 ⟨2, 1, 5, 13, 0, 16⟩) (run0 1)).pc) = (0x55868, 2, 4) := by decide +kernel

theorem witness_TablesAndRuns :
    (Issues cid0 false (run0 0) ∧ legalT ⟨2, 1, 5, 13, 0, 16⟩ = true
      ∧ (coreLoad 0 0x104 4 (fetched cid0 false (run0 0))).1 = .ok [0x30, 0x57, 5, 0]
      ∧ (atIssue cid0 false (run0 0)).idx.toNat < (atIssue cid0 false (run0 0)).cnt.toNat
      ∧ (coreLoad 0 0x180 4 (fetched cid0 false (run0 0))).1 = .ok [0xF8, 0x2A, 0, 0]
      ∧ (coreStore 0 0x200 [1, 2, 3, 4] (fetched cid0 false (run0 0))).1 = .ok []
      ∧ ((coreStore 0 0x200 [1, 2, 3, 4] (fetched cid0 false (run0 0))).2.core 0).g = (atIssue cid0 false (run0 0)).g)
    ∧ (atIssue cid0 false (run0 2)).cnt.toNat ≤ (atIssue cid0 false (run0 2)).idx.toNat
    ∧ (fieldsOk 2 (.bscan cid0 ⟨3, 0, 0, 2⟩) = true ∧ bitAt (fetched cid0 false (run0 0)) 0 false 0 = false
      ∧ bitAt (fetched cid0 false (core0 { cnt := 70, bits := [(3, true)] })) 0 false 3 = true) := by decide +kernel

theorem test_bscan :
    ((after0 (.bscan cid0 ⟨3, 0, 0, 2⟩) (core0 { cnt := 70, bits := [(3, true)] })).reg 3 = 3)
    ∧ ((after0 (.bscan cid0 ⟨3, 0, 0, 2⟩) (core0 { cnt := 70 })).idx = 64)
    ∧ ((after0 (.bscan cid0 ⟨3, 0, 0, 2⟩) (core0 { cnt := 70, idx := 64 })).reg 3 = 0xFFFFFFFF) := by decide +kernel

theorem witness_BitInstructions :
    Issues cid0 false (core0 {}) ∧ fieldsOk 0 (.bset cid0 ⟨1, 255, 0, 0, 0⟩) = true ∧ fieldsOk 0 (.bset cid0 ⟨1, 256, 0, 0, 0⟩) = false
    ∧ fieldsOk 0 (.btac cid0 ⟨0, 4095, 1, 3, 0⟩) = true ∧ fieldsOk 0 (.bfst cid0 ⟨1, 1, 224, 31⟩) = true
    ∧ fieldsOk 0 (.bfst cid0 ⟨1, 1, 225, 31⟩) = false ∧ fieldsOk 0 (.bmov cid0 ⟨1, 0, 7, 4095⟩) = true
    ∧ accessesDone (fetched cid0 false (core0 {})) (coreNum cid0) = true
    ∧ accessesDone (fetched cid0 false (wma0 { queue := [⟨0x0C, op0, 0⟩] } [] none)) (coreNum cid0) = false := by decide +kernel

/-- BTAS of a clear bit sets it and Z. -/
theorem test_btas :
    (after0 (.btas cid0 ⟨0, 9, 0, 0, 0⟩) (core0 {})).bits = [(9, true)] ∧ (after0 (.btas cid0 ⟨0, 9, 0, 0, 0⟩) (core0 {})).st = 4
    ∧ (after0 (.bfld cid0 ⟨2, 0, 4, 3⟩) (core0 { bits := [(4, true), (7, true), (8, true)] })).reg 2 = 9 := by decide +kernel

theorem witness_ControlInstructions :
    Issues cid0 false (core0 {}) ∧ (12 : Nat) < condRows.length ∧ (13 : Nat) < specialLevels.length
    ∧ (levelOk (atIssue cid0 false (core0 {})).pl (some 0) = true ∧ (atIssue cid0 false (core0 {})).pl ≤ 2)
    ∧ (levelOk (atIssue cid0 false (core0 { st := 0x200 })).pl (some 1) = false ∧ Issues cid0 false (core0 { st := 0x200 }))
    ∧ ((atIssue cid0 false (core0 { frames := [⟨1, none⟩], g := [(2, 5)] })).frames.length < 5)
    ∧ (atIssue cid0 false (core0 {})).forging = false := by decide +kernel

/-- An MTS of all ones to ST at User level changes the flags only, and at Monitor level GIE too. -/
theorem test_mts_st :
    (after0 (.mts cid0 ⟨0, 1, 0, 0⟩) (core0 { g := [(1, 0xFFFFFFFF)], st := 0x200 })).st = 0x20F
    ∧ (after0 (.mts cid0 ⟨0, 1, 0, 0⟩) (core0 { g := [(1, 0xFFFFFFFF)], st := 0 })).st = 0x40F := by decide +kernel

/-! ### Exceptions -/

/-- A 16-byte vector or gate entry. -/
def entry16 (target ctl sp limit : Nat) : List Byte := leBytes 4 target ++ leBytes 4 ctl ++ leBytes 4 sp ++ leBytes 4 limit

/-- Core 0 at User level with GIE set, g15 and SLIM its own, a table at 0x800 in its local data whose entry for cause `c` at
level 2 goes to 0x40 at Supervisor level, and WMA pending. -/
def user0 (c : Nat) (frames : List Frame) : State :=
  core0 { st := 0x603
          g := [(15, 0x3000)]
          slim := 0x2000
          vbase := 0x800
          frames := frames
          intWma := true
          loc := Memory.write 0 [] (0x800 + (4 * c + 2) * 16) (entry16 0x40 0x80000001 0x1000 0x100) }

theorem witness_ExceptionEntry :
    (readEntry 0 (0x800 + (4 * 4 + 2) * 16) (user0 4 []) = (some (entry16 0x40 0x80000001 0x1000 0x100), user0 4 [])
      ∧ entryUsable (entry16 0x40 0x80000001 0x1000 0x100) 2 ∧ ((user0 4 []).core (coreNum cid0)).pl = 2)
    ∧ ¬entryUsable (entry16 0x40 0x80000003 0x1000 0x100) 2
    ∧ (readEntry 0 0x3000000 (user0 4 [])).1 = none
    ∧ enteredCause ((user0 4 (List.replicate 31 ⟨2, none⟩)).core 0) 4 = 9
    ∧ (mayInterrupt (user0 17 []) 0 = true ∧ (pendingInterrupts (user0 17 []) 0) = [17]
      ∧ (readEntry 0 (0x800 + (4 * 17 + 2) * 16) (dropWaiter 0 (user0 17 []))).1 = some (entry16 0x40 0x80000001 0x1000 0x100))
    ∧ mayInterrupt (core0 {}) (coreNum cid0) = false
    ∧ (coreClocked (core0 { imprec := some 7 }) 0 = true ∧ ((core0 { imprec := some 7 }).core 0).imprec = some 7
      ∧ ((core0 { imprec := some 7 }).core 0).phase ≠ .stopped
      ∧ atBoundary (core0 { imprec := some 7 }) 0 = true)
    ∧ (((core0 { late := [1] }).core 0).imprec = none ∧ coreClocked (core0 { late := [1] }) 0 = true)
    ∧ (NoPair cid0 (user0 4 []) ∧ vectorWaits 0 4 (user0 4 []) = false ∧ vectorWaits 0 17 (dropWaiter 0 (user0 17 [])) = false)
    ∧ vectorWaits 0 0 (core0 { vbase := 0x40000000 }) = false
    ∧ vectorWaits 128 4 { core0 {} with cores := [(128, { phase := .running, vbase := 0x80000000 })] } = true := by decide +kernel

/-- The WMA interrupt of `user0`: the frame, the new stack, the saved status and the latch. -/
theorem test_interrupt :
    (fun (k : Core) => (k.pc, k.st, k.xst, k.slim)) (after0 (.interruptTaken cid0) (user0 17 [])) = (0x40, 0x103, 0x603, 0x100)
    ∧ (fun (k : Core) => (k.frames, k.g, k.intWma)) (after0 (.interruptTaken cid0) (user0 17 []))
      = ([⟨2, some (0x3000, 0x2000)⟩], [(15, 0x1000)], false) := by decide +kernel

/-- Core 0 at Supervisor level in a handler entered from User level, with `xst` and a call-gate entry 5 at 0x100. -/
def super0 (xst ctl : Nat) (frames : List Frame) : State :=
  core0 { st := 0x100
          xst := BitVec.ofNat 32 xst
          xpc := 0x80
          gtbase := 0xB0
          gtlim := 6
          frames := frames
          loc := Memory.write 0 [] 0x100 (entry16 0x200 ctl 0x1000 0x100) }

theorem witness_ReturnsGatesForgeries :
    (Issues cid0 false (super0 0x603 0 [⟨2, some (0x3000, 0x2000)⟩])
      ∧ (atIssue cid0 false (super0 0x603 0 [⟨2, some (0x3000, 0x2000)⟩])).pl = 1)
    ∧ ((0x500 : Word).toNat / 256 % 4 ≠ 2)
    ∧ (Issues cid0 false (core0 { st := 0x200 }) ∧ (atIssue cid0 false (core0 { st := 0x200 })).pl = 2)
    ∧ ((readEntry 0 (0xB0 + 16 * 5) (fetched cid0 false (super0 0 0x80000004 []))).1 = some (entry16 0x200 0x80000004 0x1000 0x100)
      ∧ (leAt (entry16 0x200 0x80000004 0x1000 0x100) 4 4).testBit 31 = true
      ∧ (readEntry 0 (0xB0 + 16 * 5) (fetched cid0 false (super0 0 0x80000004 []))).2.core 0
        = (fetched cid0 false (super0 0 0x80000004 [])).core 0)
    ∧ (readEntry 128 (0x800 + 640) (dropWaiter 128 (raise srcPrivForge [1, 0x3F, 0] { core0 {} with
          cores := [(128, { phase := .running, vbase := 0x800, loc := Memory.write 0 [] (0x800 + 640) (entry16 0x40 0x80000000 0 0) })] }))).1
        = some (entry16 0x40 0x80000000 0 0) := by decide +kernel

/-- RETX of a frame restores level, stack and PC; the example of R294 (XST 0x500 under witness 2) does not return. -/
theorem test_retx :
    ((fun (k : Core) => (k.pc, k.st, k.frames, k.g, k.slim))
        (after0 (.retx cid0 ⟨0, 0, 0, 0⟩) (super0 0x603 0 [⟨2, some (0x3000, 0x2000)⟩])) = (0x80, 0x603, [], [(15, 0x3000)], 0x2000))
    ∧ retxForges ((super0 0x500 0 [⟨2, some (0x3000, 0x2000)⟩]).core 0) = true := by decide +kernel

/-- GATE 5 to a Monitor callee pushes the caller's level and stack, with XPC behind it. -/
theorem test_gate :
    (fun (k : Core) => (k.pc, k.xpc, k.pl, k.slim, k.frames)) (after0 (.gate cid0 ⟨0, 5⟩) (super0 0 0x80000004 [])) = (0x200, 4, 0, 0x100, [⟨1, some (0, 0)⟩]) := by decide +kernel

/-! ### The Reed fabric -/

/-- Core 0 of gable 1 with g1 as given and the fabric as given. -/
def reed0 (g1 : Word) (r : ReedState) : State := { core0 { g := [(1, g1)] } with rfb := r }

/-- A Reed command with its argument in g1, its result to `rd`. -/
def rop (rd : BitVec 4) (imm : BitVec 16) : ReedOp := ⟨rd, 1, 0, imm⟩

/-- An open packet of one word for queue 32. -/
def open32 : ProdCtx := { isOpen := true, typ := 0x101, dest := 32, words := [7] }

def ready0 (op : Nat) (o : ReedOp) (arg : Word) (s : State) : Bool :=
  decide (ReedIssues op cid0 o arg (atIssue cid0 true s) 0 s (fetched cid0 true s))

theorem witness_ReedProducer :
    ready0 1 (rop 0 0x101) 0x420020 (reed0 0x420020 {}) = true
    ∧ (ready0 2 (rop 0 0) 9 (reed0 9 { prod := [(0, open32)] }) = true ∧ TakesWords (prodOf (fetched cid0 true (reed0 9 { prod := [(0, open32)] })) 0)
      ∧ moreCells open32 1 ≤ cellsFree (fetched cid0 true (reed0 9 { prod := [(0, open32)] })) 1)
    ∧ cellsFree (reed0 9 { used := [(1, 64)] }) 1 < moreCells { open32 with words := List.replicate 16 0 } 1
    ∧ (ready0 3 (rop 0 8) 0x100 (reed0 0x100 { prod := [(0, open32)] }) = true ∧ putSource 0 0x100 = true
      ∧ coreLoad 0 0x100 8 (fetched cid0 true (reed0 0x100 { prod := [(0, open32)] }))
        = (.ok (List.replicate 8 0), fetched cid0 true (reed0 0x100 { prod := [(0, open32)] })))
    ∧ (ready0 4 (rop 2 0) 0 (reed0 0 { prod := [(0, open32)] }) = true
      ∧ (queueOwner (fetched cid0 true (reed0 0 { prod := [(0, open32)] })) 32).isSome = true)
    ∧ (ready0 4 (rop 2 0) 0 (reed0 0 { prod := [(0, { open32 with sink := true, dest := 0, typ := 2 })] }) = true)
    ∧ (ready0 4 (rop 2 0) 0 (reed0 0 { prod := [(0, { open32 with sink := true, dest := 1, typ := 0x10 })] }) = true
      ∧ accessesDone (fetched cid0 true (reed0 0 {})) (coreNum cid0) = true)
    ∧ (ready0 4 (rop 2 0) 0 (reed0 0 {}) = true ∧ (prodOf (fetched cid0 true (reed0 0 {})) 0).isOpen = false)
    ∧ ready0 5 (rop 0 0) 0 (reed0 0 { prod := [(0, open32)] }) = true := by decide +kernel

/-- The packet of `open32`, committed. -/
def packet32 : Packet := { typ := 0x101, words := [7, 8], prod := 1 }

theorem witness_ReedConsumer :
    (ready0 8 (rop 2 0) 32 (reed0 32 { queues := [(32, [packet32])] }) = true
      ∧ mayTake (fetched cid0 true (reed0 32 { queues := [(32, [packet32])] })) 0 32 = true
      ∧ queueOf (fetched cid0 true (reed0 32 { queues := [(32, [packet32])] })) 32 = [packet32]
      ∧ waitersOf (fetched cid0 true (reed0 32 { queues := [(32, [packet32])] })) 32 = [])
    ∧ (ready0 8 (rop 2 0) 5 (reed0 5 {}) = true ∧ mayTake (fetched cid0 true (reed0 5 {})) 0 5 = false)
    ∧ (ready0 8 (rop 2 0) 32 (reed0 32 {}) = true ∧ queueOf (fetched cid0 true (reed0 32 {})) 32 = [])
    ∧ ready0 9 (rop 2 0) 0 (reed0 0 { cons := [(0, { pkt := some packet32 })] }) = true
    ∧ (ready0 0x0A (rop 0 8) 0x100 (reed0 0x100 { cons := [(0, { pkt := some packet32 })] }) = true
      ∧ (coreStore 0 0x100 [7, 0, 0, 0, 8, 0, 0, 0] (fetched cid0 true (reed0 0x100 { cons := [(0, { pkt := some packet32 })] }))).1 = .ok [])
    ∧ ready0 0x0B (rop 2 0) 0 (reed0 0 { cons := [(0, { pkt := some packet32 })] }) = true
    ∧ ready0 0x0C (rop 2 0) 0 (reed0 0 {}) = true ∧ ready0 0x0D (rop 2 0) 32 (reed0 32 {}) = true := by decide +kernel

/-- Core 0 stalled in TAKE of queue 32 with RD 2, a packet just committed. -/
def stalled0 : State :=
  { core0 {} with
    cores := [(0, { phase := .stalledTake 32 2 })]
    rfb := { queues := [(32, [packet32])], waiters := [(32, [0])] } }

theorem witness_stalls :
    (coreClocked stalled0 0 = true ∧ (stalled0.core 0).phase = .stalledTake 32 2 ∧ (waitersOf stalled0 32).head? = some 0
      ∧ queueOf stalled0 32 = [packet32])
    ∧ (match (wmaIssue 0 0 0 0x0A op0 { core0 {} with cores := [(0, { phase := .stalledCopi 0x0A op0 })] }).1 with
      | some none => true
      | _ => false) = true
    ∧ (fld (0x40000000 : Word) 27 5 = 8 ∧ fld (0x0A000000 : Word) 27 5 = 1)
    ∧ (atIssue cid0 true { reed0 0 {} with cores := [(0, { phase := .running, st := 0x200, icache := [(0, true)] })] }).pl = 2 := by
  decide +kernel

/-- The commands of the example: TAKE's COPI returns the descriptor of an 18-word packet of TYPE 1, and GETB's moves it on. -/
theorem test_take :
    (match exec (.copi cid0 ⟨2, 1, 1, 0, 0x40000000⟩)
        (reed0 32 { queues := [(32, [{ typ := 1, words := List.replicate 18 5 }])] }) with
      | .next t => ((t.core 0).reg 2, (t.core 0).pc, (queueOf t 32).length)
      | _ => (0, 0, 0)) = (0x10012, 8, 0) := by decide +kernel

/-- A packet committed to a sink by core 0 of truss 0 at Monitor level carries its gable as source. -/
theorem test_commit :
    (match exec (.reedCommit cid0 (rop 2 0)) (reed0 0 { prod := [(0, { open32 with sink := true, dest := 0, typ := 2 })] }) with
      | .next t => ((t.core 0).reg 2, t.rfb.sink0.map (·.src))
      | _ => (0, [])) = (0, [1]) := by decide +kernel

/-! ### Target gates -/

/-- Gable 1 of the example of chapter 11: three entries on truss 0. -/
def gated : State :=
  { core0 {} with
    img := { (core0 {}).img with
      latched := { (core0 {}).img.latched with
        gates := [⟨1, 0, 0, 5, 2, 1, 0x20000, 0x2ffff, true⟩, ⟨1, 0, 1, 3, 2, 1, 0x30000, 0x3ffff, true⟩, ⟨1, 0, 2, 1, 1, 5, 0x10000, 0x1ffff, true⟩] } }
    gte := { seq := 5 } }

/-- The accesses of the example: level, class, offset, length, kind and what the gate decides. -/
theorem test_gate_example :
    ([(2, 0, 0x30010, 4, 0), (2, 0, 0x20040, 4, 2), (2, 0, 0x20100, 4, 1), (1, 0, 0x2ffe0, 64, 0), (1, 0, 0x10020, 4, 1),
      (1, 2, 0x10000, 48, 0), (1, 2, 0x10000, 48, 1), (1, 0, 0x800, 4, 1), (2, 0, 0x4000, 4, 0), (1, 0, 0x4000, 4, 0)].map
        fun (p : Nat × Nat × Nat × Nat × Nat) => gateDecide gated ⟨1, p.1, p.2.1, 0, 0, 1, false⟩ 0 p.2.2.1 p.2.2.2.1 p.2.2.2.2)
      = [.pass, .pass, .refuse 1 (some 0), .refuse 2 (some 0), .refuse 1 (some 2), .pass, .refuse 1 (some 2), .refuse 4 none,
        .refuse 0 none, .pass] := by decide +kernel

/-- The fault record and the mirror of the example. -/
theorem test_fault_record :
    (recordRefusal ⟨1, 2, 0, 0, 0, 1, false⟩ 0 0x20100 4 1 1 (some 0) gated).gte.fifo
      = [⟨0x00200201, 0x05111000, 0x20100, 4⟩]
    ∧ [0x201000, 0x201008, 0x20100C].map (readReg gated) = [0x80010125, 0x20000, 0x2ffff] := by decide +kernel

/-- `gated` in the DEV lifecycle state. -/
def gatedDev : State := { gated with eav := { gated.eav with fuses := { halfA := 1 <<< 140 } } }

theorem witness_TargetGates :
    (fixedRefusal gated ⟨1, 2, 0, 0, 0, 1, false⟩ 0 0x20100 4 1 = none
      ∧ entriesOf gated 0 = [] ++ ⟨1, 0, 0, 5, 2, 1, 0x20000, 0x2ffff, true⟩ :: (entriesOf gated 0).tail
      ∧ holds ⟨1, 2, 0, 0, 0, 1, false⟩ 0x20100 ⟨1, 0, 0, 5, 2, 1, 0x20000, 0x2ffff, true⟩)
    ∧ (fixedRefusal gated ⟨1, 2, 0, 0, 0, 1, false⟩ 0 0x4000 4 0 = none
      ∧ ∀ y ∈ entriesOf gated 0, ¬holds ⟨1, 2, 0, 0, 0, 1, false⟩ 0x4000 y)
    ∧ ownerOf gated 5 ≠ 1 ∧ ownerOf gated 0 = 1
    ∧ RegTakes .warden 0x200030 kWrite gated
    ∧ lifecycle gated ≠ lcDev
    ∧ (lifecycle gatedDev = lcDev ∧ powered gatedDev = true)
    ∧ tagAdmits gatedDev (debugTag gatedDev 0) 0 0x100 4 kWrite = (.pass, 0x20, 0x100)
    ∧ tagAdmits gatedDev (debugTag gatedDev 0) 0 0x100 4 kRead = (.pass, 0x20, 0x100)
    ∧ (tagAdmits gatedDev (debugTag gatedDev 0) 0 0x80000000 4 kRead = (.pass, tgtSealed, 0)
      ∧ sealedWaits gatedDev tgtSealed = true ∧ sealedWaits gatedDev 0x20 = false)
    ∧ (tagAdmits gatedDev (debugTag gatedDev 0) 0 0x3000000 4 kWrite).1 = .refuse 7 none
    ∧ (tagAdmits gatedDev (debugTag gatedDev 128) 128 0x21400000 4 kRead).1 = .refuse 6 none := by decide +kernel

/-! ### The flash store -/

/-- A die on which spares 0 to n − 1 serve sectors 9000 on. -/
def spares (n : Nat) : FlashDie :=
  { spareOf := (List.range n).map fun k => (9000 + k, some k)
    named := (List.range n).map fun k => (k, true) }

/-- The example of chapter 12: spares 0 to 16 serve sectors, and two words wait for flash address 0x206_CA30. -/
def worn17 : State :=
  { up with
    flash := spares 17
    flc := { addr := 0x206CA30, critEnd := 8191, data := [(0, 0x11111111), (1, 0x22222222), (2, 0x33333333), (3, 0x44444444)] } }

/-- Registers after a PROG of two words that goes as `out` says. -/
def progRegs (out : FlashOutcome) : List Word :=
  match exec (.prog .warden 1) worn17 with
  | .next t => match exec (.progComplete out) t with
    | .next u => [0x80010C, 0x800110, 0x800120, 0x800128, 0x800010].map (readReg u)
    | _ => []
  | _ => []

/-- The two warnings and the retirement of the example: FLC_STAT, FLC_RSTAT, FLC_WARN, FLC_RETIRE, FLC_ICAUSE. -/
theorem test_flash_example :
    progRegs ⟨some 1, 1, 0⟩ = [0x1002, 0x8001, 0x206C, 0, 5] ∧ progRegs ⟨some 5, 0, 0⟩ = [0x5002, 0, 0x606C, 0, 9]
    ∧ progRegs ⟨none, 0, 0⟩ = [0x8802, 0, 0, 0x4606C, 0x11] := by decide +kernel

/-- The worn state with the field values given. -/
def flashWith (f : FlcState → FlcState) : State := { worn17 with flc := f worn17.flc }

/-- A journal-port PROG of word 3 of line 5 in progress. -/
def porting : State := flashWith fun f => { f with
  addr := 320
  jport := [(344, 7), (352, 8)]
  jrun := some (344, 7) }

/-- Line 5 with a word of two bits in error at 40, and one that a PROG lost at 41. -/
def marked : State :=
  { flashWith fun f => { f with addr := 320 } with
    flash := { worn17.flash with cells := [(40, some ⟨5, 3, false⟩), (41, some ⟨6, 0, true⟩)] } }

theorem witness_FlashReadCommand :
    (FlcTakes (flashWith fun f => { f with addr := 320 }) ∧ jportIn (flashWith fun f => { f with addr := 320 }) 5 = false
      ∧ lineLost (flashWith fun f => { f with addr := 320 }) 5 = false)
    ∧ (FlcTakes marked ∧ jportIn marked 5 = false ∧ lineLost marked 5 = true
      ∧ ((flashCell marked 40).map (·.lost)).getD false = false)
    ∧ (FlcTakes porting ∧ porting.flc.jrun = some (344, 7) ∧ 344 / 64 = porting.flc.addr / 64 ∧ InLine porting 344 [7]
      ∧ lineLost (putFlashWord 43 7 porting) 5 = false) := by decide +kernel

/-- The warden running at the start of flash, its gate with the structure that admits it. -/
def fetching : State := { worn17 with flc := { worn17.flc with prefetch := [9] } }

theorem witness_FlashOperations :
    (PairTakes .warden 0x800100 porting ∧ flcChecks porting 6 6 0 ≠ 0)
    ∧ readSuspended worn17 0 = false
    ∧ (popCount (bitsBad marked 40 0) = 2 ∧ readsOnes (cellData marked 40) (bitsBad marked 40 0) = false
      ∧ popCount (bitsBad marked 41 1) = 1)
    ∧ (FlcTakes worn17 ∧ worn17.flc.addr % 8 = 0 ∧ worn17.flc.addr % 64 + 8 * 2 ≤ 64 ∧ isWorn worn17 0x206C = false
      ∧ wordErased worn17 (worn17.flc.addr / 8) = true ∧ wordErased worn17 (worn17.flc.addr / 8 + 1) = true)
    ∧ InLine worn17 0x206CA30 [1, 2] := by decide +kernel

theorem witness_FlashOperations_erase :
    (SpareReady { worn17 with flash := spares 17 } 0x206C 17 ∧ SMap.wf none worn17.flash.cells = true
      ∧ spareFor { worn17 with flash := spares 264 } 0x206C = none)
    ∧ (FlcTakes (flashWith fun f => { f with addr := 0x206C000 })
      ∧ isWorn (flashWith fun f => { f with addr := 0x206C000 }) 0x206C = false)
    ∧ (PairTakes .warden 0x800100 (flashWith fun f => { f with erase := .auto })
      ∧ FlcTakes (flashWith fun f => { f with erase := .suspended }))
    ∧ (portWants porting = true ∧ portWants worn17 = false ∧ porting.flc.addr % 8 = 0
      ∧ FlcTakes (flashWith fun f => { f with
        addr := 0x206C000
        jrun := some (344, 7) })) := by decide +kernel

theorem witness_FlashOperations_array :
    (powered worn17 = true ∧ portMay (flashWith fun f => { f with run := .prog 0x206CA30 [1] false }) = true
      ∧ readWaits (flashWith fun f => { f with erase := .running }) = false
      ∧ jportCheck (autoSuspend (flashWith fun f => { f with erase := .running, eraseSect := 9 })) 344 = stOk)
    ∧ (porting.sym.ctr.rewrite = .none ∧ InLine porting 344 [7])
    ∧ (wardenUp fetching = true ∧ (fetching.core wardenNum).icache = []
      ∧ (decide (coreGate wardenNum (fetching.core wardenNum).pl (64 * (0x20000240 / 64)) 64 kExec fetching = (some (tgtFlash0, 576), fetching))) = true
      ∧ xipHit fetching 9 = true ∧ xipHit worn17 9 = false ∧ lineLost (autoSuspend worn17) 9 = false)
    ∧ readWaits (flashWith fun f => { f with
      erase := .running
      autosus := false }) = true
    ∧ nextPrefetch (flashWith fun f => { f with lastFill := some 4 }) = some 5 := by decide +kernel

/-! ### The Eave supervisor -/

/-- What a boot meets, where a step needs it and does not boot. -/
def env0 : BootEnv := { eaveMarker := true, calRow := [], temp := 25, vidAck := true, entropyPass := 15, selfTest := 0 }

/-- The module of the example of chapter 13, in Vault, with its retained table. -/
def inVault : State :=
  { sys := { power := .vault }
    eav := {
      aon := 0x1A2B3C40
      seq := 0x312
      vault := [(0x40, 7)]
      retained := some ((List.range 22).map fun n => if n = 4 then ⟨4, 3⟩ else if n = 7 then ⟨2, 1⟩ else ⟨0, 1⟩) } }

/-- A step's next state. -/
def after (i : Instr) (s : State) : State :=
  match exec i s with
  | .next t => t
  | _ => {}

/-- The group of the example, SWITCH2 detected first: its two entries, the cleared vault, EAV_PENDING and EAV_LEVEL. -/
theorem test_ring_example :
    (fun (t : State) => (SMap.get [] t.eav.ring 0, SMap.get [] t.eav.ring 1, t.eav.vault, [0x100030, 0x100020, 0x100040].map (readReg t)))
      (after (.arbitrationStep env0) (after (.sourceDetection 4 [1, 0]) (after (.sourceDetection 7 []) inVault)))
      = ([0x12, 0x03, 0, 0, 0, 0x04, 0x01, 0xe4, 0x40, 0x3c, 0x2b, 0x1a, 0, 0, 0, 0, 1, 0, 0, 0, 0, 0, 0, 0, 0, 0, 0, 0, 0, 0, 0, 0],
        [0x12, 0x03, 0, 0, 1, 0x07, 0x01, 0x62, 0x40, 0x3c, 0x2b, 0x1a, 0, 0, 0, 0, 0, 0, 0, 0, 0, 0, 0, 0, 0, 0, 0, 0, 0, 0, 0, 0],
        [], [1, 0x340, 2]) := by decide +kernel

/-- A loop that stays open raises no second event, and one that closes may raise another. -/
theorem test_condition_source :
    (after (.sourceDetection 4 [1, 0]) (after (.sourceDetection 4 [1, 0]) inVault)).eav.detected.length = 1
    ∧ (after (.sourceDetection 4 [1, 0]) (after (.sourceInactive 4) (after (.sourceDetection 4 [1, 0]) inVault))).eav.detected.length
      = 2 := by decide +kernel

/-- `up` with the Eave die given. -/
def upEav (f : EaveState → EaveState) : State := { up with eav := f up.eav }

theorem witness_EaveSupervisor :
    (srcMonitored inVault 1 = false ∧ srcMonitored inVault 4 = true)
    ∧ groupLevel inVault [(0x14, [])] < 2 ∧ groupLevel inVault [(4, [])] = 4 ∧ groupLevel inVault [(7, [])] = 2
    ∧ mainPower inVault = false
    ∧ (answers up = true ∧ groupLevel up [(0x12, [])] = 2 ∧ groupLevel up [(0x10, [])] = 3 ∧ groupLevel up [(0, [])] = 4
      ∧ mainPower up = true ∧ groupLevel up [(0x14, [])] = 0)
    ∧ (PairTakes .warden 0x100028 up ∧ activeAt up 3 = false ∧ activeAt (upEav fun e => { e with active := 1 }) 3 = true
      ∧ PairTakes .warden 0x100028 (upEav fun e => { e with active := 1 }))
    ∧ PairTakes .warden 0x100048 up := by decide +kernel

/-- VCORE requested at 800 mV, with a change from 775 mV under way where `old` is given. -/
def atCode (old : Option Nat) : State := { up with elec := { up.elec with
  vidReq := 60
  vidOld := old } }

theorem witness_EaveSupervisor_readings :
    (elementMonitored inVault 4 [1, 0] = true ∧ srcMonitored inVault 4 = true)
    ∧ (srcMonitored up 18 = true ∧ NotOfPair 18 [2, 0, 0, 0, 1, 0, 0, 0] ∧ ¬NotOfPair 18 [3, 0, 0, 0, 1, 0, 0, 0])
    ∧ (srcMonitored (atCode none) 10 = true ∧ mainPower (atCode none) = true ∧ (atCode none).eav.active.getLsbD 10 = false)
    ∧ (outsideVcore 60 60 720 = false ∧ outsideVcore 60 60 719 = true ∧ outsideVcore 60 60 880 = false ∧ outsideVcore 60 60 881 = true
      ∧ outsideVcore 50 60 719 = false ∧ outsideVcore 50 60 690 = true)
 := by decide +kernel

theorem witness_EaveSupervisor_lid : ReadingIn 9 [1, 0, 0xF4, 1] ∧ ¬ReadingIn 9 [1, 0, 0x20, 0] := by decide +kernel

theorem witness_EaveSupervisor_heat : ReadingIn 0x0E [0, 0, 0x30, 7] ∧ ¬ReadingIn 0x0E [0, 0, 0x31, 7] := by decide +kernel

theorem witness_EaveSupervisor_retained :
    mainPower inVault = false ∧ (inVault.eav.retained.map (·.length)) = some 22
    ∧ (activeAt (after .mainPowerLoss up) 4 = false ∧ mainPower up = true) := by decide +kernel

theorem witness_EaveSupervisor_scrub :
    ((([(0x100028, ⟨none, true, false⟩)] : SMap Pair).find? fun p => p.1 == 0x100028).any fun p => p.2.work) = true
    ∧ inVault.sys.power = .vault ∧ up.sys.power ≠ .vault
    ∧ levelOf { up with img := { locked := true, latched := { alarm := [⟨1, 0⟩] }, latchBad := [.level 0] } } 0 = 5 := by
  decide +kernel

/-! ### The slate port and ceremonies -/

/-- The frames of the example of chapter 14, and the first bytes of the pattern of R407. -/
theorem test_slate_frames :
    slateFrame 4 0x2A 0 = [0x44, 0x2a, 0, 0, 0, 0, 0x6b] ∧ slateReply 4 0x2A 0 0x11 = [0x04, 0x2a, 0, 0, 0, 0x11, 0x6a]
    ∧ tunePattern.take 3 = [0xA5, 0x9E, 0xD3] := by decide +kernel

/-- Taps 0 to 3 and 28 to 31 pass: the run starts at 28, and its centre is tap 31; five taps are no window. -/
theorem test_tuning :
    chosenTap [0, 1, 2, 3, 28, 29, 30, 31] = some 31 ∧ chosenTap (List.range 32) = some 15 ∧ chosenTap [3, 4, 5, 6, 7] = none := by
  decide +kernel

/-- The ceremony of the example of chapter 14 at step 9, C2's STEP on slot A, at a stage. -/
def backup0 : Ceremony :=
  { typ := 7, target := 0, param := 0x302, subject := [], digest := [], required := 2, mask := 1, counted := [[1], [2]],
    wrote := [([1], 1)], pendingW := [([2], 2)], post := 1, unconf := 1, stepSlot := some 0 }

/-- The module at that step, its ceremony journal one worn sector, in which no record programs. -/
def stepping (c : Ceremony) (st : SlotStage) (ph : CerPhase) : State :=
  { up with
    img := { latched := { partition := { cerj := 1 } } }
    flash := { worn := [(7424, true)] }
    slt := {
      slots := [(0, { present := true, powered := true, proto := 1, step := true, stage := st, seq := 0x2A, custId := [2],
                      writeX := 2, writeB := 5, expect := 0x11 })]
      cer := some c
      busy := true
      phase := ph
      roster := [⟨[1], [], 0⟩, ⟨[2], [], 0⟩, ⟨[3], [], 0⟩]
      quorum := [(4, (2, 1)), (7, (2, 1))] } }

/-- The STATUS that shows WSEQ 0x0011 confirms the write; one that shows 0x0010 leaves it unconfirmed. -/
theorem test_share_write :
    (fun (t : State) => (t.slt.status, t.slt.cer.map (·.post), t.slt.cer.map (·.wrote.length), t.slt.cause))
        (after (.slateResponse 0 ⟨slateReply 4 0x2A 0 0x11⟩) (stepping backup0 (.postStatus 5) .postQuorum))
      = (0, some 2, some 2, 3)
    ∧ (fun (t : State) => (t.slt.status, t.slt.cer.map (·.post), t.slt.cer.map (·.wrote.length), t.slt.cause))
        (after (.slateResponse 0 ⟨slateReply 4 0x2A 0 0x10⟩) (stepping backup0 (.postStatus 5) .postQuorum))
      = (stAborted, some 1, some 1, 0x43) := by decide +kernel

/-- OPEN of a ROOT_BACKUP needs an open key store; with too few custodians in the mask it is NOT_PERMITTED. -/
theorem test_open_checks :
    openStatus { stepping backup0 .off .idle with slt := { (stepping backup0 .off .idle).slt with cer := none } } 7 0 0x302
      (List.replicate 48 0) false false = stStateRefused
    ∧ openStatus { stepping backup0 .off .idle with
        ks := { phase := .isOpen }
        slt := { (stepping backup0 .off .idle).slt with cer := none } } 7 0 0x302 (List.replicate 48 0) false false = stOk
    ∧ openStatus { stepping backup0 .off .idle with
        ks := { phase := .isOpen }
        slt := { (stepping backup0 .off .idle).slt with cer := none, roster := [⟨[1], [], 0⟩, ⟨[2], [], 1⟩] } } 7 0 0x302
        (List.replicate 48 0) false false = stNotPermitted
    ∧ openStatus { stepping backup0 .off .idle with slt := { (stepping backup0 .off .idle).slt with cer := none } } 7 0 0x203
        (List.replicate 48 0) false false = stRange := by decide +kernel

/-- An approval ceremony of two custodians with one counted, at a stage of the second one's STEP. -/
def approving (st : SlotStage) : State :=
  { stepping { backup0 with typ := 4, counted := [[1]] } st .approving with img := { (stepping backup0 st .approving).img with phase := .staged } }

/-- A block with its own CRCs arrives whole. -/
theorem block_good (rate : Nat) (bs : List Byte) : blockGood rate bs.length ⟨bs, blockCrcs rate bs⟩ = true := by
  simp [blockGood]

theorem witness_SlatePortAndCeremonies_steps :
    (StepRuns 0 backup0 (stepping backup0 (.postStatus 5) .postQuorum) ∧ backup0.wrote.length + 1 < backup0.param / 256)
    ∧ (StepRuns 0 { backup0 with typ := 4, counted := [[1]] } (approving .replyBlock)
      ∧ rosterCounts (approving .replyBlock) { backup0 with typ := 4, counted := [[1]] } [2] = true
      ∧ ((backup0.counted.contains (slotOf (approving .replyBlock) 0).custId) = true)
      ∧ rosterCounts (approving .replyBlock) { backup0 with mask := 2 } [2] = false)
    ∧ StepRuns 0 backup0 (stepping backup0 (.busy 5) .postQuorum)
    ∧ powered up = true ∧ (slotOf up 0).present = false := by decide +kernel

/-- Slot A with a card or slate outside a STEP, at a stage. -/
def carded (proto : Nat) (st : SlotStage) : State :=
  { up with slt := { slots := [(0, { present := true, powered := true, proto := proto, stage := st })] } }

theorem witness_SlatePortAndCeremonies_cards :
    (SlotServed 0 (carded 0 .ident) ∧ (slotOf (carded 0 .ident) 0).retries < 3 ∧ (slotOf (carded 0 .ident) 0).rate = 0)
    ∧ (SlotServed 0 (carded 1 .identBlock) ∧ SlotServed 0 (carded 1 (.writeToken 3)) ∧ SlotServed 0 (carded 1 (.busy 3))
      ∧ SlotServed 0 (carded 1 .poll))
    ∧ (SlotServed 0 (carded 2 (.atr false)) ∧ SlotServed 0 (carded 2 (.atr true)) ∧ SlotServed 0 (carded 2 .ifs)
      ∧ 5 ≤ (slotOf (carded 2 .ifs) 0).ifsc)
    ∧ (crc8 [9, 0, 0, 0, 0, 0] ≠ 0) := by decide +kernel

/-- A module with an open ceremony, no STEP running. -/
def waiting (ph : CerPhase) : State :=
  { up with slt := {
      slots := [(0, { present := true })]
      cer := some { backup0 with stepSlot := none }
      phase := ph } }

theorem witness_SlatePortAndCeremonies_commands :
    (CerTakes .warden (waiting .approving) ∧ (slotOf (waiting .approving) 0).present = true)
    ∧ CerTakes .warden (waiting .exportOpen) ∧ CerTakes .warden up ∧ up.slt.cer = none
    ∧ openStatus up 0 0 0 (List.replicate 48 0) false false = stUnsupported := by decide +kernel

/-! ### The cascade -/

/-- The table of a cascade of three at EPOCH 5, with ridge 0 and successor 1; this module, of serial 0, is member `me`. -/
def three (me : Nat) : CascadeTable :=
  { n := 3, ridge := 0, epoch := 5, succ := 1, leaseLog2 := 12, hold := 10, fwdMask := 2, ksrkId := 0,
    members := (List.range 16).map fun m => if m = me then 0 else BitVec.ofNat 128 (m + 1) }

/-- Member `me` of it, with the other rafter on port 0; `reach` says which members are reachable. Both table sectors are worn, so
that no free outcome of a flash command stands between a table and its registers. -/
def inThree (me : Nat) (role : Role) (reach : Word) : State :=
  { up with
    ks := { phase := .isOpen }
    flash := { worn := [(7680, true), (7681, true)] }
    btn := {
      table := some (three me)
      member := me
      role := role
      reach := reach
      ports := [(0, { phase := .up, peer := some (3 - me), peerSer := 4 - me })] } }

/-- The loss of the ridge in the ring of three of chapter 15: member 1 asks, two votes are enough, and it becomes the
ridge of EPOCH 6 with member 2 as successor; BTN_CLUSTER then reads 0x0211_0301. -/
theorem test_loss_of_ridge :
    (fun (t : State) => (readReg t 0xA00200, readReg t 0xA0020C, t.btn.table.map (·.epoch)))
        (after (.voteRequest [2]) (after .ridgeLossTimeout (inThree 1 .rafter 6)))
      = (0x02110301, 6, some 6) := by decide +kernel

/-- Member 2 takes the table of EPOCH 6; BTN_CLUSTER reads 0x0212_0302. -/
theorem test_new_ridge :
    readReg (after (.cascadeTableUpdate { three 2 with epoch := 6, ridge := 1, succ := 2 } false) (inThree 2 .rafter 6)) 0xA00200
      = 0x02120302 := by decide +kernel

/-- Ports of module `inThree`: port 0 carries, port 1 in another phase. -/
def ported (p q : Port) : State := { inThree 1 .rafter 7 with btn := { (inThree 1 .rafter 7).btn with ports := [(0, p), (1, q)] } }

theorem witness_CascadeAndBatten_ports :
    (portsServe (ported {} { phase := .handshake }) = true ∧ wardenUp (ported {} {}) = true ∧ lanesUsed 7 = 3 ∧ lanesUsed 14 = 0)
    ∧ carries (btnPort (ported { phase := .up, rxSeq := 4 } {}) 0) = true
    ∧ 15 ≤ (btnPort (ported { phase := .up, tagTimes := List.replicate 15 0 } {}) 0).tagTimes.length
    ∧ (ported { phase := .up } {}).eav.aon ≤ ({ tagTimes := List.replicate 15 0 } : Port).tagTimes.getD 14 0 + 32
    ∧ (btnPort (ported {} { phase := .refused }) 1).phase = .refused := by decide +kernel

theorem witness_CascadeAndBatten_roles :
    (ridgeRoute (inThree 1 .rafter 6) = false ∧ ridgeRoute (inThree 1 .rafter 7) = true)
    ∧ memberIn (inThree 2 .rafter 6) (three 2) = some 2
    ∧ (reachable (inThree 0 .ridge 5) (three 0).succ = false ∧ (three 0).ridge = (inThree 0 .ridge 5).btn.member)
    ∧ ctrNextValue (inThree 1 .rafter 6) 5 = none ∧ mayJoin { up with ks := { phase := .empty } } = true := by decide +kernel

/-- The ridge with a key of gable 3 in slot 2. -/
def holding3 : State := putSealed (slotDir + 8) (leBytes 4 (mkWord [(26, 3), (24, 1)]).toNat) (inThree 0 .ridge 7)

theorem witness_CascadeAndBatten_keys :
    (bufHasPlace (inThree 0 .ridge 7) = true ∧ logHasRoom (inThree 0 .ridge 7) = true)
    ∧ dState (dirEntry holding3 false 2) = 1 ∧ dGable (dirEntry holding3 false 2) = 3 ∧ dGen (dirEntry holding3 false 2) = 0
    ∧ SealedGood { holding3 with msu := { holding3.msu with rootOk := true } } := by decide +kernel

theorem witness_CascadeAndBatten_work :
    routeTo (inThree 2 .rafter 7) 0 = some 0 ∧ powered (inThree 1 .rafter 7) = true
    ∧ (formed (inThree 1 .rafter 7) 1 = false ∧ bitOf (three 1).fwdMask.toNat 1 = true)
    ∧ ctrV (inThree 0 .ridge 7) 5 < ctrTop ∧ (inThree 0 .ridge 7).btn.grants = [] ∧ ctrB (inThree 0 .ridge 7) 5 = 0
    ∧ (appendJournal 1 4352 5 (inThree 0 .ridge 7)).1 = true := by decide +kernel

/-! ### System control -/

/-- `up` in another power state. -/
def inPower (p : PowerPhase) : State := { up with sys := { up.sys with power := p } }

/-- IRQ_N in the example of chapter 16: EVENT of EAV_ICAUSE is set and unmasked, SYS_ISUM reads 2, and W1C clears it. -/
theorem test_irq :
    (fun (s : State) => (readReg s 0, irqLow s, irqLow (after (.registerWrite .spi 0x100010 4 ⟨1, false⟩) s)))
      { up with eav := { cause := 1 } } = (2, true, false) := by decide +kernel

/-- The bins and weights of R473: 40.0 degrees in bin 3, 85 in bin 8, below 0 in bin 0, 110 and above in bin 13. -/
theorem test_bins :
    [(-16 : Int), 640, 1359, 1360, 1760].map (fun t => (tempBin t, binWeights.getD (tempBin t) 0))
      = [(0, 1), (3, 10), (7, 215), (8, 304), (13, 1722)] := by decide +kernel

/-- TEL_LIFE in the example of R502: 150,950,520 reads 0x0000_6D7B. -/
theorem test_life :
    readReg { up with tel := { counts := { eq85 := 150950520 } } } 0xB00020 = 0x00006D7B := by decide +kernel

/-- The parity of the VID frame: SET of 0x64 holds three ones in CODE and one in OP. -/
theorem test_vid_parity : vidParity 0x64 = false ∧ vidParity 0 = true := by decide +kernel

/-- Fuse 546 is the third of ROLLBACK: the floor is 3. -/
theorem test_rollback : rollback (blowFuse 546 up) = 3 ∧ rollback up = 0 := by decide +kernel

theorem witness_PowerAndBoot_resets :
    ((inPower .standby).elec.vaonOk = true ∧ (inPower .standby).elec.jtag ≠ .pinControl)
    ∧ PairTakes .warden 0x44 up ∧ mainPower up = true ∧ (inPower .stuck).sys.power = .stuck
    ∧ mainPower (after (.jtagInstruction .pinControl env0) up) = true := by decide +kernel

theorem witness_PowerAndBoot_power :
    (PairTakes .warden 0x100 up ∧ up.sys.pwrRun = .none ∧ up.slt.cer = none)
    ∧ PairTakes .spi 0x100 (inPower .idle) ∧ PairTakes .warden 0x100 { up with sys := { up.sys with pwrRun := .toIdle } }
    ∧ ((List.range 64).all fun f => fnInfl up f == 0) = true ∧ progRunning up = false := by decide +kernel

theorem witness_PowerAndBoot_firmware :
    (PairTakes .warden 0x144 up ∧ up.ret.rbReq < 128)
    ∧ (mgmtGate .spi 0x144 kWrite up = (true, up) ∧ mgmtGate .spi 0x148 kWrite up = (true, up))
    ∧ PairTakes .spi 0x15C up ∧ PairTakes .spi 0x15C (inPower .recovery) := by decide +kernel

theorem witness_PowerAndBoot_rest :
    (VidAt .toIdle (sendVid .toIdle 0 up) ∧ vidWaits (sendVid .toIdle 0 up) = true
      ∧ (sendVid .toIdle 0 up).elec.vidTry = 1 ∧ (sendVid .toIdle 0 up).elec.vidAlert = false)
    ∧ (after (.vidSet false) (sendVid .toActive 8 up)).elec.vidAlert = true
    ∧ (fuseFld up 136 4 = 0 ∧ fuseFld (blowFuse 136 up) 136 4 ≠ 0)
    ∧ (slotOf (carded 1 .ident) 0).powered = true ∧ wardenUp (carded 1 .ident) = true := by decide +kernel

theorem witness_IdentityTimeAndRecord :
    (PairTakes .warden 0x3A0 up ∧ PairTakes .warden 0x5A0 up)
    ∧ (answers up = true ∧ 0 < archSectors up ∧ RegTakes .spi 0x10 kRead up ∧ RegTakes .spi 0x14 kWrite up)
    ∧ (pfWindow 0x14 = none ∧ (pfWindow 0x380000).isSome = true) := by decide +kernel

/-- Outcomes with which a snapshot programs at position 0, whose sector is not worn and erased. -/
theorem witness_IdentityTimeAndRecord_snapshot :
    (([⟨some 1, 0, 0⟩, ⟨some 8, 0, 0⟩] : List FlashOutcome).all fun o => match o.pulses with
      | some p => decide (1 ≤ p ∧ p ≤ 8)
      | none => false) = true
    ∧ (List.replicate 8 (⟨some 1, 0, 0⟩ : FlashOutcome)).length = 8
    ∧ isWorn up (snapAddr up up.tel.snapPos / 4096) = false ∧ wordErased up (snapAddr up up.tel.snapPos / 8 + 63) = true
    ∧ (up.sys.timePhase ≠ .synchronised ∧ up.hqi.unsent = []) := by decide +kernel

/-! ### What stays -/

/-- A run state with fuse 546 blown and a seed. -/
def seeded : State :=
  { blowFuse 546 up with
    ret := { up.ret with seed := some (List.replicate 32 1) } }

theorem witness_StepRunsFront :
    { seeded with pending := [.registerRead .spi 0x10 4] }.pending = .registerRead .spi 0x10 4 :: [] := by decide +kernel

theorem witness_CamolWordsReadBack : (camolWords (.mullu cid0 ⟨6, 3, 2, 0⟩)).map (fun p => p.2.1) = some 0x018c8019 := by
  decide +kernel

theorem witness_FusesAndSeedStay :
    (match step { seeded with pending := [.registerRead .spi 0x10 4] } with
      | .next t => decide (t.pending = [])
      | _ => false) = true
    ∧ fuseFld seeded 546 1 = 1 ∧ seeded.ret.seed = some (List.replicate 32 1) := by decide +kernel


end Sys2Proof.Tests
end

section
/-! PROOFS. The management space (00_scope.md, R9 to R12): what an access of a register does, and what the halves of a
shadowed pair do. -/

namespace Sys2Proof.Machine

/-! ### Accesses of the management space (R10, R11, R336) -/

theorem exec_registerWrite (who : Who) (off width : Nat) (v : BusData) (s : State) :
    exec (.registerWrite who off width v) s = .next (registerWrite who off width v.value v.bad s) := rfl

theorem exec_registerRead (who : Who) (off width : Nat) (s : State) :
    exec (.registerRead who off width) s = .next (registerRead who off width s) := rfl

theorem exec_shadowPendingWrite (who : Who) (x : Nat) (v : Word) (s : State) (ha : answers s = true)
    (hx : pairOffs.contains x = true) :
    exec (.shadowPendingWrite who x v) s = .next (mgmtWrite32 who x v cleanLine cleanOut s).2 :=
  congrArg Host.Outcome.next (if_pos ⟨ha, hx⟩)

/-- Outside the doorbell windows an access of whole words goes through to the management space, and one of another width
or alignment does nothing (R11). -/
theorem registerWrite_plain (who : Who) (off width : Nat) (v : Dword) (s : State) (ha : answers s = true)
    (hv : isVf who = false) (hw : pfWindow off = none) :
    registerWrite who off width v false s
      = if width = 4 ∧ off % 4 = 0 then (mgmtWrite32 who off (v.setWidth 32) cleanLine cleanOut s).2
        else if width = 8 ∧ off % 8 = 0 then
          (mgmtWrite32 who (off + 4) (BitVec.ofNat 32 (v.toNat / 2 ^ 32)) cleanLine cleanOut
            (mgmtWrite32 who off (v.setWidth 32) cleanLine cleanOut s).2).2
        else s := by
  cases who <;> simp_all [registerWrite, isVf]

/-- A write of one word outside the doorbell windows. -/
theorem registerWrite_word (who : Who) (off : Nat) (v : Dword) (s : State) (ha : answers s = true)
    (hv : isVf who = false) (hw : pfWindow off = none) (h4 : off % 4 = 0) :
    registerWrite who off 4 v false s = (mgmtWrite32 who off (v.setWidth 32) cleanLine cleanOut s).2 := by
  rw [registerWrite_plain who off 4 v s ha hv hw, if_pos ⟨rfl, h4⟩]

/-- A read brings the data that the management space returns. -/
theorem registerRead_data (who : Who) (off width : Nat) (v : Dword) (s u : State) (ha : answers s = true)
    (hv : isVf who = false) (h : mgmtRead who off width s = (some v, u)) :
    registerRead who off width s = emit (.regData who off v) u := by
  cases who <;> simp_all [registerRead, isVf]

/-- A read that a gate refuses ends without data. -/
theorem registerRead_abort (who : Who) (off width : Nat) (s u : State) (ha : answers s = true) (hv : isVf who = false)
    (h : mgmtRead who off width s = (none, u)) : registerRead who off width s = emit (.regAbort who off) u := by
  cases who <;> simp_all [registerRead, isVf]

/-- A word that its gate admits is written. -/
theorem mgmtWrite32_admitted (who : Who) (off : Nat) (v : Word) (arr : LineRead) (out : FlashOutcome) (s : State)
    (hlt : off < 0xC00000) (hv : isVf who = false) (hg : mgmtGate who off kWrite s = (true, s)) :
    mgmtWrite32 who off v arr out s = (true, writeReg who off v arr out s) := by
  have hb : ¬(0xC00000 ≤ off ∨ isVf who = true) := by simp [hv]; omega
  simp [mgmtWrite32, hb, hg]

/-- A word that its gate admits is read, and the read latches what it latches. -/
theorem mgmtRead32_admitted (who : Who) (off : Nat) (s : State) (hlt : off < 0xC00000) (hv : isVf who = false)
    (hg : mgmtGate who off kRead s = (true, s)) : mgmtRead32 who off s = (some (readReg s off), readLatch off s) := by
  have hb : ¬(0xC00000 ≤ off ∨ isVf who = true) := by simp [hv]; omega
  simp [mgmtRead32, hb, hg]

/-- A word that its gate refuses is not read. -/
theorem mgmtRead32_refused (who : Who) (off : Nat) (s u : State) (hlt : off < 0xC00000) (hv : isVf who = false)
    (hg : mgmtGate who off kRead s = (false, u)) : mgmtRead32 who off s = (none, u) := by
  have hb : ¬(0xC00000 ≤ off ∨ isVf who = true) := by simp [hv]; omega
  simp [mgmtRead32, hb, hg]

/-- A write of a register that is no half of a pair reaches its block. -/
theorem writeReg_plain (who : Who) (off : Nat) (v : Word) (arr : LineRead) (out : FlashOutcome) (s : State)
    (hb : blockAnswers s off = true) (hp : s.sys.power ≠ .prep) (h : pairOf off = none) :
    writeReg who off v arr out s = writeBlock who off v s := by
  simp [writeReg, hb, hp, h]

/-- The registers of every block that hold causes and masks are no half of a pair and stand in no doorbell window. -/
theorem causeMask_offsets (b : Block) (o : Nat) (ho : o = 0x10 ∨ o = 0x14) :
    pairOf (blockBase b + o) = none ∧ pfWindow (blockBase b + o) = none ∧ (blockBase b + o) % 4 = 0
      ∧ blockAt ((blockBase b + o) / 0x100000) = some b ∧ (blockBase b + o) % 0x100000 = o := by
  rcases ho with rfl | rfl <;> cases b <;> decide

theorem writeBlock_cause (who : Who) (b : Block) (v : Word) (s : State) :
    writeBlock who (blockBase b + 0x10) v s = clearCause b v s := by
  obtain ⟨-, -, -, hb, ho⟩ := causeMask_offsets b 0x10 (.inl rfl)
  simp [writeBlock, hb, ho]

theorem writeBlock_mask (who : Who) (b : Block) (v : Word) (s : State) :
    writeBlock who (blockBase b + 0x14) v s = setMask b v s := by
  obtain ⟨-, -, -, hb, ho⟩ := causeMask_offsets b 0x14 (.inr rfl)
  simp [writeBlock, hb, ho]

/-- An admitted write of a cause or mask register of a block. -/
theorem exec_write_causeMask (who : Who) (b : Block) (o : Nat) (v : Dword) (s : State) (ho : o = 0x10 ∨ o = 0x14)
    (h : RegTakes who (blockBase b + o) kWrite s) :
    exec (.registerWrite who (blockBase b + o) 4 ⟨v, false⟩) s
      = .next (writeBlock who (blockBase b + o) (v.setWidth 32) s) := by
  obtain ⟨ha, hb, hp, hlt, hv, hg⟩ := h
  obtain ⟨hpair, hw, h4, -, -⟩ := causeMask_offsets b o ho
  rw [exec_registerWrite, registerWrite_word _ _ _ _ ha hv hw h4, mgmtWrite32_admitted _ _ _ _ _ _ hlt hv hg,
    writeReg_plain _ _ _ _ _ _ hb hp hpair]

/-- Writing a cause register clears the named bits, and nothing else of the state changes. -/
theorem clearCause_spec (b : Block) (v : Word) (s : State) :
    causeOf b (clearCause b v s) = causeOf b s &&& ~~~v ∧ maskOf b (clearCause b v s) = maskOf b s
      ∧ SameOutside [blockPart b] s (clearCause b v s) := by
  refine ⟨by cases b <;> rfl, by cases b <;> rfl, fun p hp => ?_⟩
  cases b <;> cases p <;> simp_all [SamePart, clearCause, blockPart]

/-- Writing a mask register puts its defined bits, and nothing else of the state changes. -/
theorem setMask_spec (b : Block) (v : Word) (s : State) :
    maskOf b (setMask b v s) = v &&& causeBits b ∧ causeOf b (setMask b v s) = causeOf b s
      ∧ SameOutside [blockPart b] s (setMask b v s) := by
  refine ⟨by cases b <;> rfl, by cases b <;> rfl, fun p hp => ?_⟩
  cases b <;> cases p <;> simp_all [SamePart, setMask, blockPart]

/-- A read latches at most the upper halves of the two counters, each at its own offset. -/
theorem readLatch_frame (off : Nat) (s : State) :
    SameOutside [.eav, .sys] s (readLatch off s) ∧ (off ≠ 0x100038 → (readLatch off s).eav = s.eav)
      ∧ (off ≠ 0x5B0 → (readLatch off s).sys = s.sys) := by
  unfold readLatch
  split
  next h =>
    refine ⟨fun p hp => ?_, fun hne => absurd h hne, fun _ => rfl⟩
    cases p <;> simp_all [SamePart]
  next =>
    split
    next h =>
      refine ⟨fun p hp => ?_, fun _ => rfl, fun hne => absurd h hne⟩
      cases p <;> simp_all [SamePart]
    next => exact ⟨fun p _ => by cases p <;> rfl, fun _ => rfl, fun _ => rfl⟩

end Sys2Proof.Machine

namespace Sys2Proof.Proofs
open Sys2Proof.Machine

/-- An access that is not of whole words is not carried out (R11). -/
theorem partWordAccess_nothing (who : Who) (off width : Nat) (v : Dword) (s : State) (hv : isVf who = false)
    (hw : pfWindow off = none) (h4 : ¬(width = 4 ∧ off % 4 = 0)) (h8 : ¬(width = 8 ∧ off % 8 = 0))
    (ha : answers s = true) :
    exec (.registerWrite who off width ⟨v, false⟩) s = .next s
      ∧ exec (.registerRead who off width) s = .next (emit (.regData who off 0) s) := by
  constructor
  · rw [exec_registerWrite, registerWrite_plain who off width v s ha hv hw, if_neg h4, if_neg h8]
  · have hread : mgmtRead who off width s = (some 0, s) := by rw [mgmtRead, if_neg h4, if_neg h8]
    rw [exec_registerRead, registerRead_data who off width 0 s s ha hv hread]

/-- An admitted read returns the register and leaves all but its output and the latches (R11). -/
theorem admittedRead (who : Who) (off : Nat) (s : State) (h : RegTakes who off kRead s) (h4 : off % 4 = 0) :
    ∃ t, exec (.registerRead who off 4) s = .next t
      ∧ t.out = .regData who off ((readReg s off).setWidth 64) :: s.out ∧ SameOutside [.out, .eav, .sys] s t
      ∧ (off ≠ 0x100038 → t.eav = s.eav) ∧ (off ≠ 0x5B0 → t.sys = s.sys) := by
  obtain ⟨ha, -, -, hlt, hv, hg⟩ := h
  obtain ⟨hframe, heav, hsys⟩ := readLatch_frame off s
  refine ⟨emit (.regData who off ((readReg s off).setWidth 64)) (readLatch off s), ?_, ?_, fun p hp => ?_, heav, hsys⟩
  · have hread : mgmtRead who off 4 s = (some ((readReg s off).setWidth 64), readLatch off s) := by
      rw [mgmtRead, if_pos ⟨rfl, h4⟩, mgmtRead32_admitted who off s hlt hv hg]
      rfl
    rw [exec_registerRead, registerRead_data who off 4 _ s _ ha hv hread]
  · have hout : (readLatch off s).out = s.out := hframe .out (by decide)
    simp [emit, hout]
  · have hsame := hframe p (by simp_all)
    cases p <;> simp_all [SamePart]

/-- A refused read ends without data (R336). -/
theorem refusedRead (who : Who) (off : Nat) (s u : State) (ha : answers s = true) (hlt : off < 0xC00000)
    (hv : isVf who = false) (h4 : off % 4 = 0) (hg : mgmtGate who off kRead s = (false, u)) :
    exec (.registerRead who off 4) s = .next (emit (.regAbort who off) u) := by
  have hread : mgmtRead who off 4 s = (none, u) := by
    rw [mgmtRead, if_pos ⟨rfl, h4⟩, mgmtRead32_refused who off s u hlt hv hg]
    rfl
  rw [exec_registerRead, registerRead_abort who off 4 s u ha hv hread]

/-- Settles O1, by the access classes of the registers. -/
theorem managementRegisters : Obligations.ManagementRegisters := by
  unfold Obligations.ManagementRegisters
  refine ⟨fun who b v s h => ?_, fun who b v s h => ?_, partWordAccess_nothing, admittedRead, refusedRead⟩
  · refine ⟨clearCause b (v.setWidth 32) s, ?_, clearCause_spec b (v.setWidth 32) s⟩
    rw [exec_write_causeMask who b 0x10 v s (.inl rfl) h, writeBlock_cause]
  · refine ⟨setMask b (v.setWidth 32) s, ?_, setMask_spec b (v.setWidth 32) s⟩
    rw [exec_write_causeMask who b 0x14 v s (.inr rfl) h, writeBlock_mask]
end Sys2Proof.Proofs

namespace Sys2Proof.Machine

/-! ### Shadowed pairs (R12, R371) -/

/-- The pair at X takes writes of `who`, whether or not a value is pending: PairTakes without its last word on the pairs. -/
def PairOpen (who : Who) (x : Nat) (s : State) : Prop :=
  answers s = true ∧ blockAnswers s x = true ∧ blockAnswers s (x + 4) = true ∧ (s.sys.power = .prep → x = 0x44)
    ∧ isVf who = false ∧ mgmtGate who x kWrite s = (true, s) ∧ mgmtGate who (x + 4) kWrite s = (true, s)
    ∧ mayWritePair who x = true

/-- Whether a pair takes writes does not depend on what the pairs hold. -/
theorem PairTakes.pairOpen {who : Who} {x : Nat} {s : State} {ps : SMap Pair} (h : PairTakes who x { s with pairs := ps }) :
    PairOpen who x s := by
  obtain ⟨ha, hb, hb', hp, hv, hg, hg', -, hw⟩ := h
  exact ⟨ha, hb, hb', hp, hv, mgmtGate_pairs _ _ _ { s with pairs := ps } s.pairs hg,
    mgmtGate_pairs _ _ _ { s with pairs := ps } s.pairs hg', hw⟩

/-- A complement stands on a word boundary of its own outside the doorbell windows. -/
theorem pairOffs_complement (x : Nat) (h : pairOffs.contains x = true) : pfWindow (x + 4) = none ∧ (x + 4) % 4 = 0 := by
  have hall : ∀ y ∈ pairOffs, pfWindow (y + 4) = none ∧ (y + 4) % 4 = 0 := by decide
  exact hall x (by simpa using h)

/-- An admitted write to X. -/
theorem writeReg_pairX (who : Who) (x : Nat) (v : Word) (arr : LineRead) (out : FlashOutcome) (s : State)
    (hx : pairOffs.contains x = true) (h : PairOpen who x s) : writeReg who x v arr out s = pairWriteX who x v s := by
  obtain ⟨-, hb, -, hp, -, -, -, hw⟩ := h
  obtain ⟨-, h0, -⟩ := pairOf_succ x hx
  have hprep : ¬(s.sys.power = .prep ∧ some x ≠ some 0x44) := fun ⟨a, b⟩ => b (by rw [hp a])
  simp only [writeReg, hb, h0, hprep, hw]
  simp

/-- An admitted write to X + 4. -/
theorem writeReg_pairC (who : Who) (x : Nat) (v : Word) (arr : LineRead) (out : FlashOutcome) (s : State)
    (hx : pairOffs.contains x = true) (h : PairOpen who x s) :
    writeReg who (x + 4) v arr out s = pairWriteC who x v arr out s := by
  obtain ⟨-, -, hb, hp, -, -, -, hw⟩ := h
  obtain ⟨h4, -, -⟩ := pairOf_succ x hx
  have hprep : ¬(s.sys.power = .prep ∧ some x ≠ some 0x44) := fun ⟨a, b⟩ => b (by rw [hp a])
  have hne : x + 4 ≠ x := by omega
  simp only [writeReg, hb, h4, hprep, hw, hne]
  simp

theorem exec_pairX (who : Who) (x : Nat) (v : Word) (s : State) (hx : pairOffs.contains x = true) (h : PairOpen who x s) :
    exec (.shadowPendingWrite who x v) s = .next (pairWriteX who x v s) := by
  obtain ⟨-, -, hlt⟩ := pairOf_succ x hx
  have ⟨ha, _, _, _, hv, hg, _, _⟩ := h
  rw [exec_shadowPendingWrite who x v s ha hx, mgmtWrite32_admitted _ _ _ _ _ _ (by omega) hv hg,
    writeReg_pairX who x v _ _ s hx h]

theorem exec_pairC (who : Who) (x : Nat) (v : Word) (s : State) (hx : pairOffs.contains x = true) (h : PairOpen who x s) :
    exec (.registerWrite who (x + 4) 4 ⟨v.setWidth 64, false⟩) s = .next (pairWriteC who x v cleanLine cleanOut s) := by
  obtain ⟨-, -, hlt⟩ := pairOf_succ x hx
  obtain ⟨hwin, h4⟩ := pairOffs_complement x hx
  have ⟨ha, _, _, _, hv, _, hg, _⟩ := h
  have hval : (v.setWidth 64).setWidth 32 = v := by simp
  rw [exec_registerWrite, registerWrite_word _ _ _ _ ha hv hwin h4, hval,
    mgmtWrite32_admitted _ _ _ _ _ _ (by omega) hv hg, writeReg_pairC who x v _ _ s hx h]

/-- A write to X with nothing pending. -/
theorem pairWriteX_none (who : Who) (x : Nat) (v : Word) (s : State) (h : (SMap.get {} s.pairs x).pend = none) :
    pairWriteX who x v s = setPair x { (SMap.get {} s.pairs x) with pend := some (v, who) } s := by
  simp [pairWriteX, h]

/-- A second write to X. -/
theorem pairWriteX_some (who : Who) (x : Nat) (v : Word) (p : Word × Who) (s : State)
    (h : (SMap.get {} s.pairs x).pend = some p) :
    pairWriteX who x v s = shadowMismatch who x (setPair x { (SMap.get {} s.pairs x) with pend := none } s) := by
  simp [pairWriteX, h]

/-- A complement with nothing pending. -/
theorem pairWriteC_none (who : Who) (x : Nat) (v : Word) (arr : LineRead) (out : FlashOutcome) (s : State)
    (h : (SMap.get {} s.pairs x).pend = none) : pairWriteC who x v arr out s = shadowMismatch who x s := by
  simp [pairWriteC, h]

/-- A complement that does not match, or of another initiator. -/
theorem pairWriteC_mismatch (who i : Who) (x : Nat) (v w : Word) (arr : LineRead) (out : FlashOutcome) (s : State)
    (h : (SMap.get {} s.pairs x).pend = some (w, i)) (hne : i ≠ who ∨ v ≠ ~~~w) :
    pairWriteC who x v arr out s = shadowMismatch who x (setPair x { (SMap.get {} s.pairs x) with pend := none } s) := by
  have hno : ¬(i = who ∧ v = ~~~w) := fun ⟨hi, hv⟩ => hne.elim (· hi) (· hv)
  simp [pairWriteC, h, hno]

/-- The matching complement of the same initiator. -/
theorem pairWriteC_match (who : Who) (x : Nat) (w : Word) (arr : LineRead) (out : FlashOutcome) (s : State)
    (h : (SMap.get {} s.pairs x).pend = some (w, who)) :
    pairWriteC who x (~~~w) arr out s = pairEffect x w arr out (setPair x { pend := none, work := true, bad := false } s) := by
  simp [pairWriteC, h]

/-- Putting a pair changes that pair alone, and no pair's value. -/
theorem setPair_spec (x : Nat) (p : Pair) (s : State) :
    SMap.get {} (setPair x p s).pairs x = p ∧ pairValue (setPair x p s) x = pairValue s x
      ∧ SameOutside [.pairs] s (setPair x p s) := by
  refine ⟨SMap.get_set_same {} s.pairs x p, rfl, fun q hq => ?_⟩
  cases q <;> simp_all [SamePart]

/-- A mismatch where none was raised before is a detection of SHADOW and changes no pair. -/
theorem shadowMismatch_spec (who : Who) (x : Nat) (s : State) (h : s.eav.shadowAt = none) :
    (shadowMismatch who x s).eav.detected.map (·.1) = s.eav.detected.map (·.1) ++ [srcShadow]
      ∧ pairValue (shadowMismatch who x s) x = pairValue s x ∧ SameOutside [.eav] s (shadowMismatch who x s) := by
  simp only [shadowMismatch, h]
  refine ⟨by simp [raise], rfl, fun q hq => ?_⟩
  cases q <;> simp_all [SamePart]

/-- A pending value is discarded with a detection: what every refusal of a pair's half does. -/
theorem discardPending_spec (who : Who) (x : Nat) (s : State) (h : s.eav.shadowAt = none) (t : State)
    (ht : t = shadowMismatch who x (setPair x { (SMap.get {} s.pairs x) with pend := none } s)) :
    (SMap.get {} t.pairs x).pend = none ∧ pairValue t x = pairValue s x
      ∧ (t.eav.detected.map (·.1)) = s.eav.detected.map (·.1) ++ [srcShadow] ∧ SameOutside [.pairs, .eav] s t := by
  subst ht
  obtain ⟨hput, hval, hpair⟩ := setPair_spec x { (SMap.get {} s.pairs x) with pend := none } s
  obtain ⟨hdet, hval', heav⟩ :=
    shadowMismatch_spec who x (setPair x { (SMap.get {} s.pairs x) with pend := none } s) h
  have hpairs := heav .pairs (by decide)
  refine ⟨?_, hval'.trans hval, hdet, fun q hq => ?_⟩
  · rw [show (shadowMismatch who x _).pairs = _ from hpairs, hput]
  · have hq1 := heav q (by simp_all)
    have hq2 := hpair q (by simp_all)
    cases q <;> exact hq1.trans hq2

end Sys2Proof.Machine

namespace Sys2Proof.Proofs
open Sys2Proof.Machine

/-- Settles O2, by what each half of a pair does with a value pending and without one. -/
theorem shadowedPairWrites : Obligations.ShadowedPairWrites := by
  unfold Obligations.ShadowedPairWrites
  refine ⟨fun who x v s hx h => ?held, fun who x v p s hx h hp hs => ?second, fun who i x v w s hx h hp hne hs => ?mismatch,
    fun who x v s hx h hs => ?nothingPending, fun who x w s hx h hp => ?takesEffect⟩
  case held =>
    have ⟨_, _, _, _, _, _, _, hnone, _⟩ := h
    obtain ⟨hput, hval, hframe⟩ := setPair_spec x { (SMap.get {} s.pairs x) with pend := some (v, who) } s
    exact ⟨_, by rw [exec_pairX who x v s hx (PairTakes.pairOpen (ps := s.pairs) h), pairWriteX_none who x v s hnone],
      by rw [hput], hval, hframe⟩
  case second =>
    exact ⟨_, exec_pairX who x v s hx h.pairOpen, discardPending_spec who x s hs _ (pairWriteX_some who x v p s hp)⟩
  case mismatch =>
    exact ⟨_, exec_pairC who x v s hx h.pairOpen,
      discardPending_spec who x s hs _ (pairWriteC_mismatch who i x v w _ _ s hp hne)⟩
  case nothingPending =>
    have ⟨_, _, _, _, _, _, _, hnone, _⟩ := h
    obtain ⟨hdet, -, hframe⟩ := shadowMismatch_spec who x s hs
    exact ⟨_, by rw [exec_pairC who x v s hx (PairTakes.pairOpen (ps := s.pairs) h), pairWriteC_none who x v _ _ s hnone],
      hdet, fun q hq => hframe q (by simp_all)⟩
  case takesEffect =>
    exact ⟨_, by rw [exec_pairC who x (~~~w) s hx h.pairOpen, pairWriteC_match who x w _ _ s hp]; rfl,
      SMap.get_set_same {} s.pairs x _⟩

end Sys2Proof.Proofs
end

section
/-! PROOFS. The values that the register tables give after reset. -/

namespace Sys2Proof.Proofs
open Sys2Proof.Machine

/-- Every block's cause and mask register is clear after reset (R479, R480). -/
theorem reset_causes_masks (b : Block) : causeOf b State.reset = 0 ∧ maskOf b State.reset = 0 := by
  cases b <;> exact ⟨rfl, rfl⟩

/-- Settles O59: causes and masks block by block, the named registers by evaluation, and what is empty by definition. -/
theorem resetState : Obligations.ResetState := by
  unfold Obligations.ResetState
  refine ⟨rfl, rfl, rfl, reset_causes_masks, ?zero, ?complements, ?ports, rfl, rfl, rfl, rfl, rfl, rfl, rfl, rfl, rfl⟩
  case zero => decide +kernel
  case complements => decide +kernel
  case ports => decide +kernel

end Sys2Proof.Proofs
end

section
/-! PROOFS. Frames of shared operations, and the bounds within which a malformed entry has its undefined result (R2, R96). -/

namespace Sys2Proof.Machine

/-! ### Frames: what holds of any of them, and of a change of one part -/

theorem SameOutside.refl (ps : List Part) (s : State) : SameOutside ps s s := fun p _ => by cases p <;> rfl

theorem SameOutside.trans {ps : List Part} {s t u : State} (h : SameOutside ps s t) (h' : SameOutside ps t u) :
    SameOutside ps s u := fun p hp => by
  have h1 := h p hp
  have h2 := h' p hp
  cases p <;> exact Eq.trans h2 h1

/-- A frame holds with more parts let go. -/
theorem SameOutside.mono {ps qs : List Part} {s t : State} (h : SameOutside ps s t) (hpq : ∀ p ∈ ps, p ∈ qs) :
    SameOutside qs s t := fun p hp => h p fun hm => hp (hpq p hm)

/-- A frame is kept by a fold of steps that keep it. -/
theorem SameOutside.foldl {α : Type} {ps : List Part} {f : State → α → State} (h : ∀ s a, SameOutside ps s (f s a)) :
    ∀ (l : List α) (s : State), SameOutside ps s (l.foldl f s)
  | [], s => .refl ps s
  | a :: l, s => (h s a).trans (foldl h l (f s a))

theorem sameOutside_hqi (s : State) (x : HqiState) : SameOutside [.hqi] s { s with hqi := x } := fun p hp => by
  cases p <;> simp_all [SamePart]
theorem sameOutside_rfb (s : State) (x : ReedState) : SameOutside [.rfb] s { s with rfb := x } := fun p hp => by
  cases p <;> simp_all [SamePart]
theorem sameOutside_gte (s : State) (x : GteState) : SameOutside [.gte] s { s with gte := x } := fun p hp => by
  cases p <;> simp_all [SamePart]
theorem sameOutside_pke (s : State) (x : PkeState) : SameOutside [.pke] s { s with pke := x } := fun p hp => by
  cases p <;> simp_all [SamePart]
theorem sameOutside_sym (s : State) (x : SymState) : SameOutside [.sym] s { s with sym := x } := fun p hp => by
  cases p <;> simp_all [SamePart]
theorem sameOutside_free (s : State) (x : Nat) : SameOutside [.free] s { s with free := x } := fun p hp => by
  cases p <;> simp_all [SamePart]
theorem sameOutside_trusses (s : State) (x : SMap Truss) : SameOutside [.trusses] s { s with trusses := x } := fun p hp => by
  cases p <;> simp_all [SamePart]

/-! ### Cells, packets and free values -/

theorem freePackets_frame (ps : List Packet) (s : State) : SameOutside [.rfb] s (freePackets ps s) :=
  .foldl (fun s _ => sameOutside_rfb s _) ps s

theorem takeEntryPacket_frame (r : CmdRef) (s : State) : SameOutside [.rfb] s (takeEntryPacket r s) :=
  (sameOutside_rfb s _).trans (freePackets_frame _ _)

theorem addCells_frame (g n : Nat) (s : State) : SameOutside [.rfb] s (addCells g n s) := sameOutside_rfb s _

theorem toSink_frame (k : Nat) (p : Packet) (s : State) : SameOutside [.rfb] s (toSink k p s) := by
  unfold toSink
  split <;> exact sameOutside_rfb s _

theorem drawBelow_frame (m n : Nat) (s : State) : SameOutside [.free] s (drawBelow m n s).2 := sameOutside_free s _

/-- A free choice among the entries of a list is one of them. -/
theorem getD_mod_mem (l : List Nat) (k : Nat) (h : l ≠ []) : l.getD (k % l.length) 0 ∈ l := by
  have hlt := Nat.mod_lt k (List.length_pos_iff.mpr h)
  rw [List.getD_eq_getElem?_getD, List.getElem?_eq_getElem hlt]
  exact List.getElem_mem hlt

/-! ### What an abort of a core's work changes (R29, R179, R196) -/

theorem portEnd_frame (n st : Nat) (d : Option (List Byte)) (s : State) : SameOutside [.sym] s (portEnd n st d s) :=
  sameOutside_sym s _

theorem abortSym_frame (f : Nat → Bool) (s : State) : SameOutside [.sym] s (abortSym f s) :=
  have hports : SameOutside [.sym] s (abortPorts f s) := .foldl (fun s n => portEnd_frame n stAborted none s) _ s
  (hports.trans (sameOutside_sym _ _)).trans (sameOutside_sym _ _)

/-- Only debug accesses are refused as DEBUG_LOCKED (R332). -/
theorem gateDecide_ne_debugLocked (s : State) (t : Tag) (tgt o n k r : Nat) (e : Option Nat) (ht : t.cls ≠ 3)
    (h : gateDecide s t tgt o n k = .refuse r e) : r ≠ rDebugLocked := by
  have hfixed : ∀ q, fixedRefusal s t tgt o n k = some q → q ≠ rDebugLocked := by
    intro q hq
    unfold fixedRefusal at hq
    split at hq
    · cases hq; decide
    split at hq
    · cases hq; decide
    split at hq
    · cases hq; decide
    split at hq
    next hdebug => exact absurd hdebug.1 ht
    next => cases hq
  have hentries : ∀ q, gateEntries s t tgt o n k = .refuse q e → q ≠ rDebugLocked := by
    intro q hq
    unfold gateEntries at hq
    dsimp only at hq
    split at hq
    · split at hq
      · cases hq; decide
      · split at hq <;> cases hq
        decide
    split at hq
    · split at hq
      · cases hq; decide
      · split at hq <;> split at hq <;> cases hq <;> decide
    · cases hq; decide
  unfold gateDecide at h
  split at h
  next q hq =>
    cases h
    exact hfixed r hq
  next => exact hentries r h

/-- A refusal that is not DEBUG_LOCKED changes the gates' records alone. -/
theorem recordRefusal_frame (t : Tag) (tgt o n k r : Nat) (e : Option Nat) (s : State) (h : r ≠ rDebugLocked) :
    SameOutside [.gte] s (recordRefusal t tgt o n k r e s) := by
  unfold recordRefusal
  rw [if_neg h]
  split <;> exact sameOutside_gte s _

/-- An access of a unit or a core changes at most the gates' records. -/
theorem gate_frame (t : Tag) (tgt o n k : Nat) (s : State) (ht : t.cls ≠ 3) : SameOutside [.gte] s (gate t tgt o n k s).2 := by
  unfold gate
  split
  · exact .refl _ s
  · next r e h => exact recordRefusal_frame t tgt o n k r e s (gateDecide_ne_debugLocked s t tgt o n k r e ht h)

/-- The parts that the WMA units' own work may change: the units, free values, and the gates' records. -/
abbrev wmaParts : List Part := [.pke, .free, .gte]

theorem setWma_frame (t : Nat) (w : Wma) (s : State) : SameOutside wmaParts s (setWma t w s) :=
  (sameOutside_pke s _).mono (by simp)

theorem runLength_frame (t c : Nat) (s : State) : SameOutside wmaParts s (runLength t c s).2 := by
  unfold runLength
  dsimp only
  split
  · exact (drawBelow_frame 6 1 s).mono (by simp)
  · exact .refl _ s

theorem latchLoad_frame (t c : Nat) (e : WmaEntry) (s : State) : SameOutside wmaParts s (latchLoad t c e s) := by
  unfold latchLoad
  extract_lets a q len r got w
  have hgate : SameOutside [.gte] q.2 r.2 := gate_frame _ t a (8 * len) kRead q.2 (by simp [wmaTag])
  exact ((runLength_frame t c s).trans (hgate.mono (by simp))).trans (setWma_frame t _ _)

theorem wmaStart_frame (t : Nat) (s : State) : SameOutside wmaParts s (wmaStart t s) := by
  unfold wmaStart
  dsimp only
  split
  · exact .refl _ s
  · split
    · exact .refl _ s
    · have hset := fun w => setWma_frame t w s
      split
      · split
        · exact (hset _).trans (latchLoad_frame _ _ _ _)
        · exact hset _
      · exact hset _

theorem leaveDatapath_frame (t c : Nat) (s : State) : SameOutside wmaParts s (leaveDatapath t c s) := by
  unfold leaveDatapath
  dsimp only
  split
  · exact (setWma_frame t _ s).trans (wmaStart_frame t _)
  · exact wmaStart_frame t s

theorem contextAbort_frame (t c : Nat) (s : State) : SameOutside wmaParts s (contextAbort t c s) :=
  (setWma_frame t _ s).trans (leaveDatapath_frame t c _)

theorem abortCore_frame (n : Nat) (s : State) : SameOutside [.pke, .free, .gte, .sym] s (abortCore n s) :=
  ((abortSym_frame _ s).mono (by simp)).trans ((contextAbort_frame _ _ _).mono (by simp))

/-! ### What a malformed entry reaches (R2, R96) -/

/-- The bounds of a malformed entry of function `f` (R2): of the state outside the parts that it may disturb nothing
changes, nor do the rings of other functions, the HQI's function registers and arbiter, and trusses outside `ts`. -/
def EntryBounded (f : Nat) (ts : List Nat) (s t : State) : Prop :=
  SameOutside [.hqi, .rfb, .free, .pke, .sym, .trusses, .gte] s t ∧ (∀ x, x / 64 ≠ f → ringOf t x = ringOf s x)
    ∧ t.hqi.fns = s.hqi.fns ∧ t.hqi.deal = s.hqi.deal ∧ t.hqi.pos = s.hqi.pos ∧ ∀ x, x ∉ ts → t.truss x = s.truss x

theorem EntryBounded.refl (f : Nat) (ts : List Nat) (s : State) : EntryBounded f ts s s :=
  ⟨.refl _ s, fun _ _ => rfl, rfl, rfl, rfl, fun _ _ => rfl⟩

theorem EntryBounded.trans {f : Nat} {ts : List Nat} {s t u : State} (h : EntryBounded f ts s t)
    (h' : EntryBounded f ts t u) : EntryBounded f ts s u := by
  obtain ⟨hs, hr, hf, hd, hp, ht⟩ := h
  obtain ⟨hs', hr', hf', hd', hp', ht'⟩ := h'
  exact ⟨hs.trans hs', fun x hx => (hr' x hx).trans (hr x hx), hf'.trans hf, hd'.trans hd, hp'.trans hp,
    fun x hx => (ht' x hx).trans (ht x hx)⟩

/-- A step that leaves the HQI and the trusses alone stays within the bounds. -/
theorem SameOutside.entryBounded {s t : State} (h : SameOutside [.rfb, .free, .pke, .sym, .gte] s t) (f : Nat)
    (ts : List Nat) : EntryBounded f ts s t := by
  have hhqi : t.hqi = s.hqi := h .hqi (by decide)
  have htr : t.trusses = s.trusses := h .trusses (by decide)
  exact ⟨h.mono (by simp), fun x _ => by rw [ringOf, hhqi, ringOf], by rw [hhqi], by rw [hhqi], by rw [hhqi],
    fun x _ => by rw [State.truss, htr, State.truss]⟩

/-- A change of the commands in flight alone stays within the bounds. -/
theorem entryBounded_cmds (f : Nat) (ts : List Nat) (cs : List Cmd) (s : State) :
    EntryBounded f ts s { s with hqi := { s.hqi with cmds := cs } } :=
  ⟨(sameOutside_hqi s _).mono (by simp), fun _ _ => rfl, rfl, rfl, rfl, fun _ _ => rfl⟩

/-- So does a change of one of the function's own rings. -/
theorem setRing_bounded (f : Nat) (ts : List Nat) (c : Nat) (r : RingCtx) (s : State) (hc : c / 64 = f) :
    EntryBounded f ts s (setRing c r s) := by
  refine ⟨(sameOutside_hqi s _).mono (by simp), fun x hx => ?_, rfl, rfl, rfl, fun _ _ => rfl⟩
  have hne : x ≠ c := fun h => hx (h ▸ hc)
  simp [ringOf, setRing, hne]

theorem takeEntryPacket_bounded (f : Nat) (ts : List Nat) (r : CmdRef) (s : State) :
    EntryBounded f ts s (takeEntryPacket r s) := ((takeEntryPacket_frame r s).mono (by simp)).entryBounded f ts

theorem drawBytes_bounded (f : Nat) (ts : List Nat) (n : Nat) (s : State) : EntryBounded f ts s (drawBytes n s).2 :=
  ((sameOutside_free s _).mono (by simp)).entryBounded f ts

theorem commitCompletion_bounded (f : Nat) (ts : List Nat) (r : CmdRef) (bs : List Byte) (s : State) :
    EntryBounded f ts s (commitCompletion r bs s) := by
  unfold commitCompletion
  extract_lets p
  have hcells := addCells_frame r.fn 2 (updCmd r (fun c => { c with finished := true }) s)
  have hsink := hcells.trans (toSink_frame 0 p _)
  exact (entryBounded_cmds f ts _ s).trans ((hsink.mono (by simp)).entryBounded f ts)

theorem pumpChain_bounded (f : Nat) (ts : List Nat) (c : Nat) (hc : c / 64 = f) :
    ∀ (n : Nat) (ch : Chain) (s : State), EntryBounded f ts s (pumpChain c n ch s)
  | 0, _, s => .refl f ts s
  | n + 1, ch, s => by
    unfold pumpChain
    split
    · exact (((setRing_bounded f ts c _ s hc).trans (takeEntryPacket_bounded f ts _ _)).trans
        (commitCompletion_bounded f ts _ _ _)).trans (pumpChain_bounded f ts c hc n _ _)
    · exact .refl f ts s

theorem pumpChains_bounded (f : Nat) (ts : List Nat) (c : Nat) (s : State) (hc : c / 64 = f) :
    EntryBounded f ts s (pumpChains c s) := by
  unfold pumpChains
  generalize (ringOf s c).chains = chs
  induction chs generalizing s with
  | nil => exact .refl f ts s
  | cons ch chs ih => exact (pumpChain_bounded f ts c hc _ ch s).trans (ih _)

/-- What the engines hold of a command goes. -/
theorem clearWork_bounded (f : Nat) (ts : List Nat) (cmd : Cmd) (st : Nat) (s : State) :
    EntryBounded f ts s (clearWork cmd st s) := by
  have habort : ∀ n, EntryBounded f ts s (abortCore n s) := fun n =>
    ((abortCore_frame n s).mono (by simp)).entryBounded f ts
  have hdrop : ∀ (u : State) (p : Cmd → Bool),
      EntryBounded f ts u { u with hqi := { u.hqi with cmds := u.hqi.cmds.filter p } } :=
    fun u p => entryBounded_cmds f ts _ u
  unfold clearWork
  extract_lets u
  have hu : EntryBounded f ts s u := by
    unfold u
    split
    · split
      · exact habort _
      · exact .refl f ts s
    · exact .refl f ts s
  split
  · exact hu.trans (hdrop u _)
  · exact hu

/-- A command of a ring is neither a sub-command nor served for a peer. -/
theorem ring_ref (r : CmdRef) (h : r.ring < 64) : isSub r = false ∧ isServed r = false ∧ offRing r = false := by
  simp only [isSub, isServed, offRing, decide_eq_false_iff_not]
  omega

theorem endCmd_bounded (ts : List Nat) (r : CmdRef) (st result : Nat) (inl : List Byte) (s : State) (h : r.ring < 64) :
    EntryBounded r.fn ts s (endCmd r st result inl s) := by
  obtain ⟨hsub, hserved, -⟩ := ring_ref r h
  have hctx : ctxNum r.fn r.ring / 64 = r.fn := by unfold ctxNum; omega
  unfold endCmd
  split
  · exact .refl _ _ s
  · next cmd _ =>
    refine (clearWork_bounded r.fn ts cmd st s).trans ?_
    simp only [hsub, hserved, Bool.false_eq_true, if_false]
    split
    · exact commitCompletion_bounded r.fn ts r _ _
    · exact ((entryBounded_cmds r.fn ts _ _).trans (setRing_bounded r.fn ts _ _ _ hctx)).trans
        (pumpChains_bounded r.fn ts _ _ hctx)

theorem endAnyhow_bounded (ts : List Nat) (r : CmdRef) (s : State) (h : r.ring < 64) :
    EntryBounded r.fn ts s (endAnyhow r s) :=
  (drawBytes_bounded r.fn ts 54 s).trans (endCmd_bounded ts r _ _ _ _ h)

theorem disturbTruss_bounded (f : Nat) (s : State) : EntryBounded f (liveTrusses s f) s (disturbTruss f s) := by
  unfold disturbTruss
  refine (drawBytes_bounded f _ 5 s).trans ?_
  dsimp only
  split
  next => exact .refl f _ _
  next hempty =>
    have hmem := getD_mod_mem (liveTrusses s f) (leAt (drawBytes 5 s).1 0 1) fun hnil => hempty (by rw [hnil]; rfl)
    refine ⟨(sameOutside_trusses _ _).mono (by simp), fun _ _ => rfl, rfl, rfl, rfl, fun x hx => ?_⟩
    exact SMap.get_set_ne _ _ _ x _ fun he => hx (he ▸ hmem)

/-- Which trusses of a gable are live depends on the latched image and on the quarantines. -/
theorem liveTrusses_congr (s t : State) (g : Nat) (himg : t.img = s.img) (hsys : t.sys = s.sys) :
    liveTrusses t g = liveTrusses s g := by
  simp only [liveTrusses, trussMaskOf, quarantined, himg, hsys]

/-- Whatever a malformed entry of a ring does, it stays within its gable (R2, R96). -/
theorem malformed_undefined (r : CmdRef) (s : State) (h : r.ring < 64) :
    EntryUndefined r s (.next (malformed r s (takeEntryPacket r s))) := by
  have htake : EntryBounded r.fn (liveTrusses s r.fn) s
      { takeEntryPacket r s with free := (drawBytes 1 s).2.free } :=
    (takeEntryPacket_bounded r.fn _ r s).trans (((sameOutside_free _ _).mono (by simp)).entryBounded r.fn _)
  have hlive : liveTrusses { takeEntryPacket r s with free := (drawBytes 1 s).2.free } r.fn = liveTrusses s r.fn :=
    liveTrusses_congr s _ r.fn (htake.1 .img (by decide)) (htake.1 .sys (by decide))
  suffices hb : EntryBounded r.fn (liveTrusses s r.fn) s (malformed r s (takeEntryPacket r s)) by
    obtain ⟨hs, hr, hf, hd, hp, ht⟩ := hb
    exact ⟨_, rfl, hs, hr, hf, hd, hp, ht⟩
  unfold malformed
  dsimp only
  split
  · exact drawBytes_bounded r.fn _ 1 s
  · exact htake.trans (endAnyhow_bounded _ r _ h)
  · exact htake.trans (entryBounded_cmds r.fn _ _ _)
  · have hdisturb := disturbTruss_bounded r.fn { takeEntryPacket r s with free := (drawBytes 1 s).2.free }
    rw [hlive] at hdisturb
    exact htake.trans (hdisturb.trans (endAnyhow_bounded _ r _ h))

end Sys2Proof.Machine
end

section
/-! PROOFS. The order of the checks of a native command, and its dispatch (R96, R103, R504). -/

namespace Sys2Proof.Machine

/-! ### The order of a native command's checks (R96, R103, R156) -/

section
variable (v : Service) (r : CmdRef) (c : Cmd) (s : State)

/-- The runtime may work on command `r` = `c`, and a truss of its gable is live. -/
def NativeTurn : Prop := runnable s r = some c ∧ (liveTrusses s r.fn).isEmpty = false

variable {r c s}

/-- An entry whose flags are malformed. -/
theorem native_bad (h : NativeTurn r c s) (hbad : c.bad = true) :
    native v r s = .next (malformed r s (takeEntryPacket r s)) := by
  obtain ⟨hrun, hlive⟩ := h
  simp [native, hrun, hlive, hbad]

/-- An entry from a ring, or of another opcode, is no BLOCK of a tenant program. -/
theorem notBlock_of (h : isSub r = false ∨ eOpcode c.entry ≠ blockOpcode) :
    ¬(isSub r = true ∧ eOpcode c.entry = blockOpcode) := by
  rintro ⟨hsub, hop⟩
  rcases h with h | h
  · simp [h] at hsub
  · exact h hop

/-- A tenant opcode waits for an install step. -/
theorem native_held (h : NativeTurn r c s) (hgood : c.bad = false) (hblock : ¬(isSub r = true ∧ eOpcode c.entry = blockOpcode))
    (htenant : 0x8000 ≤ eOpcode c.entry) (hinst : (installWaits s r.fn).isSome = true) : native v r s = .next s := by
  obtain ⟨hrun, hlive⟩ := h
  simp [native, hrun, hlive, hgood, hblock, htenant, hinst]

/-- An opcode outside the service table. -/
theorem native_unsupported (h : NativeTurn r c s) (hgood : c.bad = false)
    (hblock : ¬(isSub r = true ∧ eOpcode c.entry = blockOpcode))
    (hfree : ¬(0x8000 ≤ eOpcode c.entry ∧ (installWaits s r.fn).isSome = true))
    (htable : inTable s r.fn (eOpcode c.entry) = false) :
    native v r s = .next (endCmd r stUnsupported 0 [] (takeEntryPacket r s)) := by
  obtain ⟨hrun, hlive⟩ := h
  simp only [native, hrun, hlive, hgood, hblock, hfree, htable]
  simp

/-- The command of the service's own opcode, which is a native one, comes to its checks. -/
theorem native_own (h : NativeTurn r c s) (hgood : c.bad = false) (htable : inTable s r.fn (eOpcode c.entry) = true)
    (hop : eOpcode c.entry = v.opcode) (hnat : v.opcode < blockOpcode) :
    native v r s = .next (if malformedFor v c.entry then malformed r s (takeEntryPacket r s)
      else serve v r c (takeEntryPacket r s)) := by
  obtain ⟨hrun, hlive⟩ := h
  have hblock : v.opcode ≠ blockOpcode := by omega
  have htenant : ¬0x8000 ≤ v.opcode := by
    have : blockOpcode = 0x7FFF := rfl
    omega
  rw [hop] at htable
  simp only [native, hrun, hlive, hgood, hop, htable, hblock, htenant, and_false, false_and, Bool.false_eq_true,
    Bool.true_eq_false, ne_eq, not_true_eq_false, if_false]
  split <;> rfl

/-- Sealed memory that cannot be read yet is waited for. -/
theorem serve_waits (ht : c.truss = none) (hl : sealedLook v r c.entry s = none) : serve v r c s = s := by
  simp [serve, ht, hl]

/-- Sealed memory that fails ends the command with INTEGRITY. -/
theorem serve_sealedFails (ht : c.truss = none) {w : State} (hl : sealedLook v r c.entry s = some (false, w)) :
    serve v r c s = endCmd r stIntegrity 0 [] w := by
  simp [serve, ht, hl]

/-- The first check that fails ends the command; one that passes them all is dispatched. -/
theorem serve_checked (ht : c.truss = none) {w : State} (hl : sealedLook v r c.entry s = some (true, w)) :
    serve v r c s = if earlyChecks v r c.entry w = stOk then dispatch v r c w
      else endCmd r (earlyChecks v r c.entry w) 0 [] w := by
  simp [serve, ht, hl]

end

/-! ### Asking host memory for a command's source (R67, R94) -/

@[simp] theorem emitAll_hqi (os : List Output) (s : State) : (emitAll os s).hqi = s.hqi := by
  induction os generalizing s with
  | nil => rfl
  | cons o os ih => exact ih (emit o s)

/-- Outputs leave in their order, the newest first in the record. -/
theorem emitAll_out (os : List Output) (s : State) : (emitAll os s).out = os.reverse ++ s.out := by
  induction os generalizing s with
  | nil => rfl
  | cons o os ih =>
    rw [emitAll, List.foldl_cons, ← emitAll, ih]
    simp [emit]

/-- Where tags are free for every request that waits, all of them are issued. -/
theorem pumpReads_all (s : State) (h : s.hqi.unsent.length ≤ tagLimit s - s.hqi.tags.length) :
    pumpReads s = emitAll (s.hqi.unsent.map fun x => Output.hostRead x.1 x.2.1 x.2.2.1 x.2.2.2 (reqAttr s))
      { s with hqi := { s.hqi with
        tags := s.hqi.tags ++ s.hqi.unsent.map (·.1)
        unsent := [] } } := by
  simp [pumpReads, List.take_of_length_le h, List.drop_of_length_le h]

/-- With tags free for all of its requests a read is asked for whole, and of the HQI nothing else changes (R67). -/
theorem issueRead_asked (rd : ReadId) (f a n : Nat) (s : State) (h : TagsFree a n s) :
    Asked rd f a n s (issueRead rd f a n s) ∧ (issueRead rd f a n s).hqi.cmds = s.hqi.cmds
      ∧ (issueRead rd f a n s).hqi.reads = s.hqi.reads := by
  obtain ⟨hunsent, htags⟩ := h
  have hall : ((requestPieces s.hqi.maxRead a n).map fun x => (rd, f, x.1, x.2)).length
      ≤ tagLimit s - s.hqi.tags.length := by
    rw [List.length_map]
    omega
  rw [issueRead, hunsent, List.nil_append, pumpReads_all _ hall]
  refine ⟨⟨?_, ?_, ?_⟩, ?_, ?_⟩
  · simp [emitAll_out, reqAttr]
  all_goals simp [Function.comp_def]

/-! ### Handing a checked command to a core (R29, R504) -/

/-- Some core may always take up a command. -/
theorem workerCores_ne_nil (v : Service) (r : CmdRef) (e : List Byte) (s : State) : workerCores v r e s ≠ [] := by
  unfold workerCores
  extract_lets all free away0 away cs
  split
  next => exact List.cons_ne_nil _ _
  next h => exact fun hnil => h (by rw [hnil]; rfl)

/-- Changing the command that `r` names, under the same name. -/
theorem findCmd_updCmd (r : CmdRef) (f : Cmd → Cmd) (s : State) (hf : ∀ c, (f c).ref = c.ref) :
    findCmd (updCmd r f s) r = (findCmd s r).map f := by
  simp only [findCmd, updCmd]
  induction s.hqi.cmds with
  | nil => rfl
  | cons c cs ih =>
    by_cases hc : c.ref = r
    · simp [hc, hf]
    · simp [hc, ih]

/-- Core `n` has taken up command `r`, whose source is to be read. -/
def takenUp (r : CmdRef) (n : Nat) (s : State) : State :=
  let u := updCmd r (fun x => { x with
    truss := some (trussOf n)
    core := some n
    src := .waiting }) s
  { u with hqi := { u.hqi with reads := u.hqi.reads ++ [.cmd r] } }

theorem findCmd_takenUp (r : CmdRef) (n : Nat) (c : Cmd) (s : State) (h : findCmd s r = some c) :
    (findCmd (takenUp r n s) r).bind (·.core) = some n := by
  have hupd := findCmd_updCmd r (fun x => { x with
    truss := some (trussOf n)
    core := some n
    src := .waiting }) s fun _ => rfl
  rw [h] at hupd
  exact congrArg (Option.bind · (·.core)) hupd

/-- A ring's command that reads SRC is dispatched to a core of free choice, which asks for its source. -/
theorem dispatch_reads (v : Service) (r : CmdRef) (c : Cmd) (s : State) (hring : r.ring < 64) (hsource : v.source = true)
    (hlen : 0 < eSrcLen c.entry) :
    ∃ n ∈ workerCores v r c.entry s, dispatch v r c s
      = issueRead (.cmd r) r.fn (eSrc c.entry) (eSrcLen c.entry)
        (takenUp r n (drawBelow (workerCores v r c.entry s).length 1 s).2) := by
  obtain ⟨hsub, -, hoff⟩ := ring_ref r hring
  refine ⟨(workerCores v r c.entry s).getD (drawBelow (workerCores v r c.entry s).length 1 s).1 0,
    getD_mod_mem _ _ (workerCores_ne_nil v r c.entry s), ?_⟩
  simp [dispatch, hsub, hoff, hsource, hlen, takenUp]

/-- A ring's command that reads SRC is at one of the cores that may take it up, and its source has been asked for. -/
theorem dispatch_asked (v : Service) (r : CmdRef) (c : Cmd) (s : State) (hring : r.ring < 64) (hsource : v.source = true)
    (hlen : 0 < eSrcLen c.entry) (hfind : findCmd s r = some c) (hfree : TagsFree (eSrc c.entry) (eSrcLen c.entry) s) :
    Asked (.cmd r) r.fn (eSrc c.entry) (eSrcLen c.entry) s (dispatch v r c s)
      ∧ (dispatch v r c s).hqi.reads = s.hqi.reads ++ [.cmd r]
      ∧ ∃ n ∈ workerCores v r c.entry s, (findCmd (dispatch v r c s) r).bind (·.core) = some n := by
  obtain ⟨n, hn, hdisp⟩ := dispatch_reads v r c s hring hsource hlen
  obtain ⟨hasked, hcmds, hreads⟩ := issueRead_asked (.cmd r) r.fn (eSrc c.entry) (eSrcLen c.entry)
    (takenUp r n (drawBelow (workerCores v r c.entry s).length 1 s).2) hfree
  rw [hdisp]
  refine ⟨hasked, hreads, n, hn, ?_⟩
  rw [findCmd, hcmds]
  exact findCmd_takenUp r n c _ hfind

/-! ### The native rows (R102) -/

/-- The row of a native command is one step of the gable's runtime on it as its service. -/
theorem exec_nativeRow : ∀ p ∈ nativeRows, ∀ (r : CmdRef) (s : State), exec (p.1 r) s = native p.2 r s := by
  intro p hp r s
  simp only [nativeRows, List.mem_cons, List.not_mem_nil, or_false] at hp
  rcases hp with rfl | rfl | rfl | rfl | rfl | rfl | rfl | rfl | rfl | rfl | rfl | rfl | rfl | rfl
    | rfl | rfl | rfl | rfl | rfl | rfl | rfl | rfl | rfl | rfl | rfl | rfl | rfl | rfl <;> rfl

/-- Native opcodes stand below the tenants' and BLOCK's. -/
theorem nativeRow_opcode_lt : ∀ p ∈ nativeRows, p.2.opcode < blockOpcode := by decide

end Sys2Proof.Machine

namespace Sys2Proof.Proofs
open Sys2Proof.Machine

/-- Settles O17, check by check in the order of R103. -/
theorem nativeChecksInOrder : Obligations.NativeChecksInOrder := by
  unfold Obligations.NativeChecksInOrder
  intro p hp r c s hrun hlive
  have hturn : NativeTurn r c s := ⟨hrun, hlive⟩
  have hnat := nativeRow_opcode_lt p hp
  rw [exec_nativeRow p hp r s]
  refine ⟨fun hbad hring => ?flags, fun hgood hsub htenant hinst => ?held, fun hgood hsub hfree htable => ?unsupported,
    fun hgood htable hop hmal hring => ?malformed, fun hgood htable hop hmal htruss => ?checks⟩
  case flags =>
    rw [native_bad p.2 hturn hbad]
    exact malformed_undefined r s hring
  case held => exact native_held p.2 hturn hgood (notBlock_of hsub) htenant hinst
  case unsupported =>
    have hfree' : ¬(0x8000 ≤ eOpcode c.entry ∧ (installWaits s r.fn).isSome = true) := by
      rintro ⟨htenant, hinst⟩
      rcases hfree with hlow | hnone
      · omega
      · simp [hnone] at hinst
    exact native_unsupported p.2 hturn hgood (notBlock_of hsub) hfree' htable
  case malformed =>
    rw [native_own p.2 hturn hgood htable hop hnat, if_pos hmal]
    exact malformed_undefined r s hring
  case checks =>
    have hserve : native p.2 r s = .next (serve p.2 r c (takeEntryPacket r s)) := by
      rw [native_own p.2 hturn hgood htable hop hnat, hmal]
      rfl
    rw [hserve]
    refine ⟨fun hlook => ?_, fun w hlook => ?_, fun w hlook => ⟨fun hfail => ?_, fun hpass hsource hlen hring hfind htags => ?_⟩⟩
    · rw [serve_waits p.2 htruss hlook]
    · rw [serve_sealedFails p.2 htruss hlook]
    · rw [serve_checked p.2 htruss hlook, if_neg hfail]
    · rw [serve_checked p.2 htruss hlook, if_pos hpass]
      obtain ⟨hasked, hreads, n, hn, hcore⟩ := dispatch_asked p.2 r c w hring hsource hlen hfind htags
      exact ⟨_, n, rfl, hasked, hreads, hcore, hn⟩

end Sys2Proof.Proofs
end

section
/-! PROOFS. What the firmware's own flash commands leave alone (R349 to R364). -/

namespace Sys2Proof.Machine

/-- From `s` to `t` at most what the firmware's own flash commands change has changed: the array, its controller, telemetry, free
values, and of the symmetric block the causes. -/
def FlashWork (s t : State) : Prop := ∃ flash flc tel free c, t = { s with
  flash := flash
  flc := flc
  tel := tel
  free := free
  sym := { s.sym with cause := c } }

theorem FlashWork.refl (s : State) : FlashWork s s := ⟨_, _, _, _, _, rfl⟩

theorem FlashWork.trans {s t u : State} (h : FlashWork s t) (h' : FlashWork t u) : FlashWork s u := by
  obtain ⟨_, _, _, _, _, rfl⟩ := h
  obtain ⟨_, _, _, _, _, rfl⟩ := h'
  exact ⟨_, _, _, _, _, rfl⟩

theorem FlashWork.foldl {α : Type} {f : State → α → State} (h : ∀ s a, FlashWork s (f s a)) :
    ∀ (l : List α) (s : State), FlashWork s (l.foldl f s)
  | [], s => .refl s
  | a :: l, s => (h s a).trans (foldl h l (f s a))

theorem FlashWork.sameOutside {s t : State} (h : FlashWork s t) : SameOutside flashParts s t := by
  obtain ⟨_, _, _, _, _, rfl⟩ := h
  intro p hp
  cases p <;> simp_all [SamePart]

/-- The counter vault is none of the flash commands' business. -/
theorem FlashWork.ctr {s t : State} (h : FlashWork s t) : t.sym.ctr = s.sym.ctr := by
  obtain ⟨_, _, _, _, _, rfl⟩ := h
  rfl

/-! ### Changes of one part -/

theorem flashWork_flc (s : State) (x : FlcState) : FlashWork s { s with flc := x } := ⟨_, _, _, _, _, rfl⟩
theorem flashWork_flash (s : State) (x : FlashDie) : FlashWork s { s with flash := x } := ⟨_, _, _, _, _, rfl⟩
theorem flashWork_tel (s : State) (x : TelState) : FlashWork s { s with tel := x } := ⟨_, _, _, _, _, rfl⟩
theorem flashWork_free (s : State) (x : Nat) : FlashWork s { s with free := x } := ⟨_, _, _, _, _, rfl⟩

theorem cause_flc_flashWork (i : Nat) (s : State) : FlashWork s (cause .flc i s) := flashWork_flc s _
theorem cause_tel_flashWork (i : Nat) (s : State) : FlashWork s (cause .tel i s) := flashWork_tel s _
theorem cause_sym_flashWork (i : Nat) (s : State) : FlashWork s (cause .sym i s) := ⟨_, _, _, _, _, rfl⟩

/-- A step that is taken in one case and left out in the other. -/
theorem FlashWork.ite {p : Prop} [Decidable p] {s t u : State} (ht : FlashWork s t) (hu : FlashWork s u) :
    FlashWork s (if p then t else u) := by
  split
  · exact ht
  · exact hu

/-! ### Reads (R349) -/

theorem noteRead_flashWork (rst : Word) (s : State) : FlashWork s (noteRead rst s) :=
  .ite ((flashWork_flc s _).trans (cause_flc_flashWork 1 _)) (flashWork_flc s _)

theorem autoSuspend_flashWork (s : State) : FlashWork s (autoSuspend s) := .ite (flashWork_flc s _) (.refl s)

theorem lineRead_flashWork (line : Nat) (arr : LineRead) (rb : Bool) (s : State) :
    FlashWork s (lineRead line arr rb s).2.2 := by
  refine (autoSuspend_flashWork s).trans ?_
  unfold lineRead
  dsimp only
  split
  · exact ((flashWork_free _ _).trans (flashWork_free _ _)).trans (noteRead_flashWork _ _)
  · exact noteRead_flashWork _ _

theorem noteLines_flashWork (ls : List Nat) (s : State) : FlashWork s (noteLines ls s) :=
  .foldl (fun t l => lineRead_flashWork l ⟨[]⟩ false t) ls s

theorem noteSectors_flashWork (a n : Nat) (s : State) : FlashWork s (noteSectors a n s) := noteLines_flashWork _ s

/-! ### Retirement (R361 to R363) -/

theorem appendRemap_flashWork (sect spare reason : Nat) (s : State) : FlashWork s (appendRemap sect spare reason s) :=
  flashWork_flash s _

theorem markBad_flashWork (i : Nat) (s : State) : FlashWork s (markBad i s) := ⟨_, _, _, _, _, rfl⟩

theorem skipBad_flashWork (sect : Nat) (copies : Bool) : ∀ (f k : Nat) (s : State), FlashWork s (skipBad sect copies f k s)
  | 0, _, s => .refl s
  | f + 1, k, s => by
    unfold skipBad
    split
    · split
      · exact (markBad_flashWork _ s).trans (skipBad_flashWork sect copies f k _)
      split
      · exact .refl s
      · exact ((FlashWork.ite (noteSectors_flashWork sect 1 s) (.refl s)).trans (markBad_flashWork _ _)).trans
          (skipBad_flashWork sect copies f _ _)
    · exact .refl s

theorem makeWorn_flashWork (sect reason : Nat) (s : State) : FlashWork s (makeWorn sect reason s) := by
  unfold makeWorn
  extract_lets _ u v
  have hcause : FlashWork s u := ⟨_, _, _, _, _, rfl⟩
  have harea : FlashWork u v := .ite (cause_sym_flashWork 4 u) (.refl u)
  exact (hcause.trans harea).trans (.ite ⟨_, _, _, _, _, rfl⟩ (flashWork_flc v _))

theorem retireSector_flashWork (sect reason bad : Nat) (s : State) : FlashWork s (retireSector sect reason bad s).2 := by
  unfold retireSector
  extract_lets copies u
  have hskip : FlashWork s u := skipBad_flashWork sect copies 400 bad s
  split
  next => exact hskip.trans (makeWorn_flashWork sect reason u)
  next i _ =>
    extract_lets v _ _ _ _ _ _ y
    have hcopy : FlashWork u v := .ite ((noteSectors_flashWork sect 1 u).trans (flashWork_flash _ _)) (.refl u)
    have hserved : FlashWork v y := ⟨_, _, _, _, _, rfl⟩
    exact ((hskip.trans hcopy).trans hserved).trans (.ite (cause_flc_flashWork 6 y) (.refl y))

theorem warnSector_flashWork (sect kind : Nat) (s : State) : FlashWork s (warnSector sect kind s) :=
  ⟨_, _, _, _, _, rfl⟩

/-! ### Program and erase of the firmware (R350 to R362) -/

theorem flcEnd_flashWork (op st : Nat) (s : State) : FlashWork s (flcEnd op st s) := ⟨_, _, _, _, _, rfl⟩

theorem dropSectorLines_flashWork (sect : Nat) (s : State) : FlashWork s (dropSectorLines sect s) := flashWork_flc s _

theorem putFlashWords_flashWork (w : Nat) (vs : List Dword) (s : State) : FlashWork s (putFlashWords w vs s) :=
  .foldl (fun t _ => flashWork_flash t _) _ s

theorem spoilWords_flashWork (w n : Nat) (lost : Bool) (s : State) : FlashWork s (spoilWords w n lost s) :=
  .foldl (fun _ _ => ⟨_, _, _, _, _, rfl⟩) _ s

theorem drawOutcome_flashWork (top : Nat) (s : State) : FlashWork s (drawOutcome top s).2 := ⟨_, _, _, _, _, rfl⟩

theorem fwCommand_flashWork (op a n : Nat) (s : State) : FlashWork s (fwCommand op a n s) := flashWork_flc s _

theorem finishProg_flashWork (a : Nat) (ws : List Dword) (out : FlashOutcome) (s : State) :
    FlashWork s (finishProg a ws out s).2 := by
  unfold finishProg
  extract_lets sect u rb
  split
  next p _ =>
    extract_lets v w
    have hput : FlashWork s u := putFlashWords_flashWork (a / 8) ws s
    have hread : FlashWork u v := (flashWork_flc u _).trans (noteRead_flashWork rb _)
    have hwarn : FlashWork v w := .ite (warnSector_flashWork sect 0 v) (.refl v)
    exact ((hput.trans hread).trans hwarn).trans (.ite (warnSector_flashWork sect 1 w) (.refl w))
  next =>
    have hretire := (flashWork_flc s { s.flc with pulses := 8 }).trans
      (retireSector_flashWork sect 0 out.badSpares _)
    split
    · exact hretire.trans (putFlashWords_flashWork _ ws _)
    · exact (hretire.trans (spoilWords_flashWork _ _ true _)).trans ⟨_, _, _, _, _, rfl⟩

theorem eraseEnd_flashWork (sect : Nat) (out : FlashOutcome) (s : State) : FlashWork s (eraseEnd sect out s).2 := by
  unfold eraseEnd
  extract_lets _ u _ _ _ r
  have hdrop : FlashWork s u := ⟨_, _, _, _, _, rfl⟩
  split
  next => exact hdrop.trans ⟨_, _, _, _, _, rfl⟩
  next =>
    have hretire : FlashWork u r.2 := (flashWork_flc u _).trans (retireSector_flashWork sect 1 out.badSpares _)
    split
    · exact (hdrop.trans hretire).trans (flashWork_flash _ _)
    · dsimp only
      exact (hdrop.trans hretire).trans (spoilWords_flashWork _ _ false r.2)

theorem fwProgLine_flashWork (out : Option FlashOutcome) (a : Nat) (ws : List Dword) (s : State) :
    FlashWork s (fwProgLine out a ws s).2 := by
  unfold fwProgLine
  extract_lets u _ v o r
  have hfill : FlashWork s u := ⟨_, _, _, _, _, rfl⟩
  split
  · exact hfill.trans (flcEnd_flashWork 2 _ u)
  split
  · have hdrop : FlashWork u v := ⟨_, _, _, _, _, rfl⟩
    have hout : FlashWork v o.2 := by
      unfold o
      split
      · exact .refl v
      · exact drawOutcome_flashWork 8 v
    have hprog : FlashWork o.2 r.2 := finishProg_flashWork a ws o.1 o.2
    exact ((((hfill.trans hdrop).trans hout).trans hprog).trans (dropSectorLines_flashWork _ _)).trans
      (flcEnd_flashWork 2 _ _)
  · exact hfill.trans (flcEnd_flashWork 2 _ u)

theorem fwProgWords_flashWork : ∀ (f : Nat) (outs : List FlashOutcome) (w : Nat) (ws : List Dword) (s : State),
    FlashWork s (fwProgWords f outs w ws s).2
  | 0, _, _, _, s => .refl s
  | f + 1, outs, w, ws, s => by
    have hline : ∀ n, FlashWork s (fwProgLine outs.head? (8 * w) (ws.take n) s).2 :=
      fun n => fwProgLine_flashWork _ _ _ s
    unfold fwProgWords
    dsimp only
    split
    · exact .refl s
    split
    · exact (hline _).trans (fwProgWords_flashWork f _ _ _ _)
    · exact hline _

theorem fwRetire_flashWork (sect : Nat) (s : State) : FlashWork s (fwRetire sect s) := by
  unfold fwRetire
  extract_lets u _ o
  have hcmd : FlashWork s u := fwCommand_flashWork 6 _ 0 s
  have hdraw : FlashWork u o.2 := ⟨_, _, _, _, _, rfl⟩
  refine hcmd.trans (.ite (flcEnd_flashWork 6 _ u) (hdraw.trans ?_))
  exact (((dropSectorLines_flashWork sect _).trans (retireSector_flashWork sect 2 _ _)).trans
    (flcEnd_flashWork 6 _ _)).trans (dropSectorLines_flashWork sect _)

theorem fwErase_flashWork (sect : Nat) (s : State) : FlashWork s (fwErase sect s).2 := by
  unfold fwErase
  extract_lets u v _ o r
  have hretire : FlashWork s u := .ite (fwRetire_flashWork sect s) (.refl s)
  have hcmd : FlashWork u v := fwCommand_flashWork 3 _ 0 u
  have hdraw : FlashWork v o.2 :=
    ((flashWork_flc v _).trans (dropSectorLines_flashWork sect _)).trans (drawOutcome_flashWork 12 _)
  have herase : FlashWork o.2 r.2 := eraseEnd_flashWork sect o.1 o.2
  split
  · exact (hretire.trans hcmd).trans (flcEnd_flashWork 3 _ v)
  · exact (((hretire.trans hcmd).trans hdraw).trans herase).trans (flcEnd_flashWork 3 _ r.2)

/-! ### Steps 1 and 2 of a page rewrite (R213) -/

theorem journalErase_flashWork (sect : Nat) (s : State) : FlashWork s (journalErase sect s) :=
  ((fwErase_flashWork sect s).trans (flashWork_tel _ _)).trans (.ite (cause_tel_flashWork 4 _) (.refl _))

theorem writePage_flashWork (p : Nat) (s : State) : FlashWork s (writePage p s).2 := by
  unfold writePage
  extract_lets x ws u r v
  have herase : FlashWork s u := .ite (.refl s) (journalErase_flashWork x s)
  have hprog : FlashWork u r.2 := fwProgWords_flashWork 513 [] (x * 512) ws u
  have hnote : FlashWork r.2 v := noteSectors_flashWork x 1 r.2
  dsimp only
  exact (herase.trans hprog).trans hnote

end Sys2Proof.Machine
end

section
/-! PROOFS. A page of the counter journal is rewritten (R213). -/

namespace Sys2Proof.Machine

/-- With a place in the log a record is appended: its words join the journal port's queue, SEQ moves on, no stall is left, and of
the counter vault only the log's own fields change (R212). -/
theorem appendJournal_placed (typ value index : Nat) (s : State) (h : (journalPlace s).isSome = true) :
    ∃ jport c, appendJournal typ value index s = (true, { s with
        flc := { s.flc with jport := jport }
        sym := { s.sym with ctr := c } })
      ∧ c.v = s.sym.ctr.v ∧ c.b = s.sym.ctr.b ∧ c.seq = s.sym.ctr.seq + 1 := by
  obtain ⟨⟨x, off, fresh⟩, hplace⟩ := Option.isSome_iff_exists.mp h
  unfold appendJournal
  rw [hplace]
  cases fresh <;> exact ⟨_, _, rfl, rfl, rfl, rfl⟩

/-- A page rewrite has nothing to do before its period has passed, and while another is under way. -/
theorem pageRewriteEffect_idle (s : State) (h : s.sym.ctr.since < pagePeriod s ∨ s.sym.ctr.rewrite ≠ .none) :
    pageRewriteEffect s = s := by
  unfold pageRewriteEffect
  rw [if_pos]
  rcases h with hearly | hrun
  · exact .inr (.inr (.inl hearly))
  · exact .inr (.inr (.inr (.inr (.inr hrun))))

/-- A page rewrite is due: its period has passed, the warden runs, the journal port is idle, and none is under way (R213). -/
structure RewriteDue (s : State) : Prop where
  power : powered s = true
  warden : wardenUp s = true
  since : pagePeriod s ≤ s.sym.ctr.since
  period : 0 < pagePeriod s
  idle : portIdle s = true
  fresh : s.sym.ctr.rewrite = .none

/-- A rewrite that is due, whose page verifies and whose PAGE record finds a place, awaits that record. -/
theorem pageRewriteEffect_due (s : State) (h : RewriteDue s) (hw : (writePage (s.sym.ctr.nextPage % 128) s).1 = true)
    (hr : ∀ v, (appendJournal 2 v (s.sym.ctr.nextPage % 128) (writePage (s.sym.ctr.nextPage % 128) s).2).1 = true) :
    pageRewriteEffect s = updCtr (fun c => { c with
        rewrite := .record (s.sym.ctr.nextPage % 128) s.sym.ctr.freeSect s.sym.ctr.seq })
      (appendJournal 2 (s.sym.ctr.freeSect + s.sym.ctr.seq * 2 ^ 32) (s.sym.ctr.nextPage % 128)
        (writePage (s.sym.ctr.nextPage % 128) s).2).2 := by
  obtain ⟨hpow, hward, hsince, hperiod, hidle, hfresh⟩ := h
  have hnot : ¬(powered s = false ∨ wardenUp s = false ∨ s.sym.ctr.since < pagePeriod s ∨ pagePeriod s = 0
      ∨ portIdle s = false ∨ s.sym.ctr.rewrite ≠ .none) := by
    simp only [hpow, hward, hidle, hfresh]
    simp
    omega
  unfold pageRewriteEffect
  rw [if_neg hnot]
  dsimp only
  rw [if_pos hw, if_pos (hr _)]

/-- What `writePage` reads back is the page's bounds. -/
theorem writePage_words (p : Nat) (s : State) (h : (writePage p s).1 = true) (i : Nat) (hi : i < 512) :
    flashWord (writePage p s).2 ((ctrjSect0 s + s.sym.ctr.freeSect) * 512 + i) = BitVec.ofNat 64 (ctrB s (512 * p + i)) := by
  unfold writePage at h ⊢
  simp only [Bool.and_eq_true, List.all_eq_true, List.mem_range, beq_iff_eq] at h
  obtain ⟨-, hread⟩ := h
  rw [hread i hi]
  simp [pageWords, hi]

/-- What a flash word reads as depends on the array and on a suspended erase (R348, R358). -/
theorem flashWord_congr (s t : State) (w : Nat) (hflash : t.flash = s.flash) (herase : t.flc.erase = s.flc.erase)
    (hsect : t.flc.eraseSect = s.flc.eraseSect) : flashWord t w = flashWord s w := by
  have hcell : cellAt t w = cellAt s w := by
    unfold cellAt physSect
    rw [hflash]
  unfold flashWord readSuspended flashCell
  rw [hcell, hflash, herase, hsect]

/-- A rewrite that is due and finds its page as written leaves the page in the free pool sector and awaits its PAGE record; no
counter changes (R213). -/
theorem pageRewriteEffect_writes (s : State) (h : RewriteDue s) (hw : (writePage (s.sym.ctr.nextPage % 128) s).1 = true)
    (hplace : (journalPlace (writePage (s.sym.ctr.nextPage % 128) s).2).isSome = true) :
    SameCounters s (pageRewriteEffect s)
      ∧ (pageRewriteEffect s).sym.ctr.rewrite = .record (s.sym.ctr.nextPage % 128) s.sym.ctr.freeSect s.sym.ctr.seq
      ∧ (∀ i < 512, flashWord (pageRewriteEffect s) ((ctrjSect0 s + s.sym.ctr.freeSect) * 512 + i)
        = BitVec.ofNat 64 (ctrB s (512 * (s.sym.ctr.nextPage % 128) + i)))
      ∧ (pageRewriteEffect s).sym.ctr.seq = s.sym.ctr.seq + 1 ∧ SameOutside flashParts s (pageRewriteEffect s) := by
  have hwork := writePage_flashWork (s.sym.ctr.nextPage % 128) s
  have hwords := writePage_words (s.sym.ctr.nextPage % 128) s hw
  have hdue := pageRewriteEffect_due s h hw fun v => by
    obtain ⟨_, _, happ, -⟩ := appendJournal_placed 2 v (s.sym.ctr.nextPage % 128) _ hplace
    rw [happ]
  obtain ⟨jport, c, happ, hv, hb, hseq⟩ := appendJournal_placed 2 (s.sym.ctr.freeSect + s.sym.ctr.seq * 2 ^ 32)
    (s.sym.ctr.nextPage % 128) _ hplace
  rw [hdue, happ]
  rw [hwork.ctr] at hv hb hseq
  generalize (writePage (s.sym.ctr.nextPage % 128) s).2 = u at hwork hwords
  refine ⟨⟨fun k => ?_, fun k => ?_⟩, rfl, fun i hi => ?_, hseq, ?_⟩
  · exact congrArg (SMap.get 0 · k) hv
  · exact congrArg (SMap.get 0 · k) hb
  · exact (flashWord_congr _ _ _ rfl rfl rfl).trans (hwords i hi)
  · exact (hwork.trans (flashWork_flc _ _)).sameOutside.trans ((sameOutside_sym _ _).mono (by simp))

end Sys2Proof.Machine
end

section
/-! PROOFS. Frames and slots of the service pipelines, and the chains that a new assignment closes (R26, R196, R197). -/

namespace Sys2Proof.Machine

/-! ### What a port's request leaves alone as it ends (R190, R196) -/

/-- From `s` to `t` at most the ports, chains and compressor contexts have changed, and who stands in line at the counter vault. -/
def PortWork (s t : State) : Prop := ∃ ports chains sha arrivals, t = { s with
  sym := { s.sym with
    ports := ports
    chains := chains
    sha := sha
    ctr := { s.sym.ctr with arrivals := arrivals } } }

theorem PortWork.refl (s : State) : PortWork s s := ⟨_, _, _, _, rfl⟩

theorem PortWork.trans {s t u : State} (h : PortWork s t) (h' : PortWork t u) : PortWork s u := by
  obtain ⟨_, _, _, _, rfl⟩ := h
  obtain ⟨_, _, _, _, rfl⟩ := h'
  exact ⟨_, _, _, _, rfl⟩

theorem PortWork.foldl {α : Type} {f : State → α → State} (h : ∀ s a, PortWork s (f s a)) :
    ∀ (l : List α) (s : State), PortWork s (l.foldl f s)
  | [], s => .refl s
  | a :: l, s => (h s a).trans (foldl h l (f s a))

theorem PortWork.ite {p : Prop} [Decidable p] {s t u : State} (ht : PortWork s t) (hu : PortWork s u) :
    PortWork s (if p then t else u) := by
  split
  · exact ht
  · exact hu

theorem PortWork.sameOutside {s t : State} (h : PortWork s t) : SameOutside [.sym] s t := by
  obtain ⟨_, _, _, _, rfl⟩ := h
  exact sameOutside_sym s _

theorem PortWork.pipeOf {s t : State} (h : PortWork s t) (p : Nat) : pipeOf t p = pipeOf s p := by
  obtain ⟨_, _, _, _, rfl⟩ := h
  rfl

theorem PortWork.sameCounters {s t : State} (h : PortWork s t) : SameCounters s t := by
  obtain ⟨_, _, _, _, rfl⟩ := h
  exact ⟨fun _ => rfl, fun _ => rfl⟩

theorem portEnd_portWork (n st : Nat) (d : Option (List Byte)) (s : State) : PortWork s (portEnd n st d s) :=
  ⟨_, _, _, _, rfl⟩

theorem setPort_portWork (n : Nat) (p : SymPort) (s : State) : PortWork s (setPort n p s) := ⟨_, _, _, _, rfl⟩
theorem setChain_portWork (k : Nat) (c : ChainReg) (s : State) : PortWork s (setChain k c s) := ⟨_, _, _, _, rfl⟩
theorem clearSha_portWork (f : Nat → Bool) (s : State) : PortWork s (clearSha f s) := ⟨_, _, _, _, rfl⟩
theorem clearChains_portWork (f : Nat → Bool) (s : State) : PortWork s (clearChains f s) := ⟨_, _, _, _, rfl⟩

theorem abortSym_portWork (f : Nat → Bool) (s : State) : PortWork s (abortSym f s) :=
  have hports : PortWork s (abortPorts f s) := .foldl (fun s n => portEnd_portWork n stAborted none s) _ s
  (hports.trans (clearChains_portWork f _)).trans (clearSha_portWork f _)

/-! ### What is the same of a pipeline whoever its loaders serve -/

/-- Two values of a pipeline differ at most in whom its loaders have served. -/
def SameSchedule (x y : Pipe) : Prop := y = { x with served := y.served }

theorem SameSchedule.refl (x : Pipe) : SameSchedule x x := rfl

theorem SameSchedule.trans {x y z : Pipe} (h : SameSchedule x y) (h' : SameSchedule y z) : SameSchedule x z := by
  unfold SameSchedule at h h' ⊢
  rw [h', h]

/-- The assignment in force, the one that is due, and the slot are part of the schedule. -/
theorem SameSchedule.fields {x y : Pipe} (h : SameSchedule x y) :
    y.kind = x.kind ∧ y.slots = x.slots ∧ y.nextCfg = x.nextCfg ∧ y.slot = x.slot := by
  rw [h]
  exact ⟨rfl, rfl, rfl, rfl⟩

/-- The parts that loads and the boundaries of frames may change: the symmetric block, and the commands that wait there. -/
abbrev loadParts : List Part := [.sym, .hqi]

theorem setPipe_frame (p : Nat) (x : Pipe) (s : State) : SameOutside loadParts s (setPipe p x s) :=
  (sameOutside_sym s _).mono (by simp)

theorem beginLoad_frame (p : Nat) (x : LoadAsk) (s : State) : SameOutside loadParts s (beginLoad p x s) := by
  unfold beginLoad
  split
  · exact (sameOutside_sym s _).mono (by simp)
  · exact (sameOutside_hqi s _).mono (by simp)

/-- A load that begins marks who asked, and no pipeline. -/
@[simp] theorem pipeOf_beginLoad (p q : Nat) (x : LoadAsk) (s : State) : pipeOf (beginLoad p x s) q = pipeOf s q := by
  unfold beginLoad
  split <;> rfl

/-! ### Loads on work-conserving pipelines (R197) -/

theorem startLoads_frame (p : Nat) : ∀ (n : Nat) (s : State), SameOutside loadParts s (startLoads p n s)
  | 0, s => .refl _ s
  | n + 1, s => by
    unfold startLoads
    split
    · exact .refl _ s
    split
    · exact ((setPipe_frame p _ s).trans (beginLoad_frame p _ _)).trans (startLoads_frame p n _)
    · exact .refl _ s

theorem startLoads_schedule (p q : Nat) : ∀ (n : Nat) (s : State), SameSchedule (pipeOf s q) (pipeOf (startLoads p n s) q)
  | 0, _ => .refl _
  | n + 1, s => by
    unfold startLoads
    split
    · exact .refl _
    split
    · next x y _ =>
      refine .trans ?_ (startLoads_schedule p q n _)
      rw [pipeOf_beginLoad, pipeOf_setPipe]
      split
      · next h => subst h; rfl
      · rfl
    · exact .refl _

theorem serveLoads_frame (s : State) : SameOutside loadParts s (serveLoads s) :=
  .foldl (fun t p => startLoads_frame p 2 t) _ s

theorem serveLoads_schedule (q : Nat) (s : State) : SameSchedule (pipeOf s q) (pipeOf (serveLoads s) q) := by
  unfold serveLoads
  generalize List.range 4 = ps
  induction ps generalizing s with
  | nil => rfl
  | cons p ps ih => exact (startLoads_schedule p q 2 s).trans (ih _)

/-! ### The start of a slot (R197) -/

theorem slotStart_frame (p : Nat) (s : State) : SameOutside loadParts s (slotStart p s) := by
  unfold slotStart
  dsimp only
  split
  · exact (setPipe_frame p _ s).trans (beginLoad_frame p _ _)
  · exact .refl _ s

/-- A slot that starts concerns its own pipeline. -/
theorem slotStart_other (p q : Nat) (s : State) (h : q ≠ p) : pipeOf (slotStart p s) q = pipeOf s q := by
  unfold slotStart
  dsimp only
  split
  · rw [pipeOf_beginLoad, pipeOf_setPipe, if_neg h]
  · rfl

theorem slotStart_schedule (p : Nat) (s : State) : SameSchedule (pipeOf s p) (pipeOf (slotStart p s) p) := by
  unfold slotStart
  dsimp only
  split
  · rw [pipeOf_beginLoad, pipeOf_setPipe, if_pos rfl]
    rfl
  · rfl

/-! ### Steps that go through the pipelines in order -/

/-- Where each step of a pass over the pipelines takes its own pipeline from one value to another that `R` permits, and leaves the
others alone, the pass does so with every pipeline. -/
theorem pipes_foldl {R : Pipe → Pipe → Prop} {f : Nat → State → State} (hown : ∀ p s, R (pipeOf s p) (pipeOf (f p s) p))
    (hother : ∀ p q s, q ≠ p → pipeOf (f p s) q = pipeOf s q) (n : Nat) (s : State) :
    ∀ q, (q < n → R (pipeOf s q) (pipeOf ((List.range n).foldl (fun t p => f p t) s) q))
      ∧ (n ≤ q → pipeOf ((List.range n).foldl (fun t p => f p t) s) q = pipeOf s q) := by
  induction n with
  | zero => exact fun q => ⟨fun h => absurd h (Nat.not_lt_zero q), fun _ => rfl⟩
  | succ n ih =>
    intro q
    simp only [List.range_succ, List.foldl_append, List.foldl_cons, List.foldl_nil]
    refine ⟨fun hq => ?_, fun hq => ?_⟩
    · by_cases hqn : q = n
      · rw [hqn, ← (ih n).2 (Nat.le_refl n)]
        exact hown n _
      · rw [hother n q _ hqn]
        exact (ih q).1 (by omega)
    · rw [hother n q _ (by omega)]
      exact (ih q).2 (by omega)

/-! ### The next slot of every Pavane pipeline (R26) -/

/-- `y` is pipeline `x` after the next slot of its frame, where it is a Pavane pipeline and the frame has one. -/
def NextSlot (x y : Pipe) : Prop :=
  y.slots = x.slots ∧ (x.kind = 1 → y.slot = if x.slot < 15 then x.slot + 1 else x.slot) ∧ (x.kind ≠ 1 → y = x)

theorem pipeSlot_frame (p : Nat) (s : State) : SameOutside loadParts s (pipeSlot p s) := by
  unfold pipeSlot
  dsimp only
  split
  · exact (setPipe_frame p _ s).trans (slotStart_frame p _)
  · exact .refl _ s

theorem pipeSlot_other (p q : Nat) (s : State) (h : q ≠ p) : pipeOf (pipeSlot p s) q = pipeOf s q := by
  unfold pipeSlot
  dsimp only
  split
  · rw [slotStart_other p q _ h, pipeOf_setPipe, if_neg h]
  · rfl

theorem pipeSlot_own (p : Nat) (s : State) : NextSlot (pipeOf s p) (pipeOf (pipeSlot p s) p) := by
  unfold pipeSlot
  dsimp only
  split
  next h =>
    obtain ⟨hkind, hslot⟩ := h
    obtain ⟨-, hslots, -, hnext⟩ := (slotStart_schedule p (setPipe p { pipeOf s p with slot := (pipeOf s p).slot + 1 } s)).fields
    rw [pipeOf_setPipe, if_pos rfl] at hslots hnext
    exact ⟨hslots, fun _ => by rw [hnext, if_pos hslot], fun hne => absurd hkind hne⟩
  next h => exact ⟨rfl, fun hkind => by rw [if_neg fun hslot => h ⟨hkind, hslot⟩], fun _ => rfl⟩

theorem pavaneSlot_frame (s : State) : SameOutside loadParts s (pavaneSlot s) := .foldl (fun t p => pipeSlot_frame p t) _ s

theorem pavaneSlot_pipes (s : State) (p : Nat) (hp : p < 4) : NextSlot (pipeOf s p) (pipeOf (pavaneSlot s) p) :=
  (pipes_foldl pipeSlot_own pipeSlot_other 4 s p).1 hp

/-! ### The boundary of a frame (R26, R196) -/

theorem closePipeChains_portWork (p : Nat) (gone : Nat → Bool) (s : State) : PortWork s (closePipeChains p gone s) := by
  refine .foldl (fun t k => ?_) _ s
  split
  next n _ _ =>
    extract_lets u
    have hend : PortWork t u := by
      unfold u
      split
      · exact .ite (portEnd_portWork n _ none t) (.refl t)
      · exact .refl t
    exact ((hend.trans (setPort_portWork n _ u)).trans (setChain_portWork k {} _)).trans (clearSha_portWork _ _)
  next => exact .refl t

/-- A pipeline with its pending assignment in force. -/
def reassigned (x : Pipe) : Pipe :=
  match x.nextCfg with
  | some (k, sl) => { x with
    kind := k
    slots := sl
    nextCfg := none }
  | none => x

/-- A pending assignment is in force and no longer pending; without one the old assignment stays. -/
theorem reassigned_fields (x : Pipe) : (reassigned x).nextCfg = none
    ∧ (reassigned x).kind = (match x.nextCfg with | some c => c.1 | none => x.kind)
    ∧ (reassigned x).slots = (match x.nextCfg with | some c => c.2 | none => x.slots) := by
  unfold reassigned
  rcases hcfg : x.nextCfg with _ | c
  · exact ⟨hcfg, rfl, rfl⟩
  · exact ⟨rfl, rfl, rfl⟩

/-- A pipeline as a frame begins: its pending assignment in force, at slot 0. -/
def frameStart (x : Pipe) : Pipe := { reassigned x with slot := 0 }

theorem pipeBoundary_eq (p : Nat) (s : State) :
    ∃ t, PortWork (setPipe p (frameStart (pipeOf s p)) s) t ∧ pipeBoundary p s = slotStart p t := by
  unfold pipeBoundary
  extract_lets x y t owned gone
  exact ⟨_, .ite (closePipeChains_portWork p gone t) (.refl t), rfl⟩

theorem pipeBoundary_frame (p : Nat) (s : State) : SameOutside loadParts s (pipeBoundary p s) := by
  obtain ⟨t, hwork, heq⟩ := pipeBoundary_eq p s
  rw [heq]
  exact ((setPipe_frame p _ s).trans (hwork.sameOutside.mono (by simp))).trans (slotStart_frame p t)

theorem pipeBoundary_other (p q : Nat) (s : State) (h : q ≠ p) : pipeOf (pipeBoundary p s) q = pipeOf s q := by
  obtain ⟨t, hwork, heq⟩ := pipeBoundary_eq p s
  rw [heq, slotStart_other p q t h, hwork.pipeOf, pipeOf_setPipe, if_neg h]

theorem pipeBoundary_own (p : Nat) (s : State) : SameSchedule (frameStart (pipeOf s p)) (pipeOf (pipeBoundary p s) p) := by
  obtain ⟨t, hwork, heq⟩ := pipeBoundary_eq p s
  have hstart := slotStart_schedule p t
  rw [hwork.pipeOf, pipeOf_setPipe, if_pos rfl] at hstart
  rw [heq]
  exact hstart

theorem pavaneBoundary_frame (s : State) : SameOutside loadParts s (pavaneBoundary s) :=
  (SameOutside.foldl (fun t p => pipeBoundary_frame p t) _ s).trans (serveLoads_frame _)

theorem pavaneBoundary_pipes (s : State) (p : Nat) (hp : p < 4) :
    SameSchedule (frameStart (pipeOf s p)) (pipeOf (pavaneBoundary s) p) :=
  ((pipes_foldl (R := fun x y => SameSchedule (frameStart x) y) pipeBoundary_own pipeBoundary_other 4 s p).1 hp).trans
    (serveLoads_schedule p _)

end Sys2Proof.Machine
end

section
/-! PROOFS. The end of a command in flight, and the requests that a stalled journal ends (R29, R80, R215). -/

namespace Sys2Proof.Machine

/-! ### Ending a command in flight: the parts it may change (R29, R80, R448) -/

/-- The parts that the end of a command may change besides the engines that hold its work. -/
abbrev endParts : List Part := [.hqi, .rfb, .btn, .out]

theorem setBtnPort_frame (n : Nat) (p : Port) (s : State) : SameOutside endParts s (setBtnPort n p s) := fun q hq => by
  cases q <;> simp_all [SamePart]

theorem emit_frame (o : Output) (s : State) : SameOutside endParts s (emit o s) := fun q hq => by
  cases q <;> simp_all [SamePart]

theorem sendFlit_frame (n : Nat) (kind : Byte) (b : List Byte) (s : State) : SameOutside endParts s (sendFlit n kind b s) :=
  ((setBtnPort_frame n _ s).trans (setBtnPort_frame n _ _)).trans (emit_frame _ _)

theorem pumpPort_frame (n : Nat) : ∀ (f : Nat) (s : State), SameOutside endParts s (pumpPort n f s)
  | 0, s => .refl _ s
  | f + 1, s => by
    unfold pumpPort
    dsimp only
    split
    · split
      · exact ((setBtnPort_frame n _ s).trans (sendFlit_frame n 1 _ _)).trans (pumpPort_frame n f _)
      · exact .refl _ s
    · exact .refl _ s

theorem sendReturn_frame (src g : Nat) (i reply : Word) (c res : List Byte) (s : State) :
    SameOutside endParts s (sendReturn src g i reply c res s) := by
  unfold sendReturn sendPacket relayPacket
  split
  · exact (setBtnPort_frame _ _ s).trans (pumpPort_frame _ _ _)
  · exact .refl _ s

theorem updHqi_frame (x : HqiState) (s : State) : SameOutside endParts s { s with hqi := x } :=
  (sameOutside_hqi s x).mono (by simp)

theorem commitCompletion_frame (r : CmdRef) (bs : List Byte) (s : State) :
    SameOutside endParts s (commitCompletion r bs s) :=
  ((updHqi_frame _ s).trans ((addCells_frame r.fn 2 _).mono (by simp))).trans ((toSink_frame 0 _ _).mono (by simp))

theorem pumpChain_frame (c : Nat) : ∀ (n : Nat) (ch : Chain) (s : State), SameOutside endParts s (pumpChain c n ch s)
  | 0, _, s => .refl _ s
  | n + 1, ch, s => by
    unfold pumpChain
    split
    · exact (((updHqi_frame _ s).trans ((takeEntryPacket_frame _ _).mono (by simp))).trans
        (commitCompletion_frame _ _ _)).trans (pumpChain_frame c n _ _)
    · exact .refl _ s

theorem pumpChains_frame (c : Nat) (s : State) : SameOutside endParts s (pumpChains c s) :=
  .foldl (fun t ch => pumpChain_frame c _ ch t) _ s

/-- Of the symmetric block the end of a command leaves all as it is, or what an abort of its core leaves. -/
theorem clearWork_sym (cmd : Cmd) (st : Nat) (s : State) :
    (clearWork cmd st s).sym = s.sym ∨ ∃ n, (clearWork cmd st s).sym = (abortSym (· == n) s).sym := by
  have habort : ∀ n, (abortCore n s).sym = (abortSym (· == n) s).sym := fun n =>
    contextAbort_frame (trussOf n) (coreInTruss n) (abortSym (· == n) s) .sym (by decide)
  unfold clearWork
  extract_lets u
  have hu : u.sym = s.sym ∨ ∃ n, u.sym = (abortSym (· == n) s).sym := by
    unfold u
    split
    · split
      · exact .inr ⟨_, habort _⟩
      · exact .inl rfl
    · exact .inl rfl
  split <;> exact hu

theorem endCmd_sym (r : CmdRef) (st res : Nat) (inl : List Byte) (s : State) :
    (endCmd r st res inl s).sym = s.sym ∨ ∃ n, (endCmd r st res inl s).sym = (abortSym (· == n) s).sym := by
  unfold endCmd
  split
  next => exact .inl rfl
  next cmd _ =>
    suffices hframe : ∀ t, SameOutside endParts (clearWork cmd st s) t →
        t.sym = s.sym ∨ ∃ n, t.sym = (abortSym (· == n) s).sym by
      refine hframe _ ?_
      dsimp only
      split
      · exact (updHqi_frame _ _).trans (updHqi_frame _ _)
      split
      · exact (sendReturn_frame _ _ _ _ _ _ _).trans (updHqi_frame _ _)
      split
      · exact commitCompletion_frame _ _ _
      · exact ((updHqi_frame _ _).trans (updHqi_frame _ _)).trans (pumpChains_frame _ _)
    intro t ht
    have hsym : t.sym = (clearWork cmd st s).sym := ht .sym (by decide)
    rw [hsym]
    exact clearWork_sym cmd st s

/-! ### Requests that a stalled journal ends (R215) -/

/-- The request of core `n`'s port has ended with status `st`, and the store lists no other. -/
def PortRests (n st : Nat) (s : State) : Prop :=
  (portOf s n).req = none ∧ (portOf s n).status = st ∧ ∀ e ∈ s.sym.ports, e.1 = n → e.2.req = none

/-- A written store lists its own key with the value written, and others as before. -/
theorem SMap.mem_set {α : Type} [DecidableEq α] (d : α) (m : SMap α) (k : Nat) (v : α) (e : Nat × α)
    (h : e ∈ SMap.set d m k v) : e = (k, v) ∨ (e ∈ m ∧ e.1 ≠ k) := by
  have herase : e ∈ SMap.erase m k → e ∈ m ∧ e.1 ≠ k := fun he => ⟨SMap.mem_erase m k e he, SMap.erase_keys m k e he⟩
  unfold SMap.set at h
  split at h
  · exact .inr (herase h)
  · exact (SMap.mem_insert _ k v e h).imp id herase

theorem portEnd_rests (n st : Nat) (d : Option (List Byte)) (s : State) : PortRests n st (portEnd n st d s) := by
  refine ⟨?_, ?_, fun e he hn => ?_⟩
  · simp [portEnd]
  · simp [portEnd]
  · rcases SMap.mem_set _ _ _ _ e he with rfl | ⟨-, hne⟩
    · rfl
    · exact absurd hn hne

/-- The end of another port's request leaves a port at rest. -/
theorem portEnd_keepsRest (n m st st' : Nat) (d : Option (List Byte)) (s : State) (hm : m ≠ n) (h : PortRests n st s) :
    PortRests n st (portEnd m st' d s) := by
  obtain ⟨hreq, hst, hall⟩ := h
  have hport : portOf (portEnd m st' d s) n = portOf s n := (portOf_setPort _ m n _).trans (if_neg hm.symm)
  refine ⟨by rw [hport]; exact hreq, by rw [hport]; exact hst, fun e he hn => ?_⟩
  rcases SMap.mem_set _ _ _ _ e he with rfl | ⟨hmem, -⟩
  · exact absurd hn hm
  · exact hall e hmem hn

/-- Ending the requests of several ports with one status leaves each of these ports at rest, and one that rested so. -/
theorem portEnd_foldl_rests (st : Nat) (d : Option (List Byte)) (ns : List Nat) (n : Nat) (s : State)
    (h : n ∈ ns ∨ PortRests n st s) : PortRests n st (ns.foldl (fun t m => portEnd m st d t) s) := by
  induction ns generalizing s with
  | nil => exact h.resolve_left (by simp)
  | cons m ms ih =>
    refine ih _ ?_
    by_cases hm : m = n
    · exact .inr (hm ▸ portEnd_rests m st d s)
    · rcases h with hmem | hrest
      · exact .inl ((List.mem_cons.mp hmem).resolve_left (Ne.symm hm))
      · exact .inr (portEnd_keepsRest n m st st d s hm hrest)

/-- Ending other ports' requests leaves a port at rest. -/
theorem portEnd_foldl_keepsRest (n st st' : Nat) (d : Option (List Byte)) (ms : List Nat) (s : State) (hms : ∀ m ∈ ms, m ≠ n)
    (h : PortRests n st s) : PortRests n st (ms.foldl (fun t m => portEnd m st' d t) s) := by
  induction ms generalizing s with
  | nil => exact h
  | cons m ms ih =>
    exact ih _ (fun k hk => hms k (List.mem_cons_of_mem m hk)) (portEnd_keepsRest n m st st' d s (hms m (by simp)) h)

/-- An abort ends the requests in progress; a port at rest has none. -/
theorem abortSym_keepsRest (f : Nat → Bool) (n st : Nat) (s : State) (h : PortRests n st s) :
    PortRests n st (abortSym f s) := by
  have hports : PortRests n st (abortPorts f s) := by
    refine portEnd_foldl_keepsRest n st stAborted none _ s (fun m hm hmn => ?_) h
    obtain ⟨e, he, rfl⟩ := List.mem_map.mp hm
    obtain ⟨hmem, hbusy⟩ := List.mem_filter.mp he
    rw [h.2.2 e hmem hmn] at hbusy
    simp at hbusy
  exact hports

theorem endCmd_keepsRest (r : CmdRef) (st' res : Nat) (inl : List Byte) (n st : Nat) (s : State) (h : PortRests n st s) :
    PortRests n st (endCmd r st' res inl s) := by
  have hsym : ∀ {t u : State}, t.sym = u.sym → PortRests n st u → PortRests n st t := by
    intro t u heq hu
    unfold PortRests portOf at hu ⊢
    rw [heq]
    exact hu
  rcases endCmd_sym r st' res inl s with heq | ⟨k, heq⟩
  · exact hsym heq h
  · exact hsym heq (abortSym_keepsRest _ n st s h)

theorem endCmd_sameCounters (r : CmdRef) (st res : Nat) (inl : List Byte) (s : State) :
    SameCounters s (endCmd r st res inl s) := by
  have hsym : ∀ {t u : State}, t.sym = u.sym → SameCounters s u → SameCounters s t := by
    intro t u heq hu
    unfold SameCounters ctrV ctrB at hu ⊢
    rw [heq]
    exact hu
  rcases endCmd_sym r st res inl s with heq | ⟨n, heq⟩
  · exact hsym heq ⟨fun _ => rfl, fun _ => rfl⟩
  · exact hsym heq (abortSym_portWork _ s).sameCounters

/-- What holds of counters and ports is passed through the commands that end. -/
theorem endCmds_keep {P : State → Prop} (st : Nat) (h : ∀ r s, P s → P (endCmd r st 0 [] s)) (rs : List CmdRef) (s : State)
    (hs : P s) : P (rs.foldl (fun t r => endCmd r st 0 [] t) s) := by
  induction rs generalizing s with
  | nil => exact hs
  | cons r rs ih => exact ih _ (h r s hs)

theorem stallTimeout_running (c : Nat) (s : State) (h : s.sym.ctr.stalled = false) : stallTimeout c s = s := by
  simp [stallTimeout, h]

/-- A stalled journal draws nothing, and ends every port request that waits for a reservation of the counter (R215). -/
theorem stallTimeout_stalled (c : Nat) (s : State) (h : s.sym.ctr.stalled = true) :
    SameCounters s (stallTimeout c s)
      ∧ ∀ n r, (n, portOf s n) ∈ s.sym.ports → (portOf s n).req = some r → waitsFor s c r = true →
        PortRests n stSuspended (stallTimeout c s) := by
  unfold stallTimeout
  rw [if_pos h]
  dsimp only
  refine ⟨endCmds_keep _ (fun r u hu => ?_) _ _ ?_, fun n r hmem hreq hwait => endCmds_keep _ (fun q u hu => ?_) _ _ ?_⟩
  · obtain ⟨hv, hb⟩ := endCmd_sameCounters r stSuspended 0 [] u
    exact ⟨fun k => (hv k).trans (hu.1 k), fun k => (hb k).trans (hu.2 k)⟩
  · exact (PortWork.foldl (fun t n => portEnd_portWork n stSuspended none t) _ s).sameCounters
  · exact endCmd_keepsRest q _ _ _ n _ u hu
  · refine portEnd_foldl_rests stSuspended none _ n s (.inl (List.mem_map.mpr ⟨_, List.mem_filter.mpr ⟨hmem, ?_⟩, rfl⟩))
    simp [hreq, hwait]

end Sys2Proof.Machine
end

section
/-! PROOFS. The DRBGs' reseeds and the entropy sources (R206, R466, R467), and the obligation on the symmetric subsystem's events. -/

namespace Sys2Proof.Machine

theorem sameOutside_sys (s : State) (x : SysState) : SameOutside [.sys] s { s with sys := x } := fun p hp => by
  cases p <;> simp_all [SamePart]
theorem sameOutside_tel (s : State) (x : TelState) : SameOutside [.tel] s { s with tel := x } := fun p hp => by
  cases p <;> simp_all [SamePart]

/-- A register in which bit `i` is set shows it. -/
theorem getLsbD_or_two_pow {n : Nat} (w : BitVec n) (i : Nat) (hi : i < n) :
    (w ||| BitVec.ofNat n (2 ^ i)).getLsbD i = true := by
  rw [BitVec.getLsbD_or, BitVec.getLsbD_ofNat, Nat.testBit_two_pow_self, decide_eq_true hi]
  exact Bool.or_true _

theorem drawBytes_frame (n : Nat) (s : State) : SameOutside [.free] s (drawBytes n s).2 := sameOutside_free s _

/-! ### Leaving the error state of a DRBG (R206) -/

/-- With two sources left a reseed uses up one block of the pool, where it holds one, and leaves the DRBG instantiated, out of its
error state and without requests. -/
theorem drbgReseed_good (k : Nat) (s : State) (h : entropyGood s = true) :
    ∃ d u, (drbgReseed k s).2 = setDrbg k d u ∧ d.inst = true ∧ d.since = 0 ∧ d.err = false
      ∧ u.sys.pool = s.sys.pool.drop 1 ∧ SameOutside [.sys, .free] s u := by
  have hframe : ∀ n x, SameOutside [.sys, .free] s { s with free := n, sys := x } := fun n x =>
    ((sameOutside_free s n).mono (by simp)).trans ((sameOutside_sys _ x).mono (by simp))
  unfold drbgReseed
  rw [if_pos h]
  dsimp only
  split
  next hinst =>
    cases hpool : s.sys.pool <;>
      exact ⟨_, _, rfl, hinst, rfl, rfl, congrArg (List.drop 1) hpool, hframe _ _⟩
  next =>
    cases hpool : s.sys.pool <;>
      exact ⟨_, _, rfl, rfl, rfl, rfl, congrArg (List.drop 1) hpool, hframe _ _⟩

/-- With fewer than two sources it stays in the error state, and the failure shows in DRBG_FAIL and its cause. -/
theorem drbgReseed_bad (k : Nat) (s : State) (h : entropyGood s = false) (hk : k < 32) :
    (drbgOf (drbgReseed k s).2 k).err = true ∧ (drbgReseed k s).2.sym.drbgFail.getLsbD k = true
      ∧ (drbgReseed k s).2.sym.cause.getLsbD 0 = true := by
  have hfail : (drbgReseed k s).2 = drbgError k s := by simp [drbgReseed, h]
  rw [hfail]
  unfold drbgError
  rw [if_pos hk]
  refine ⟨?_, getLsbD_or_two_pow _ k hk, getLsbD_or_two_pow _ 0 (by decide)⟩
  exact congrArg Drbg.err ((drbgOf_setDrbg s k k _).trans (if_pos rfl))

/-! ### Blocks of the entropy sources (R466, R467) -/

section
variable {k : Nat} {s : State} (hon : s.sys.entOn.getLsbD k = true) (hgood : s.sys.entFail.getLsbD k = false)
include hon hgood

/-- A healthy block joins a pool that has room, while two sources remain. -/
theorem entropyBlock_healthy (hroom : s.sys.pool.length < 256) (htwo : entropyGood s = true) :
    (entropyBlock k true s).sys.pool = s.sys.pool ++ [(drawBytes 48 s).1]
      ∧ SameOutside [.sys, .free] s (entropyBlock k true s) := by
  have heq : entropyBlock k true s = { (drawBytes 48 s).2 with sys := { (drawBytes 48 s).2.sys with
      pool := (drawBytes 48 s).2.sys.pool ++ [(drawBytes 48 s).1] } } := by
    simp [entropyBlock, hon, hgood, htwo, Nat.not_le.mpr hroom]
  rw [heq]
  exact ⟨rfl, ((drawBytes_frame 48 s).mono (by simp)).trans ((sameOutside_sys _ _).mono (by simp))⟩

/-- A source that fails its health test is excluded, with its cause, and gives no block. -/
theorem entropyBlock_failed (hk : k < 4) :
    (entropyBlock k false s).sys.entFail.getLsbD k = true ∧ (entropyBlock k false s).sys.pool = s.sys.pool
      ∧ (entropyBlock k false s).sys.cause.getLsbD 6 = true ∧ SameOutside [.sys, .tel] s (entropyBlock k false s) := by
  have heq : entropyBlock k false s = cause .sys 6 { s with
      sys := { s.sys with entFail := s.sys.entFail ||| BitVec.ofNat 4 (2 ^ k) }
      tel := { s.tel with counts := { s.tel.counts with entropy := satInc 0xFFFFFFFF s.tel.counts.entropy } } } := by
    simp [entropyBlock, hon, hgood]
  rw [heq]
  exact ⟨getLsbD_or_two_pow _ k hk, rfl, getLsbD_or_two_pow _ 6 (by decide),
    ((sameOutside_tel s _).mono (by simp)).trans ((sameOutside_sys _ _).mono (by simp))⟩

end

end Sys2Proof.Machine

namespace Sys2Proof.Proofs
open Sys2Proof.Machine

/-- Settles O34, event by event. -/
theorem symmetricEvents : Obligations.SymmetricEvents := by
  unfold Obligations.SymmetricEvents
  refine ⟨fun s hpow hlock => ⟨?boundary, ?slot⟩, fun i s hpow => ⟨fun hrun => ?running, fun hstall => ?stalled⟩,
    fun k s hpow herr => ?reseed, fun k s hpow hon hfail => ⟨fun hroom htwo => ?healthy, ?failed⟩,
    fun s hpow => ⟨fun hearly => ?early, fun hward hsince hperiod hidle hnone hwrite hplace => ?rewrite, fun hbusy => ?busy⟩⟩
  case boundary =>
    have hexec : exec .pavaneFrameBoundary s = .next (pavaneBoundary s) := congrArg Host.Outcome.next (if_pos ⟨hpow, hlock⟩)
    refine ⟨_, hexec, fun p hp => ?_, pavaneBoundary_frame s⟩
    obtain ⟨hkind, hslots, hnext, hslot⟩ := (pavaneBoundary_pipes s p hp).fields
    obtain ⟨hnext', hkind', hslots'⟩ := reassigned_fields (pipeOf s p)
    exact ⟨hslot, hnext.trans hnext', hkind.trans hkind', hslots.trans hslots'⟩
  case slot =>
    have hexec : exec .pavaneSlotStart s = .next (pavaneSlot s) := congrArg Host.Outcome.next (if_pos ⟨hpow, hlock⟩)
    exact ⟨_, hexec, pavaneSlot_pipes s, pavaneSlot_frame s⟩
  case running => exact congrArg Host.Outcome.next ((if_pos hpow).trans (stallTimeout_running i s hrun))
  case stalled =>
    have hexec : exec (.journalStallTimeout i) s = .next (stallTimeout i s) := congrArg Host.Outcome.next (if_pos hpow)
    obtain ⟨⟨hv, hb⟩, hports⟩ := stallTimeout_stalled i s hstall
    refine ⟨_, hexec, hv, hb, fun n r hmem hreq hwait => ?_⟩
    obtain ⟨hnone, hst, -⟩ := hports n r hmem hreq hwait
    exact ⟨hnone, hst⟩
  case reseed =>
    have hexec : exec (.drbgReseedRetry k) s = .next (drbgReseed k s).2 := congrArg Host.Outcome.next (if_pos ⟨hpow, herr⟩)
    refine ⟨_, hexec, fun htwo => ?_, fun hfew => drbgReseed_bad k s hfew k.isLt⟩
    obtain ⟨d, u, heq, hinst, hsince, herr', hpool, hframe⟩ := drbgReseed_good k s htwo
    rw [heq, drbgOf_setDrbg, if_pos rfl]
    exact ⟨hinst, hsince, herr', hpool, (hframe.mono (by simp)).trans ((sameOutside_sym u _).mono (by simp))⟩
  case healthy =>
    obtain ⟨hpool, hframe⟩ := entropyBlock_healthy hon hfail hroom htwo
    exact ⟨_, _, congrArg Host.Outcome.next (if_pos hpow), hpool, drawBytes_length 48 s, hframe⟩
  case failed => exact ⟨_, congrArg Host.Outcome.next (if_pos hpow), entropyBlock_failed hon hfail k.isLt⟩
  case early => exact congrArg Host.Outcome.next (pageRewriteEffect_idle s (.inl hearly))
  case rewrite =>
    exact ⟨_, rfl, pageRewriteEffect_writes s ⟨hpow, hward, hsince, hperiod, hidle, hnone⟩ hwrite hplace⟩
  case busy => exact congrArg Host.Outcome.next (pageRewriteEffect_idle s (.inr hbusy))

end Sys2Proof.Proofs
end

section
/-! PROOFS. Who may write GO (R188, R297, R328, R332), and the obligation on what a write of GO starts. -/

namespace Sys2Proof.Machine

/-! ### The warden's level (R297, R328) -/

/-- The warden's tag carries Monitor level, whatever level its ST names. -/
theorem coreGate_warden_level (pl a len k : Nat) (s : State) :
    coreGate wardenNum pl a len k s = coreGate wardenNum 0 a len k s := rfl

/-- Where no gate entry is in force for the ports, the default map admits the warden's store to GO (R333). -/
theorem coreGate_warden_go (s : State) (h : entriesOf s tgtPort = []) :
    coreGate wardenNum 0 goAddress 4 kWrite s = (some (tgtPort, 0x20), s) := by
  have hpass : gateEntries s (coreTag s wardenNum 0 0) tgtPort 0x20 4 kWrite = .pass := by
    have hrows : ∀ t, defaultRows s t tgtPort 0x20 = [⟨0, 0xFF, 3, 3, false⟩] := fun _ => rfl
    have hwrite : bitOf 3 kWrite = true := by decide
    simp [gateEntries, h, hrows, rowAdmits, coreTag, hwrite]
  have hadmits : coreAdmits s wardenNum 0 goAddress 4 kWrite = (.pass, tgtPort, 0x20) :=
    congrArg (·, tgtPort, 0x20) hpass
  unfold coreGate
  rw [hadmits]

/-! ### The truss cores at User level (R188, R332) -/

/-- A fixed refusal of a target refuses the access. -/
theorem coreGate_fixed (n pl a len k tgt off room : Nat) (s : State) (hmap : mapAddr s n a = .target tgt off room)
    (h : (fixedRefusal s (coreTag s n pl 0) tgt off (min len room) k).isSome = true) :
    (coreGate n pl a len k s).1 = none := by
  obtain ⟨r, hr⟩ := Option.isSome_iff_exists.mp h
  simp [coreGate, coreAdmits, tagAdmits, hmap, hr]

/-- Writes of the flash and every access of a port at User level are refused, if not for an earlier reason (R332). -/
theorem fixedRefusal_unitOnly (t : Tag) (tgt o n k : Nat) (s : State)
    (h : (tgt = tgtFlash ∧ k = kWrite) ∨ (tgt = tgtPort ∧ t.pl = 2)) : (fixedRefusal s t tgt o n k).isSome = true := by
  have hunit : (tgt = tgtFlash ∧ k = kWrite)
      ∨ (tgt = 0x55 ∧ t.warden = false ∧ (meets o n 0x1000 0x400 = true ∨ meets o n 0x80000 0x20000 = true))
      ∨ (tgt = tgtSealed0 ∧ sealed0Admits t = false) ∨ (tgt = tgtPort ∧ t.pl = 2) :=
    h.elim .inl fun hport => .inr (.inr (.inr hport))
  unfold fixedRefusal
  rw [if_pos hunit]
  split
  · rfl
  · split <;> rfl

/-- What holds of the User level: where its gable's window is no larger than sealed memory, so that GO's address is outside it, a
truss core's store to GO is refused. -/
theorem coreGate_userGo_truss (n : Nat) (s : State) (hn : n ≠ wardenNum)
    (hwin : (gableCfg s (gableOfCore s n)).sealedLen ≤ 0x80000000) : (coreGate n 2 goAddress 4 kWrite s).1 = none := by
  have hpl : (coreTag s n 2 0).pl = 2 := by rw [coreTag, if_neg hn]
  have hmap : (∃ off room, mapAddr s n goAddress = .target tgtFlash off room)
      ∨ ∃ off room, mapAddr s n goAddress = .target tgtPort off room := by
    by_cases hflash : goAddress < 0x20000000 + (gableCfg s (gableOfCore s n)).flashSectors * 4096
    · exact .inl ⟨_, _, by
        simp [mapAddr, hn, hflash]
        rfl⟩
    · have hseal : ¬(goAddress + 0x100000 < 0x80000000 + (gableCfg s (gableOfCore s n)).sealedLen) := by
        have hgo : goAddress = 0xFFFFE020 := rfl
        omega
      exact .inr ⟨_, _, by
        simp [mapAddr, hn, hflash, hseal]
        rfl⟩
  rcases hmap with ⟨off, room, hmap⟩ | ⟨off, room, hmap⟩
  · exact coreGate_fixed n 2 _ 4 kWrite _ off room s hmap (fixedRefusal_unitOnly _ _ _ _ _ s (.inl ⟨rfl, rfl⟩))
  · exact coreGate_fixed n 2 _ 4 kWrite _ off room s hmap (fixedRefusal_unitOnly _ _ _ _ _ s (.inr ⟨rfl, hpl⟩))

/-- A module whose warden's ST names User level, with CHAIN_OPEN in CMD of the warden's port. -/
def userWarden : State := {
  cores := [(wardenNum, { st := 0x200 })]
  sym := { ports := [(wardenNum, { mem := [(0, 1)] })] } }

end Sys2Proof.Machine

namespace Sys2Proof.Proofs
open Sys2Proof.Machine

/-- Refutes O31, whose clause on the User level speaks of the warden too: the gate knows the warden by its tag, whose level is 0,
and admits the store though ST names level 2, a level that R297 never lets the warden have. -/
theorem not_portRequests : ¬ Obligations.PortRequests := by
  unfold Obligations.PortRequests
  intro h
  have hop : (portRequest (portOf userWarden (coreNum .warden))).op = 1 := by decide
  obtain ⟨-, -, huser, -⟩ := h (.chainOpen, 1) (List.mem_cons_self ..) .warden userWarden hop
  have hrefused : (coreGate wardenNum 2 goAddress 4 kWrite (wake wardenNum userWarden)).1 = none := huser (by decide)
  rw [coreGate_warden_level, coreGate_warden_go _ (by decide)] at hrefused
  cases hrefused

end Sys2Proof.Proofs
end

section
/-! PROOFS. How a port's request ends or waits on (R189, R190, R197, R225), and the obligation on what the chain, key, cipher, hash
and DRBG requests leave. -/

namespace Sys2Proof.Machine

/-! ### What loads that begin leave of a port (R16, R197) -/

/-- Two values of a port differ at most in what has begun of the request in progress. -/
def SameButLoad (x y : SymPort) : Prop := y = { x with req := y.req } ∧ y.req.isSome = x.req.isSome

theorem SameButLoad.refl (x : SymPort) : SameButLoad x x := ⟨rfl, rfl⟩

theorem SameButLoad.trans {x y z : SymPort} (h : SameButLoad x y) (h' : SameButLoad y z) : SameButLoad x z := by
  obtain ⟨heq, hreq⟩ := h
  obtain ⟨heq', hreq'⟩ := h'
  exact ⟨by rw [heq', heq], hreq'.trans hreq⟩

theorem beginLoad_port (p n : Nat) (x : LoadAsk) (s : State) : SameButLoad (portOf s n) (portOf (beginLoad p x s) n) := by
  unfold beginLoad
  split
  next m _ =>
    rw [portOf_setPort]
    split
    next h => exact h ▸ ⟨rfl, Option.isSome_map⟩
    next => exact .refl _
  next => exact .refl _

theorem startLoads_port (p n : Nat) : ∀ (f : Nat) (s : State), SameButLoad (portOf s n) (portOf (startLoads p f s) n)
  | 0, _ => .refl _
  | f + 1, s => by
    unfold startLoads
    split
    · exact .refl _
    split
    · exact (beginLoad_port p n _ (setPipe p _ s)).trans (startLoads_port p n f _)
    · exact .refl _

theorem serveLoads_port (n : Nat) (s : State) : SameButLoad (portOf s n) (portOf (serveLoads s) n) := by
  unfold serveLoads
  generalize List.range 4 = ps
  induction ps generalizing s with
  | nil => exact .refl _
  | cons p ps ih => exact (startLoads_port p n 2 s).trans (ih _)

/-- A port that is at rest with a status and bytes stays so while loaders take up loads. -/
theorem serveLoads_ended (c : CoreId) (st : Nat) (b : List Byte) (s : State) (h : PortEnded c st b s) :
    PortEnded c st b (serveLoads s) := by
  obtain ⟨hreq, hst, hdata⟩ := h
  obtain ⟨heq, hsome⟩ := serveLoads_port (coreNum c) s
  rw [hreq] at hsome
  refine ⟨Option.isNone_iff_eq_none.mp (Option.isSome_eq_false_iff.mp hsome), ?_, ?_⟩
  · rw [heq]
    exact hst
  · rw [portData, heq]
    exact hdata

/-! ### The end of a request (R190) -/

theorem Memory.read_eq_map (d : Byte) (m : Memory) (a n : Nat) :
    Memory.read d m a n = (List.range n).map fun i => SMap.get d m (a + i) := by
  induction n generalizing a with
  | zero => rfl
  | succ n ih => simp [Memory.read, ih, List.range_succ_eq_map, Function.comp_def, Nat.add_assoc, Nat.add_comm 1]

/-- Bytes written to a memory read back. -/
theorem Memory.read_write (d : Byte) (m : Memory) (a : Nat) (bs : List Byte) :
    Memory.read d (Memory.write d m a bs) a bs.length = bs := by
  rw [Memory.read_eq_map]
  refine List.ext_getElem (by simp) fun i _ hi => ?_
  simp [Memory.get_write, hi]

/-- A request that fails leaves zero DATA. -/
theorem portEnd_failed (c : CoreId) (st : Nat) (d : Option (List Byte)) (s : State) (h : st ≠ stOk) :
    PortEnded c st noData (portEnd (coreNum c) st d s) := by
  have hport : portOf (portEnd (coreNum c) st d s) (coreNum c) = { portOf s (coreNum c) with
      req := none
      status := st
      mem := Memory.write 0 (portOf s (coreNum c)).mem 0x40 noData } := by
    simp only [portEnd, if_neg h, portOf_setPort]
    rfl
  have hread := Memory.read_write 0 (portOf s (coreNum c)).mem 0x40 noData
  rw [List.length_replicate] at hread
  rw [PortEnded, portData, hport]
  refine ⟨rfl, rfl, ?_⟩
  dsimp only
  exact hread

/-! ### A request that ends, or still waits for what it needs (R190, R225) -/

section
variable {c : CoreId} {op : Nat} {r : PortReq} {s : State} (src : HostData) (m : Bool) (h : AtPort c op r s)
include h

theorem exec_portRequestComplete_waits (hw : portWaits s r = true) :
    exec (.portRequestComplete c src m) s = .next (serveLoads s) := by
  obtain ⟨hpow, hreq, -⟩ := h
  have hcomplete : portComplete (coreNum c) src m s = serveLoads s := by simp [portComplete, hreq, hw]
  exact congrArg Host.Outcome.next ((if_pos hpow).trans hcomplete)

theorem exec_portRequestComplete_finishes (hw : portWaits s r = false) :
    exec (.portRequestComplete c src m) s = .next (serveLoads (portFinish (coreNum c) r src m s)) := by
  obtain ⟨hpow, hreq, -⟩ := h
  have hcomplete : portComplete (coreNum c) src m s = serveLoads (portFinish (coreNum c) r src m s) := by
    simp [portComplete, hreq, hw]
  exact congrArg Host.Outcome.next ((if_pos hpow).trans hcomplete)

/-- While it waits, the request stays in progress. -/
theorem portRequestComplete_busy (hw : portWaits s r = true) (t : State)
    (ht : exec (.portRequestComplete c src m) s = .next t) : (portOf t (coreNum c)).req ≠ none := by
  rw [exec_portRequestComplete_waits src m h hw] at ht
  cases ht
  obtain ⟨-, hreq, -⟩ := h
  obtain ⟨-, hsome⟩ := serveLoads_port (coreNum c) s
  intro hnone
  rw [hnone, hreq] at hsome
  cases hsome

/-- What holds of SHA_BLOCKS and SHA_FINAL without an active context: where they need not wait for sealed memory, they end with
STATE_REFUSED (R203). -/
theorem shaWithoutContext_ends (hop : op = 8 ∨ op = 9) (hw : portWaits s r = false)
    (hidle : (shaOf s (coreNum c)).active = false) :
    ∃ t, exec (.portRequestComplete c src m) s = .next t ∧ PortEnded c 2 noData t ∧ SameOutside [.sym, .hqi] s t := by
  have hfinish : portFinish (coreNum c) r src m s = portEnd (coreNum c) stStateRefused none s := by
    obtain ⟨-, -, rfl⟩ := h
    rcases hop with hop | hop <;> simp [portFinish, hop, endShaBlocks, endShaFinal, hidle]
  refine ⟨_, exec_portRequestComplete_finishes src m h hw, ?_, ?_⟩ <;> rw [hfinish]
  · exact serveLoads_ended c _ _ _ (portEnd_failed c stStateRefused none s (by decide))
  · exact ((portEnd_frame _ _ _ s).mono (by simp)).trans (serveLoads_frame _)

end

/-- A SHA_BLOCKS request with its message in sealed memory. -/
def sealedShaBlocks : PortReq := ⟨8, 0, 2, false, 0, 0, 0, 0, [], 0, none⟩

/-- A module in Active whose sealed memory is still being initialised, with that request in core 0's port. -/
def sealedShaWaits : State := {
  sys := { power := .active }
  sym := { ports := [(0, { req := some sealedShaBlocks })] } }

end Sys2Proof.Machine

namespace Sys2Proof.Proofs
open Sys2Proof.Machine

/-- Refutes O32, whose clause on SHA_BLOCKS and SHA_FINAL without an active context says that they end: a request whose message
lies in sealed memory stays in progress until the initialisation has ended (R225). -/
theorem not_portResults : ¬ Obligations.PortResults := by
  unfold Obligations.PortResults
  rintro ⟨-, -, -, -, -, -, -, hsha, -⟩
  have hport : AtPort (.truss 0 0) 8 sealedShaBlocks sealedShaWaits := by decide
  obtain ⟨hidle, -⟩ := hsha (.truss 0 0) 8 sealedShaBlocks .poison sealedShaWaits hport (.inl rfl)
  obtain ⟨t, ht, ⟨hended, -⟩, -⟩ := hidle (by decide)
  exact portRequestComplete_busy .poison false hport (by decide) t ht hended

end Sys2Proof.Proofs
end

section
/-! PROOFS. A request for a counter's next value that waits for its reservation (R197, R207, R208), and the obligation on the
counters. -/

namespace Sys2Proof.Machine

/-! ### Whose loads the loaders take up (R197) -/

/-- A fold that at each element keeps what it has or takes the element ends with one of the list, or with what it began with. -/
theorem foldl_choice_mem {α : Type} {f : Option α → α → Option α} (hf : ∀ b x, f b x = some x ∨ f b x = b) (l : List α)
    (b : Option α) (x : α) (h : l.foldl f b = some x) : x ∈ l ∨ b = some x := by
  induction l generalizing b with
  | nil => exact .inr h
  | cons y l ih =>
    rcases ih _ h with hmem | heq
    · exact .inl (List.mem_cons_of_mem y hmem)
    · rcases hf b y with hnew | hold
      · exact .inl (by simp_all)
      · exact .inr (hold ▸ heq)

theorem firstAsk_mem (last g : Nat) (asks : List LoadAsk) (x : LoadAsk) (h : firstAsk last g asks = some x) : x ∈ asks := by
  unfold firstAsk at h
  extract_lets least mine at h
  have hleast : ∀ l y, least l = some y → y ∈ l := fun l y hy => by
    refine (foldl_choice_mem (fun b z => ?_) l none y hy).resolve_right (by simp)
    split
    · split
      · exact .inl rfl
      · exact .inr rfl
    · exact .inl rfl
  rcases Option.or_eq_some_iff.mp h with h | ⟨-, h⟩
  · exact (List.mem_filter.mp (List.mem_filter.mp (hleast _ _ h)).1).1
  · exact (List.mem_filter.mp (hleast _ _ h)).1

theorem nextAsk_mem (s : State) (q q' : RoundRobin) (asks : List LoadAsk) (x : LoadAsk) (h : nextAsk s q asks = some (x, q')) :
    x ∈ asks := by
  unfold nextAsk at h
  rcases Option.or_eq_some_iff.mp h with h | ⟨-, h⟩
  all_goals
    obtain ⟨g, -, hg⟩ := Option.bind_eq_some_iff.mp h
    obtain ⟨y, hy, heq⟩ := Option.map_eq_some_iff.mp hg
    cases heq
    exact firstAsk_mem _ _ _ _ hy

/-- A port's load waits only where its store lists, under the port's number, a request that needs a loader. -/
theorem loadAsks_port (s : State) (p n : Nat) (x : LoadAsk) (h : x ∈ loadAsks s p) (hwho : x.who = .port n) :
    ∃ e ∈ s.sym.ports, e.1 = n ∧ ∃ r, e.2.req = some r ∧ needsLoader s n r = true := by
  rcases List.mem_append.mp h with h | h
  · obtain ⟨e, he, hx⟩ := List.mem_filterMap.mp h
    split at hx
    next r hreq =>
      split at hx
      next hcond =>
        cases hx
        cases hwho
        simp only [Bool.and_eq_true] at hcond
        obtain ⟨⟨-, hneeds⟩, -⟩ := hcond
        exact ⟨e, he, rfl, r, hreq, hneeds⟩
      next => cases hx
    next => cases hx
  · obtain ⟨c, -, rfl⟩ := List.mem_map.mp h
    cases hwho

theorem needsLoader_ctrNext (s : State) (n : Nat) (r : PortReq) (h : r.op = 11) : needsLoader s n r = false := by
  simp [needsLoader, h]

/-- Core `n`'s port has request `r` in progress, and the store lists no other for it. -/
def PortHolds (n : Nat) (r : PortReq) (s : State) : Prop :=
  (portOf s n).req = some r ∧ ∀ e ∈ s.sym.ports, e.1 = n → e.2.req = some r

/-- A load that begins for another leaves a port as it is. -/
theorem beginLoad_holds (p n : Nat) (r : PortReq) (x : LoadAsk) (s : State) (hx : x.who ≠ .port n) (h : PortHolds n r s) :
    PortHolds n r (beginLoad p x s) := by
  obtain ⟨hreq, hall⟩ := h
  unfold beginLoad
  split
  next m hwho =>
    have hm : m ≠ n := fun heq => hx (heq ▸ hwho)
    refine ⟨by rw [portOf_setPort, if_neg hm.symm, hreq], fun e he hn => ?_⟩
    rcases SMap.mem_set _ _ _ _ e he with rfl | ⟨hmem, -⟩
    · exact absurd hn hm
    · exact hall e hmem hn
  next => exact ⟨hreq, hall⟩

/-- Loaders leave a request for a counter's next value as it is. -/
theorem startLoads_holds (p n : Nat) (r : PortReq) (hop : r.op = 11) :
    ∀ (f : Nat) (s : State), PortHolds n r s → PortHolds n r (startLoads p f s)
  | 0, _, h => h
  | f + 1, s, h => by
    unfold startLoads
    split
    · exact h
    split
    next x q hask =>
      have ⟨_, hall⟩ := h
      refine startLoads_holds p n r hop f _ (beginLoad_holds p n r x _ (fun hwho => ?_) h)
      obtain ⟨e, he, hn, r', hreq, hneeds⟩ := loadAsks_port s p n x (nextAsk_mem s _ q _ x hask) hwho
      rw [hall e he hn] at hreq
      cases hreq
      rw [needsLoader_ctrNext s n r hop] at hneeds
      cases hneeds
    next => exact h

theorem serveLoads_holds (n : Nat) (r : PortReq) (hop : r.op = 11) (s : State) (h : PortHolds n r s) :
    PortHolds n r (serveLoads s) := by
  unfold serveLoads
  generalize List.range 4 = ps
  induction ps generalizing s with
  | nil => exact h
  | cons p ps ih => exact ih _ (startLoads_holds p n r hop 2 s h)

@[simp] theorem beginLoad_ctr (p : Nat) (x : LoadAsk) (s : State) : (beginLoad p x s).sym.ctr = s.sym.ctr := by
  unfold beginLoad
  split <;> rfl

theorem startLoads_ctr (p : Nat) : ∀ (f : Nat) (s : State), (startLoads p f s).sym.ctr = s.sym.ctr
  | 0, _ => rfl
  | f + 1, s => by
    unfold startLoads
    split
    · rfl
    split
    · rw [startLoads_ctr p f, beginLoad_ctr]
      rfl
    · rfl

/-- Key loads leave the counter vault alone. -/
@[simp] theorem serveLoads_ctr (s : State) : (serveLoads s).sym.ctr = s.sym.ctr := by
  unfold serveLoads
  generalize List.range 4 = ps
  induction ps generalizing s with
  | nil => rfl
  | cons p ps ih => exact (ih _).trans (startLoads_ctr p 2 s)

/-! ### A value that the bound does not cover (R208) -/

/-- The state with `k` as the counter vault and `jport` as the words that wait at the journal port. -/
def withVault (jport : List (Nat × Dword)) (k : CtrState) (s : State) : State := { s with
  flc := { s.flc with jport := jport }
  sym := { s.sym with ctr := k } }

theorem withVault_frame (jport : List (Nat × Dword)) (k : CtrState) (s : State) :
    SameOutside [.sym, .flc, .hqi] s (withVault jport k s) := fun p hp => by
  cases p <;> simp_all [SamePart, withVault]

section
variable {c : Nat} {s : State} (hown : OwnCounters s) (hvb : ctrV s c = ctrB s c) (htop : ctrB s c < 2 ^ 64 - 1)
include hown hvb

theorem ctrNextValue_own : ctrNextValue s c = some (ctrB s c + 1) := by rw [ctrNextValue, if_pos hown.1, hvb]

include htop

/-- A draw at the bound waits, once the low-water rule has been tested. -/
theorem ctrDraw_atBound : ctrDraw c s = (.waits, ctrReserve c s) := by
  unfold ctrDraw
  rw [if_neg (by simp [hown.2]), if_neg (hvb ▸ Nat.ne_of_lt htop), ctrNextValue_own hown hvb]
  exact if_neg (by omega)

/-- At the bound, with none of the counter's records in flight and a place in the log, a RESERVE record of the next 256 values is
appended. -/
theorem ctrReserve_atBound (hflight : SMap.get none s.sym.ctr.flight c = none) (hplace : (journalPlace s).isSome = true) :
    ∃ jport k, ctrReserve c s = withVault jport k s
      ∧ k.v = s.sym.ctr.v ∧ k.b = s.sym.ctr.b ∧ k.seq = s.sym.ctr.seq + 1
      ∧ SMap.get none k.flight c = some (min (ctrB s c + 256) (2 ^ 64 - 1)) := by
  have hbound : ctrBound s c = 2 ^ 64 - 1 := if_pos hown.1
  obtain ⟨jport, k, happ, hv, hb, hseq⟩ :=
    appendJournal_placed 1 (min (ctrB s c + 256) (2 ^ 64 - 1)) c s hplace
  refine ⟨jport, { k with flight := SMap.set none k.flight c (some (min (ctrB s c + 256) (2 ^ 64 - 1))) }, ?_, hv, hb, hseq,
    by simp⟩
  unfold ctrReserve
  simp only [ctrNextValue_own hown hvb, hbound, Nat.add_sub_cancel, Nat.max_self, hflight]
  rw [if_pos ⟨rfl, by omega, by omega⟩, happ, if_pos rfl]
  rfl

end

/-- What holds of a CTR_NEXT at the bound where the store lists core `c`'s port only as it reads: the request waits as it stands,
with its RESERVE record in flight (R208). -/
theorem ctrNext_waits (c : CoreId) (r : PortReq) (src : HostData) (m : Bool) (s : State) (h : AtPort c 11 r s)
    (hturn : CounterTurn c r s) (hlisted : ∀ e ∈ s.sym.ports, e.1 = coreNum c → e.2 = portOf s (coreNum c))
    (hvb : ctrV s r.argA = ctrB s r.argA) (htop : ctrB s r.argA < 2 ^ 64 - 1)
    (hflight : SMap.get none s.sym.ctr.flight r.argA = none) (hplace : (journalPlace s).isSome = true) :
    ∃ t, exec (.portRequestComplete c src m) s = .next t ∧ (portOf t (coreNum c)).req = some r ∧ SameCounters s t
      ∧ SMap.get none t.sym.ctr.flight r.argA = some (min (ctrB s r.argA + 256) (2 ^ 64 - 1))
      ∧ t.sym.ctr.seq = s.sym.ctr.seq + 1 ∧ SameOutside [.sym, .flc, .hqi] s t := by
  have ⟨_, hreq, hop⟩ := h
  obtain ⟨howned, hown, hfirst⟩ := hturn
  have hw : portWaits s r = false := by simp [portWaits, hop]
  have hfinish : portFinish (coreNum c) r src m s = ctrReserve r.argA s := by
    simp [portFinish, hop, endCtrNext, howned, hfirst, ctrDraw_atBound hown hvb htop]
  obtain ⟨jport, k, hreserve, hv, hb, hseq, hflight'⟩ := ctrReserve_atBound hown hvb htop hflight hplace
  refine ⟨_, exec_portRequestComplete_finishes src m h hw, ?_⟩
  rw [hfinish, hreserve]
  have hctr : (serveLoads (withVault jport k s)).sym.ctr = k := serveLoads_ctr _
  have hholds : PortHolds (coreNum c) r (withVault jport k s) := ⟨hreq, fun e he hn => hlisted e he hn ▸ hreq⟩
  refine ⟨(serveLoads_holds _ r hop _ hholds).1, ⟨fun i => ?_, fun i => ?_⟩, ?_, ?_,
    (withVault_frame jport k s).trans ((serveLoads_frame _).mono (by simp))⟩
  · rw [ctrV, hctr, hv, ctrV]
  · rw [ctrB, hctr, hb, ctrB]
  · rw [hctr, hflight']
  · rw [hctr, hseq]

/-- The warden's request for the next value of counter 3, whose bound is reached. -/
def nextValue : PortReq := ⟨11, 0, 0, false, 3, 0, 0, 0, [], 0, none⟩

/-- A KEY_LOAD of sealed slot 0 into the warden's chain 0. -/
def loadSlot : PortReq := ⟨3, 0, 0, false, 2 ^ 62, 0, 0, 0, [], 0, none⟩

/-- A module in Active whose store lists two requests for the warden's port: it reads as the first, and the loaders find the
second. -/
def portListedTwice : State := {
  sys := { power := .active }
  img := { latched := { partition := { ctrj := 256 } } }
  sym := {
    ports := [(wardenNum, { req := some nextValue }), (wardenNum, { req := some loadSlot })]
    chains := [(0, { core := some (wardenNum, 0) })] } }

end Sys2Proof.Machine

namespace Sys2Proof.Proofs
open Sys2Proof.Machine

/-- Refutes O33, whose clause on a CTR_NEXT at the bound says of every state that the request stays as it is: where the store of
ports is not canonical and lists the port twice, a loader takes up the load of the hidden entry and marks the request as begun. -/
theorem not_counterVault : ¬ Obligations.CounterVault := by
  unfold Obligations.CounterVault
  rintro ⟨-, hnext, -⟩
  have hport : AtPort .warden 11 nextValue portListedTwice := by decide
  have hturn : CounterTurn .warden nextValue portListedTwice := by decide +kernel
  obtain ⟨-, -, -, hwaits⟩ := hnext .warden nextValue .poison false portListedTwice hport
  obtain ⟨t, ht, hreq, -⟩ := hwaits hturn (by decide) (by decide) (by decide) (by decide +kernel)
  have heq : t = serveLoads (portFinish (coreNum .warden) nextValue .poison false portListedTwice) :=
    Host.Outcome.next.inj (ht.symm.trans (exec_portRequestComplete_finishes .poison false hport (by decide)))
  have hbegun : (portOf (serveLoads (portFinish (coreNum .warden) nextValue .poison false portListedTwice)) (coreNum .warden)).req
      = some { nextValue with begun := some 0 } := by decide +kernel
  rw [heq, hbegun] at hreq
  exact absurd hreq (by decide)

end Sys2Proof.Proofs
end
